-- ==== Sys2Proof/Word.lean ====
section
/-! DEFINITION. The word types of the machine (R1, R2, R19, R36): registers, memory words and vector registers. -/

namespace Sys2Proof

/-- A byte of memory. -/
abbrev Byte := BitVec 8

/-- A scalar register, a CSR, or a 64-bit word of memory (R82, R91). -/
abbrev W64 := BitVec 64

/-- A handler word (R26), or a 32-bit value. -/
abbrev W32 := BitVec 32

/-- A vector register (R199), a TCW (R36) or a layout record (R134). -/
abbrev V256 := BitVec 256

/-- A W36 float (R56). -/
abbrev W36 := BitVec 36

end Sys2Proof
end

