-- ==== Sys2Proof/Syntax.lean ====
section
/-! DEFINITION. The instructions of the Z3: one constructor of `Instr` for each row of the opcode table (handler words,
tile control words, PE operations, and the events of the module), with their operand types, and the moves of the machine. -/

namespace Sys2Proof

/-- A scalar register x0 to x31 (R43). -/
abbrev Reg := Fin 32

/-- A vector register field: v0 to v14, and 15 for vin (R34). -/
abbrev VReg := Fin 16

/-- A predicate p0 to p7 (R43). -/
abbrev PReg := Fin 8

/-- The scopes of R141. -/
inductive Scope where
  | act | core | cl | die | mod | dom
  deriving DecidableEq, Repr, Inhabited

/-- The access widths of LDA and STL (R153). -/
inductive MemW where
  | b | h | w | d
  deriving DecidableEq, Repr, Inhabited

/-- The storage formats of a conversion (R32). -/
inductive Fmt where
  | fp32 | bf16 | fp16 | e4m3 | e5m2 | int8 | int16 | int32
  deriving DecidableEq, Repr, Inhabited

/-- The shared-exponent block types (R58). -/
inductive Sx where
  | sx2 | sx4 | sx7
  deriving DecidableEq, Repr, Inhabited

/-- The rounding codes of a conversion (R32); `rndm` takes the mode that RNDM holds. -/
inductive RCode where
  | rndm | rne | rtz | rdn | rup | rna
  deriving DecidableEq, Repr, Inhabited

/-- The VCMP conditions (R33). -/
inductive Cond where
  | eq | ne | lt | le | gt | ge | ltu | leu | gtu | geu | unord | ord
  deriving DecidableEq, Repr, Inhabited

/-- The operand formats of MMA and CELLP (R222). -/
inductive OpFmt where
  | fp32 | bf16 | fp16 | e4m3 | e5m2 | int8 | packed
  deriving DecidableEq, Repr, Inhabited

/-- Operand A or B of MMA and CELLP (R222): format, base and stride. -/
structure OpaOperand where
  fmt : OpFmt
  base : Nat
  str : Nat
  deriving DecidableEq, Repr, Inhabited

/-- The formats of ACDRAIN (R242). -/
inductive DrainFmt where
  | w36 | fp32 | bf16 | fp16
  deriving DecidableEq, Repr, Inhabited

/-- CMDF of the NE commands (R331, R333): bytes a packet carries, acknowledged completion, ordered delivery. -/
structure NeFlags where
  psize : Nat
  ackl : Bool
  rod : Bool
  deriving DecidableEq, Repr, Inhabited

/-- The destination of an NE command: module, die and cluster (R333). -/
structure NeDst where
  mod : Nat
  die : Nat
  cl : Nat
  deriving DecidableEq, Repr, Inhabited

/-- What a packet belongs to (R328, R333 to R335). `srcmod` tells the receiver that the sender ended the message (R330);
`refused` carries an error found at the other end (R332). -/
inductive Body where
  | send (rq : Nat) (imm : W32) (len : Nat)
  | write (daddr : Nat) (rctr : Option Nat) (len : Nat)
  | handler (h0 h1 : W64)
  | xsend (clusters : List Nat) (doff rctr len : Nat)
  | readData (req len : Nat)
  | srcmod
  | refused (req code : Nat)
  deriving DecidableEq, Repr, Inhabited

/-- A packet at an NE (R329): source module and message number there, destination cluster, job, packet number and count, byte
offset, payload with the poison of each byte. `good` says that its CRC32C, frame check and header checks pass; `supported` that it uses only
parts of the transport that R328 lists. Under ROD it names the message that its sender has open before it (`prev`; log entry 70). -/
structure Packet where
  src : Nat
  mid : Nat
  ck : Nat
  job : Nat
  num : Nat
  total : Nat
  off : Nat
  data : List (Byte × Bool)
  good : Bool
  supported : Bool
  rod : Bool
  prev : Option Nat
  body : Body
  deriving DecidableEq, Repr, Inhabited

/-- What an acknowledgement says beside its bitmap (R332, R333). -/
inductive AckKind where
  | state | notReady | failed (code : Nat)
  deriving DecidableEq, Repr, Inhabited

/-- An acknowledgement (R329, R383): the acknowledging module, the message, how many packets from 0 on have arrived without
a gap, and the SACK bitmap of the packets from there on. -/
structure Ack where
  src : Nat
  mid : Nat
  cum : Nat
  sack : W64
  kind : AckKind
  deriving DecidableEq, Repr, Inhabited

/-- A remote read request (R333), with the cluster that asks. -/
structure ReadReq where
  src : Nat
  mid : Nat
  ck : Nat
  job : Nat
  daddr : Nat
  len : Nat
  psize : Nat
  rod : Bool
  deriving DecidableEq, Repr, Inhabited

/-- What holds an activation that waits: a bank, or an entry of a cluster's context region (R158). -/
inductive Holder where
  | bank (bk : Nat)
  | saved (ck i : Nat)
  deriving DecidableEq, Repr, Inhabited

/-- An outstanding load: what holds its activation, and which of the loads of that activation it is (R121, R350). -/
structure LoadRef where
  holder : Holder
  k : Nat
  deriving DecidableEq, Repr, Inhabited

/-- The fields of a FENCE word beside opcode and funct3, none of which it looks at (R29, R154): rd, rs1, and fm, pred and succ. -/
structure FenceFields where
  rd : Reg
  rs1 : Reg
  bits : BitVec 12
  deriving DecidableEq, Repr, Inhabited

/-- The reasons of a PREEMPT trap (R340). -/
inductive PreReason where
  | lease | gang | longWait | yield
  deriving DecidableEq, Repr, Inhabited

/-- A firmware image as Karmos meets it (R25, R379): which image, its security version, whether each signature verifies. -/
structure FwImage where
  id : Nat
  version : Nat
  rsaOk : Bool
  slhOk : Bool
  deriving DecidableEq, Repr, Inhabited

/-- One constructor for each row of the opcode table: the words and commands with operands in the table's order, then what has no
operands and the events. Operand names follow the encoding tables of the spec. -/
inductive Instr where
  /-- LUI (R82). -/
  | lui (rd : Reg) (imm : BitVec 20)
  /-- AUIPC (R82). -/
  | auipc (rd : Reg) (imm : BitVec 20)
  /-- JAL (R82: `off` is imm[20:1]). -/
  | jal (rd : Reg) (off : BitVec 20)
  /-- JALR (R82). -/
  | jalr (rd rs1 : Reg) (imm : BitVec 12)
  /-- BEQ (R82: `off` is imm[12:1]). -/
  | beq (rs1 rs2 : Reg) (off : BitVec 12)
  /-- BNE (R82: `off` is imm[12:1]). -/
  | bne (rs1 rs2 : Reg) (off : BitVec 12)
  /-- BLT (R82: `off` is imm[12:1]). -/
  | blt (rs1 rs2 : Reg) (off : BitVec 12)
  /-- BGE (R82: `off` is imm[12:1]). -/
  | bge (rs1 rs2 : Reg) (off : BitVec 12)
  /-- BLTU (R82: `off` is imm[12:1]). -/
  | bltu (rs1 rs2 : Reg) (off : BitVec 12)
  /-- BGEU (R82: `off` is imm[12:1]). -/
  | bgeu (rs1 rs2 : Reg) (off : BitVec 12)
  /-- LB (R82). -/
  | lb (rd rs1 : Reg) (imm : BitVec 12)
  /-- LH (R82). -/
  | lh (rd rs1 : Reg) (imm : BitVec 12)
  /-- LW (R82). -/
  | lw (rd rs1 : Reg) (imm : BitVec 12)
  /-- LD (R82). -/
  | ld (rd rs1 : Reg) (imm : BitVec 12)
  /-- LBU (R82). -/
  | lbu (rd rs1 : Reg) (imm : BitVec 12)
  /-- LHU (R82). -/
  | lhu (rd rs1 : Reg) (imm : BitVec 12)
  /-- LWU (R82). -/
  | lwu (rd rs1 : Reg) (imm : BitVec 12)
  /-- SB (R82). -/
  | sb (rs1 rs2 : Reg) (imm : BitVec 12)
  /-- SH (R82). -/
  | sh (rs1 rs2 : Reg) (imm : BitVec 12)
  /-- SW (R82). -/
  | sw (rs1 rs2 : Reg) (imm : BitVec 12)
  /-- SD (R82). -/
  | sd (rs1 rs2 : Reg) (imm : BitVec 12)
  /-- ADDI (R82). -/
  | addi (rd rs1 : Reg) (imm : BitVec 12)
  /-- SLTI (R82). -/
  | slti (rd rs1 : Reg) (imm : BitVec 12)
  /-- SLTIU (R82). -/
  | sltiu (rd rs1 : Reg) (imm : BitVec 12)
  /-- XORI (R82). -/
  | xori (rd rs1 : Reg) (imm : BitVec 12)
  /-- ORI (R82). -/
  | ori (rd rs1 : Reg) (imm : BitVec 12)
  /-- ANDI (R82). -/
  | andi (rd rs1 : Reg) (imm : BitVec 12)
  /-- SLLI (R82). -/
  | slli (rd rs1 : Reg) (sh : BitVec 6)
  /-- SRLI (R82). -/
  | srli (rd rs1 : Reg) (sh : BitVec 6)
  /-- SRAI (R82). -/
  | srai (rd rs1 : Reg) (sh : BitVec 6)
  /-- ADD (R82). -/
  | add (rd rs1 rs2 : Reg)
  /-- SUB (R82). -/
  | sub (rd rs1 rs2 : Reg)
  /-- SLL (R82). -/
  | sll (rd rs1 rs2 : Reg)
  /-- SLT (R82). -/
  | slt (rd rs1 rs2 : Reg)
  /-- SLTU (R82). -/
  | sltu (rd rs1 rs2 : Reg)
  /-- XOR (R82). -/
  | xor (rd rs1 rs2 : Reg)
  /-- SRL (R82). -/
  | srl (rd rs1 rs2 : Reg)
  /-- SRA (R82). -/
  | sra (rd rs1 rs2 : Reg)
  /-- OR (R82). -/
  | or_ (rd rs1 rs2 : Reg)
  /-- AND (R82). -/
  | and_ (rd rs1 rs2 : Reg)
  /-- MUL (R82). -/
  | mul (rd rs1 rs2 : Reg)
  /-- MULH (R82). -/
  | mulh (rd rs1 rs2 : Reg)
  /-- MULHSU (R82). -/
  | mulhsu (rd rs1 rs2 : Reg)
  /-- MULHU (R82). -/
  | mulhu (rd rs1 rs2 : Reg)
  /-- DIV (R84). -/
  | div (rd rs1 rs2 : Reg)
  /-- DIVU (R84). -/
  | divu (rd rs1 rs2 : Reg)
  /-- REM (R84). -/
  | rem (rd rs1 rs2 : Reg)
  /-- REMU (R84). -/
  | remu (rd rs1 rs2 : Reg)
  /-- ADDIW (R82). -/
  | addiw (rd rs1 : Reg) (imm : BitVec 12)
  /-- SLLIW (R82). -/
  | slliw (rd rs1 : Reg) (sh : BitVec 5)
  /-- SRLIW (R82). -/
  | srliw (rd rs1 : Reg) (sh : BitVec 5)
  /-- SRAIW (R82). -/
  | sraiw (rd rs1 : Reg) (sh : BitVec 5)
  /-- ADDW (R82). -/
  | addw (rd rs1 rs2 : Reg)
  /-- SUBW (R82). -/
  | subw (rd rs1 rs2 : Reg)
  /-- SLLW (R82). -/
  | sllw (rd rs1 rs2 : Reg)
  /-- SRLW (R82). -/
  | srlw (rd rs1 rs2 : Reg)
  /-- SRAW (R82). -/
  | sraw (rd rs1 rs2 : Reg)
  /-- MULW (R82). -/
  | mulw (rd rs1 rs2 : Reg)
  /-- DIVW (R82). -/
  | divw (rd rs1 rs2 : Reg)
  /-- DIVUW (R82). -/
  | divuw (rd rs1 rs2 : Reg)
  /-- REMW (R82). -/
  | remw (rd rs1 rs2 : Reg)
  /-- REMUW (R82). -/
  | remuw (rd rs1 rs2 : Reg)
  /-- FENCE (R29, R87, R154). -/
  | fence (flags : FenceFields)
  /-- CSRRW (R89). -/
  | csrrw (rd rs1 : Reg) (csr : BitVec 12)
  /-- CSRRS (R89). -/
  | csrrs (rd rs1 : Reg) (csr : BitVec 12)
  /-- CSRRC (R89). -/
  | csrrc (rd rs1 : Reg) (csr : BitVec 12)
  /-- CSRRWI (R89). -/
  | csrrwi (rd : Reg) (zimm : BitVec 5) (csr : BitVec 12)
  /-- CSRRSI (R89). -/
  | csrrsi (rd : Reg) (zimm : BitVec 5) (csr : BitVec 12)
  /-- CSRRCI (R89). -/
  | csrrci (rd : Reg) (zimm : BitVec 5) (csr : BitVec 12)
  /-- AADD_W (R128). -/
  | aaddW (rd rs1 rs2 : Reg) (aq rl : Bool)
  /-- AADD_D (R128). -/
  | aaddD (rd rs1 rs2 : Reg) (aq rl : Bool)
  /-- ASWAP_W (R128). -/
  | aswapW (rd rs1 rs2 : Reg) (aq rl : Bool)
  /-- ASWAP_D (R128). -/
  | aswapD (rd rs1 rs2 : Reg) (aq rl : Bool)
  /-- AXOR_W (R128). -/
  | axorW (rd rs1 rs2 : Reg) (aq rl : Bool)
  /-- AXOR_D (R128). -/
  | axorD (rd rs1 rs2 : Reg) (aq rl : Bool)
  /-- ACAS_W (R128). -/
  | acasW (rd rs1 rs2 : Reg) (aq rl : Bool)
  /-- ACAS_D (R128). -/
  | acasD (rd rs1 rs2 : Reg) (aq rl : Bool)
  /-- AFADD_W (R128). -/
  | afaddW (rd rs1 rs2 : Reg) (aq rl : Bool)
  /-- AOR_W (R128). -/
  | aorW (rd rs1 rs2 : Reg) (aq rl : Bool)
  /-- AOR_D (R128). -/
  | aorD (rd rs1 rs2 : Reg) (aq rl : Bool)
  /-- AAND_W (R128). -/
  | aandW (rd rs1 rs2 : Reg) (aq rl : Bool)
  /-- AAND_D (R128). -/
  | aandD (rd rs1 rs2 : Reg) (aq rl : Bool)
  /-- AMIN_W (R128). -/
  | aminW (rd rs1 rs2 : Reg) (aq rl : Bool)
  /-- AMIN_D (R128). -/
  | aminD (rd rs1 rs2 : Reg) (aq rl : Bool)
  /-- AMAX_W (R128). -/
  | amaxW (rd rs1 rs2 : Reg) (aq rl : Bool)
  /-- AMAX_D (R128). -/
  | amaxD (rd rs1 rs2 : Reg) (aq rl : Bool)
  /-- AMINU_W (R128). -/
  | aminuW (rd rs1 rs2 : Reg) (aq rl : Bool)
  /-- AMINU_D (R128). -/
  | aminuD (rd rs1 rs2 : Reg) (aq rl : Bool)
  /-- AMAXU_W (R128). -/
  | amaxuW (rd rs1 rs2 : Reg) (aq rl : Bool)
  /-- AMAXU_D (R128). -/
  | amaxuD (rd rs1 rs2 : Reg) (aq rl : Bool)
  /-- ABORTH (R171). -/
  | aborth (rs1 : Reg)
  /-- WAITC (R174). -/
  | waitc (rd rs1 rs2 : Reg)
  /-- SLEEP (R175). -/
  | sleep (rs1 : Reg)
  /-- DQPUSH (R176). -/
  | dqpush (rd rs1 rs2 : Reg)
  /-- DQPOP (R176). -/
  | dqpop (rd : Reg)
  /-- DQSPLIT (R176). -/
  | dqsplit (rd : Reg)
  /-- DQSTEAL (R177). -/
  | dqsteal (rd rs1 : Reg)
  /-- DQLEN (R176). -/
  | dqlen (rd : Reg)
  /-- SEND (R195). -/
  | send (rd rs1 rs2 : Reg)
  /-- SENDU (R195). -/
  | sendu (rd rs1 rs2 : Reg)
  /-- REPLY (R196). -/
  | reply (rs1 : Reg) (vs2 : VReg)
  /-- SENDV (R195). -/
  | sendv (rd rs1 : Reg) (vs2 : VReg)
  /-- CNTADD (R197). -/
  | cntadd (rs1 rs2 : Reg)
  /-- CNTSET (R197). -/
  | cntset (rs1 rs2 : Reg)
  /-- CNTARM (R197). -/
  | cntarm (rs1 rs2 : Reg)
  /-- CNTRD (R198). -/
  | cntrd (rd rs1 : Reg)
  /-- SHAPE (R135). -/
  | shape (vd : VReg) (rs1 : Reg)
  /-- LDG (R136). -/
  | ldg (rd : Reg) (vs : VReg) (rs2 : Reg)
  /-- STG (R136). -/
  | stg (rs : Reg) (vs : VReg) (rs2 : Reg)
  /-- LDA (R153). -/
  | lda (rd rs1 : Reg) (wd : MemW) (sc : Scope)
  /-- STL (R153). -/
  | stl (rs1 rs2 : Reg) (wd : MemW) (sc : Scope)
  /-- FENCE_S (R154). -/
  | fenceS (sc : Scope)
  /-- PUBLISH (R156). -/
  | publish (rd rs1 rs2 : Reg)
  /-- PUBWAIT (R157). -/
  | pubwait (rd rs1 rs2 : Reg)
  /-- CUADD (R131). -/
  | cuadd (rs1 rs2 : Reg)
  /-- CUADDI (R131). -/
  | cuaddi (rs1 rs2 : Reg)
  /-- ENGQ (R236). -/
  | engq (rd : Reg) (vs : VReg)
  /-- TPOST (R237). -/
  | tpost (rs1 rs2 : Reg)
  /-- ENGST (R238). -/
  | engst (rd rs1 : Reg)
  /-- GRPST (R326). -/
  | grpst (rs1 : Reg) (vs2 : VReg)
  /-- GRPLD (R327). -/
  | grpld (vd : VReg) (rs1 : Reg)
  /-- TRAP (R343). -/
  | trap (code : BitVec 5)
  /-- CHKERR (R347). -/
  | chkerr (rd rs1 : Reg)
  /-- CTXSV (R352). -/
  | ctxsv (rs1 : Reg)
  /-- CTXLD (R352). -/
  | ctxld (rs1 : Reg)
  /-- LEASEQ (R367). -/
  | leaseq (rd rs1 : Reg)
  /-- CAPACK (R368). -/
  | capack (rs1 : Reg)
  /-- SUSPR (R367). -/
  | suspr (rd rs1 rs2 : Reg)
  /-- RETRD (R369). -/
  | retrd (rd rs1 rs2 : Reg)
  /-- VCVT (R74). -/
  | vcvt (dst src : Fmt) (rm : RCode) (vs vd : VReg)
  /-- VQSX (R75). -/
  | vqsx (k : Sx) (rm : RCode) (vs vd : VReg)
  /-- VDQSX (R76). -/
  | vdqsx (k : Sx) (rm : RCode) (vs vd : VReg)
  /-- VQROW (R77). -/
  | vqrow (four : Bool) (rm : RCode) (vs vd : VReg)
  /-- VDQROW (R78). -/
  | vdqrow (four : Bool) (rm : RCode) (vs vd : VReg)
  /-- VCVTSR (R74). -/
  | vcvtsr (dst src : Fmt) (vr vs vd : VReg)
  /-- VADD_VV (R207). -/
  | vaddVV (p : PReg) (vs2 vs1 vd : VReg)
  /-- VADD_VX (R207). -/
  | vaddVX (p : PReg) (rs2 : Reg) (vs1 vd : VReg)
  /-- VADD_VI (R207). -/
  | vaddVI (p : PReg) (imm : BitVec 5) (vs1 vd : VReg)
  /-- VSUB_VV (R207). -/
  | vsubVV (p : PReg) (vs2 vs1 vd : VReg)
  /-- VSUB_VX (R207). -/
  | vsubVX (p : PReg) (rs2 : Reg) (vs1 vd : VReg)
  /-- VSUB_VI (R207). -/
  | vsubVI (p : PReg) (imm : BitVec 5) (vs1 vd : VReg)
  /-- VMUL_VV (R207). -/
  | vmulVV (p : PReg) (vs2 vs1 vd : VReg)
  /-- VMUL_VX (R207). -/
  | vmulVX (p : PReg) (rs2 : Reg) (vs1 vd : VReg)
  /-- VMUL_VI (R207). -/
  | vmulVI (p : PReg) (imm : BitVec 5) (vs1 vd : VReg)
  /-- VFMA (R207). -/
  | vfma (p : PReg) (vs2 vs1 vd : VReg)
  /-- VFMS (R207). -/
  | vfms (p : PReg) (vs2 vs1 vd : VReg)
  /-- VMIN_VV (R207). -/
  | vminVV (p : PReg) (vs2 vs1 vd : VReg)
  /-- VMIN_VX (R207). -/
  | vminVX (p : PReg) (rs2 : Reg) (vs1 vd : VReg)
  /-- VMIN_VI (R207). -/
  | vminVI (p : PReg) (imm : BitVec 5) (vs1 vd : VReg)
  /-- VMAX_VV (R207). -/
  | vmaxVV (p : PReg) (vs2 vs1 vd : VReg)
  /-- VMAX_VX (R207). -/
  | vmaxVX (p : PReg) (rs2 : Reg) (vs1 vd : VReg)
  /-- VMAX_VI (R207). -/
  | vmaxVI (p : PReg) (imm : BitVec 5) (vs1 vd : VReg)
  /-- VABS (R207). -/
  | vabs (p : PReg) (vs1 vd : VReg)
  /-- VNEG (R207). -/
  | vneg (p : PReg) (vs1 vd : VReg)
  /-- VAND_VV (R207). -/
  | vandVV (p : PReg) (vs2 vs1 vd : VReg)
  /-- VAND_VX (R207). -/
  | vandVX (p : PReg) (rs2 : Reg) (vs1 vd : VReg)
  /-- VAND_VI (R207). -/
  | vandVI (p : PReg) (imm : BitVec 5) (vs1 vd : VReg)
  /-- VOR_VV (R207). -/
  | vorVV (p : PReg) (vs2 vs1 vd : VReg)
  /-- VOR_VX (R207). -/
  | vorVX (p : PReg) (rs2 : Reg) (vs1 vd : VReg)
  /-- VOR_VI (R207). -/
  | vorVI (p : PReg) (imm : BitVec 5) (vs1 vd : VReg)
  /-- VXOR_VV (R207). -/
  | vxorVV (p : PReg) (vs2 vs1 vd : VReg)
  /-- VXOR_VX (R207). -/
  | vxorVX (p : PReg) (rs2 : Reg) (vs1 vd : VReg)
  /-- VXOR_VI (R207). -/
  | vxorVI (p : PReg) (imm : BitVec 5) (vs1 vd : VReg)
  /-- VSHL_VV (R207). -/
  | vshlVV (p : PReg) (vs2 vs1 vd : VReg)
  /-- VSHL_VX (R207). -/
  | vshlVX (p : PReg) (rs2 : Reg) (vs1 vd : VReg)
  /-- VSHL_VI (R207). -/
  | vshlVI (p : PReg) (imm : BitVec 5) (vs1 vd : VReg)
  /-- VSHR_VV (R207). -/
  | vshrVV (p : PReg) (vs2 vs1 vd : VReg)
  /-- VSHR_VX (R207). -/
  | vshrVX (p : PReg) (rs2 : Reg) (vs1 vd : VReg)
  /-- VSHR_VI (R207). -/
  | vshrVI (p : PReg) (imm : BitVec 5) (vs1 vd : VReg)
  /-- VSRA_VV (R207). -/
  | vsraVV (p : PReg) (vs2 vs1 vd : VReg)
  /-- VSRA_VX (R207). -/
  | vsraVX (p : PReg) (rs2 : Reg) (vs1 vd : VReg)
  /-- VSRA_VI (R207). -/
  | vsraVI (p : PReg) (imm : BitVec 5) (vs1 vd : VReg)
  /-- VCMP_VV (R208). -/
  | vcmpVV (pd : PReg) (vs2 vs1 : VReg) (cc : Cond)
  /-- VCMP_VX (R208). -/
  | vcmpVX (pd : PReg) (rs2 : Reg) (vs1 : VReg) (cc : Cond)
  /-- VCMP_VI (R208). -/
  | vcmpVI (pd : PReg) (imm : BitVec 5) (vs1 : VReg) (cc : Cond)
  /-- VSEL (R209). -/
  | vsel (p : PReg) (vs2 vs1 vd : VReg)
  /-- VPERM (R209). -/
  | vperm (p : PReg) (vs2 vs1 vd : VReg)
  /-- VBCAST_X (R209). -/
  | vbcastX (p : PReg) (rs2 : Reg) (vd : VReg)
  /-- VBCAST_I (R209). -/
  | vbcastI (p : PReg) (imm : BitVec 5) (vd : VReg)
  /-- VMOVX (R209). -/
  | vmovx (rd : Reg) (vs1 : VReg) (k : Fin 4)
  /-- VREDADD (R210). -/
  | vredadd (p : PReg) (vs1 vd : VReg)
  /-- VREDMAX (R210). -/
  | vredmax (p : PReg) (vs1 vd : VReg)
  /-- VREDMIN (R210). -/
  | vredmin (p : PReg) (vs1 vd : VReg)
  /-- VEXP2 (R211). -/
  | vexp2 (p : PReg) (vs1 vd : VReg)
  /-- VLOG2 (R211). -/
  | vlog2 (p : PReg) (vs1 vd : VReg)
  /-- VEXP (R211). -/
  | vexp (p : PReg) (vs1 vd : VReg)
  /-- VLOG (R211). -/
  | vlog (p : PReg) (vs1 vd : VReg)
  /-- VSIN (R211). -/
  | vsin (p : PReg) (vs1 vd : VReg)
  /-- VCOS (R211). -/
  | vcos (p : PReg) (vs1 vd : VReg)
  /-- VRCP (R211). -/
  | vrcp (p : PReg) (vs1 vd : VReg)
  /-- VRSQRT (R211). -/
  | vrsqrt (p : PReg) (vs1 vd : VReg)
  /-- VSIG (R211). -/
  | vsig (p : PReg) (vs1 vd : VReg)
  /-- VTANH (R211). -/
  | vtanh (p : PReg) (vs1 vd : VReg)
  /-- VTOPK (R213). -/
  | vtopk (p : PReg) (vs2 vs1 vd : VReg)
  /-- VREFILL (R216). -/
  | vrefill (vs2 vs1 vd : VReg)
  /-- VLD (R217). -/
  | vld (p : PReg) (off : BitVec 4) (rs1 : Reg) (vd : VReg)
  /-- VST (R217). -/
  | vst (p : PReg) (off : BitVec 4) (rs1 : Reg) (vs : VReg)
  /-- VLDS (R217). -/
  | vlds (p : PReg) (off : BitVec 4) (rs1 : Reg) (vd : VReg)
  /-- VSTS (R217). -/
  | vsts (p : PReg) (off : BitVec 4) (rs1 : Reg) (vs : VReg)
  /-- VLDI (R217). -/
  | vldi (p : PReg) (vk : VReg) (rs1 : Reg) (vd : VReg)
  /-- MMA (R239). -/
  | mma (tile : Fin 4) (sx : Sx) (a b : OpaOperand) (kb kstart : Nat)
  /-- CELLP (R240). -/
  | cellp (tile : Fin 4) (a b : OpaOperand) (kb kstart : Nat)
  /-- ACZERO (R241). -/
  | aczero (tile : Fin 4) (rel : Bool) (fill : Fin 3)
  /-- ACDRAIN (R242). -/
  | acdrain (tile : Fin 4) (rel z : Bool) (fmt : DrainFmt) (base str : Nat)
  /-- ACLOAD (R243: `w36` is LFMT 000, else FP32). -/
  | acload (tile : Fin 4) (w36 : Bool) (base str : Nat)
  /-- ACCFG (R241: `rec` is TYPE 01). -/
  | accfg (tile : Fin 4) (z rec : Bool) (colm1 rowm1 : Fin 128) (mprog : W64)
  /-- ACSTAT (R244). -/
  | acstat (tile : Fin 4) (base : Nat)
  /-- ROT_CFG (R260). -/
  | rotCfg (rel z : Bool) (part : Fin 3) (act tsel : Nat) (nc : List Nat)
  /-- ROT_TRI_STREAM (R261). -/
  | rotTriStream (gbase : Nat)
  /-- ROT_TRI_AUTO (R262). -/
  | rotTriAuto (pbase dqc pmax : Nat)
  /-- ROT_TRI_LOAD (R261). -/
  | rotTriLoad (set : Fin 4) (ibase : Nat)
  /-- ROT_APPLY (R266). -/
  | rotApply (bf16 : Bool) (vfmt : Fin 3) (vbase ybase hbase : Nat)
  /-- ROT_SOLVE (R263). -/
  | rotSolve (set : Fin 4) (xbase : Nat)
  /-- ROT_READ_FP32 (R264). -/
  | rotReadFp32 (set : Fin 4) (obase ostr : Nat)
  /-- ROT_READ_RAW (R264). -/
  | rotReadRaw (set : Fin 4) (obase : Nat)
  /-- ROT_READ_STAT (R264). -/
  | rotReadStat (obase : Nat)
  /-- ROT_GAIN (R265). -/
  | rotGain (set : Fin 4) (mask : W32)
  /-- ROT_ANG_TO_SIG32 (R267). -/
  | rotAngToSig32 (sbase dbase n : Nat)
  /-- ROT_ANG_TO_BAM32 (R267). -/
  | rotAngToBam32 (sbase dbase n : Nat)
  /-- FLOAD (R291). -/
  | fload (slot : Fin 4) (fbase : Nat)
  /-- FSEL (R292). -/
  | fsel (slot : Fin 4) (maxsw : Nat)
  /-- FARG (R293). -/
  | farg (slot : Fin 4) (abase n : Nat)
  /-- FSEED (R294). -/
  | fseed (gens : Fin 4) (seed0 seed1 : W64)
  /-- FDRAIN (R295). -/
  | fdrain (slot : Fin 4) (rel : Bool) (dbase : Nat)
  /-- FSTAT (R296). -/
  | fstat (clr : Bool) (sbase : Nat)
  /-- CP_GET (R302: `rows` is ROWSM1 + 1). -/
  | cpGet (rows sbase : Nat) (ch : Option (Fin 16)) (dbase rlen sstr dstr : Nat)
  /-- CP_PUT (R302). -/
  | cpPut (rcv : Bool) (rows sbase dbase rlen sstr dstr : Nat)
  /-- CP_MC (R303). -/
  | cpMc (sbase mbase nt tlen tstr : Nat)
  /-- CP_WM_ARM (R306). -/
  | cpWmArm (ch : Fin 16) (base len : Nat)
  /-- CP_WM_DISARM (R306). -/
  | cpWmDisarm (ch : Fin 16)
  /-- CP_WM_READ (R306). -/
  | cpWmRead (ch : Fin 16) (sbase : Nat)
  /-- CP_SHD (R305). -/
  | cpShd (pub : Bool) (sbase g len off etgt : Nat)
  /-- G_ROWS (R314). -/
  | gRows (pf zf : Bool) (desc res : Nat)
  /-- G_EMB (R315). -/
  | gEmb (q4 bf16 zf : Bool) (desc res : Nat)
  /-- G_SCAT_FADD (R316). -/
  | gScatFadd (desc res : Nat)
  /-- G_SCAT_IADD (R316). -/
  | gScatIadd (desc res : Nat)
  /-- G_SCAT_OVERWRITE (R316). -/
  | gScatOverwrite (desc res : Nat)
  /-- G_KERN (R317). -/
  | gKern (slot : Fin 4) (base nw : Nat)
  /-- NE_SEND (R333). -/
  | neSend (f : NeFlags) (sbase : Nat) (dst : NeDst) (rq len : Nat) (imm : W32)
  /-- NE_POST (R333). -/
  | nePost (bbase blen crec rq : Nat)
  /-- NE_WRITE (R333). -/
  | neWrite (f : NeFlags) (sbase : Nat) (dst : NeDst) (rctr : Option Nat) (len daddr : Nat)
  /-- NE_READ (R333). -/
  | neRead (f : NeFlags) (lbase dmod len daddr : Nat)
  /-- NE_XSEND (R335). -/
  | neXsend (f : NeFlags) (sbase xdesc len : Nat)
  /-- RESERVED_ENCODING (R35). -/
  | reservedEncoding (w : W32)
  /-- ECALL (R342). -/
  | ecall
  /-- EBREAK (R87). -/
  | ebreak
  /-- WFI (R87). -/
  | wfi
  /-- ENDH (R171). -/
  | endh
  /-- MASKU (R172). -/
  | masku
  /-- UNMASKU (R172). -/
  | unmasku
  /-- YIELD (R173). -/
  | yield
  /-- XFENCE (R155). -/
  | xfence
  /-- TRET (R353). -/
  | tret
  /-- PE_PASS (R275: the PE of the FR of cluster `ck`). -/
  | pePass (ck pe : Nat)
  /-- PE_ADD (R275: the PE of the FR of cluster `ck`). -/
  | peAdd (ck pe : Nat)
  /-- PE_SUB (R275: the PE of the FR of cluster `ck`). -/
  | peSub (ck pe : Nat)
  /-- PE_MUL (R275: the PE of the FR of cluster `ck`). -/
  | peMul (ck pe : Nat)
  /-- PE_FMA (R275: the PE of the FR of cluster `ck`). -/
  | peFma (ck pe : Nat)
  /-- PE_FMS (R275: the PE of the FR of cluster `ck`). -/
  | peFms (ck pe : Nat)
  /-- PE_MAX (R275: the PE of the FR of cluster `ck`). -/
  | peMax (ck pe : Nat)
  /-- PE_MIN (R275: the PE of the FR of cluster `ck`). -/
  | peMin (ck pe : Nat)
  /-- PE_ABS (R275: the PE of the FR of cluster `ck`). -/
  | peAbs (ck pe : Nat)
  /-- PE_NEG (R275: the PE of the FR of cluster `ck`). -/
  | peNeg (ck pe : Nat)
  /-- PE_SCALE (R275: the PE of the FR of cluster `ck`). -/
  | peScale (ck pe : Nat)
  /-- PE_RINT (R275: the PE of the FR of cluster `ck`). -/
  | peRint (ck pe : Nat)
  /-- PE_CMP (R275: the PE of the FR of cluster `ck`). -/
  | peCmp (ck pe : Nat)
  /-- PE_SEL (R275: the PE of the FR of cluster `ck`). -/
  | peSel (ck pe : Nat)
  /-- PE_CVT (R275: the PE of the FR of cluster `ck`). -/
  | peCvt (ck pe : Nat)
  /-- PE_STEER (R275: the PE of the FR of cluster `ck`). -/
  | peSteer (ck pe : Nat)
  /-- PE_EXP2 (R275: the PE of the FR of cluster `ck`). -/
  | peExp2 (ck pe : Nat)
  /-- PE_EXP (R275: the PE of the FR of cluster `ck`). -/
  | peExp (ck pe : Nat)
  /-- PE_LOG2 (R275: the PE of the FR of cluster `ck`). -/
  | peLog2 (ck pe : Nat)
  /-- PE_LOG (R275: the PE of the FR of cluster `ck`). -/
  | peLog (ck pe : Nat)
  /-- PE_RCP (R275: the PE of the FR of cluster `ck`). -/
  | peRcp (ck pe : Nat)
  /-- PE_RSQRT (R275: the PE of the FR of cluster `ck`). -/
  | peRsqrt (ck pe : Nat)
  /-- PE_SKIP (R275: the PE of the FR of cluster `ck`). -/
  | peSkip (ck pe : Nat)
  /-- PE_DIV (R275: the PE of the FR of cluster `ck`). -/
  | peDiv (ck pe : Nat)
  /-- AGU_LOAD_TOKEN (R278). -/
  | aguLoadToken (ck a : Nat)
  /-- AGU_STORE_TOKEN (R278). -/
  | aguStoreToken (ck a : Nat)
  /-- STREAM_CONNECT (R280). -/
  | streamConnect (ck a : Nat)
  /-- STREAM_SEND_TOKEN (R280). -/
  | streamSendToken (ck a : Nat)
  /-- STREAM_TOKEN_ARRIVAL (R280: entry `k` of the units in flight). -/
  | streamTokenArrival (k : Nat)
  /-- STREAM_CREDIT_ARRIVAL (R280). -/
  | streamCreditArrival (k : Nat)
  /-- GENERATOR_EMIT (R281). -/
  | generatorEmit (ck g : Nat)
  /-- FOLIO_TRIGGER (R286). -/
  | folioTrigger (ck : Nat)
  /-- QUIESCENCE_TIMEOUT (R286). -/
  | quiescenceTimeout (ck : Nat)
  /-- FOLIO_COMPLETION (R286). -/
  | folioCompletion (ck : Nat)
  /-- PFU_INDEX_LINE (R308). -/
  | pfuIndexLine (ck unit : Nat)
  /-- FILTER_PARTIAL_EVICT (R313). -/
  | filterPartialEvict (ck unit : Nat)
  /-- RESEND_STORE_COPY (R330). -/
  | resendStoreCopy (die k : Nat)
  /-- NE_PACKET_ARRIVAL (R329). -/
  | nePacketArrival (die : Nat) (p : Packet)
  /-- NE_ACK_ARRIVAL (R329, R383). -/
  | neAckArrival (die : Nat) (a : Ack)
  /-- NE_RETRANSMIT_TIMER (R329). -/
  | neRetransmitTimer (die k pkt : Nat)
  /-- NE_RECEIVE_TIMEOUT (R329). -/
  | neReceiveTimeout (die k : Nat)
  /-- NE_NOT_READY_RETRY (R333). -/
  | neNotReadyRetry (die k : Nat)
  /-- NE_MATCH_TIMEOUT (R332). -/
  | neMatchTimeout (die k : Nat)
  /-- NE_READ_REQUEST_ARRIVAL (R333). -/
  | neReadRequestArrival (die : Nat) (r : ReadReq)
  /-- PORT_STATE_CHANGE (R328). -/
  | portStateChange (port : Fin 18) (up : Bool)
  /-- MESSAGE_ARRIVAL (R187). -/
  | messageArrival (k : Nat)
  /-- CARAFE_REFILL (R188). -/
  | carafeRefill (ck job : Nat) (urg : Bool)
  /-- DISPATCH (R161). -/
  | dispatch (ck : Nat)
  /-- RESUME (R348). -/
  | resume (ck : Nat)
  /-- LONG_WAIT_RELEASE (R163). -/
  | longWaitRelease (bk : Nat)
  /-- REPLY_ARRIVAL (R184). -/
  | replyArrival (k : Nat)
  /-- STEAL_REQUEST_ARRIVAL (R177). -/
  | stealRequestArrival (k : Nat)
  /-- STEAL_ANSWER_ARRIVAL (R177). -/
  | stealAnswerArrival (k : Nat)
  /-- WAITC_WAKE (R174). -/
  | waitcWake (h : Holder)
  /-- SLEEP_EXPIRY (R175). -/
  | sleepExpiry (h : Holder)
  /-- PUBWAIT_WAKE (R157). -/
  | pubwaitWake (h : Holder)
  /-- FENCE_COMPLETE (R145). -/
  | fenceComplete (h : Holder)
  /-- LOAD_RETURN (R121). -/
  | loadReturn (h : LoadRef)
  /-- PREEMPTION_REQUEST (R349). -/
  | preemptionRequest (bk : Nat) (reason : PreReason)
  /-- MASKOVER_TIMEOUT (R164). -/
  | maskoverTimeout (bk : Nat)
  /-- COUNTER_UPDATE (R193). -/
  | counterUpdate (k : Nat)
  /-- POSTED_ATOMIC_PERFORM (R130). -/
  | postedAtomicPerform (k : Nat)
  /-- CLUSTER_PARTIAL_EVICT (R131). -/
  | clusterPartialEvict (line ck : Nat)
  /-- DIE_PARTIAL_EVICT (R131). -/
  | diePartialEvict (line die : Nat)
  /-- ZF_RESOLUTION (R115). -/
  | zfResolution (die k : Nat)
  /-- FAULT_RESOLVED (R115). -/
  | faultResolved (k : Nat)
  /-- PAGE_MIGRATION (R362). -/
  | pageMigration (u : W32) (job va : Nat)
  /-- RETENTION_ENTRY (R126). -/
  | retentionEntry (ck b : Nat)
  /-- RETENTION_EXIT (R126). -/
  | retentionExit (ck b : Nat)
  /-- LEAF_TURN (R150). -/
  | leafTurn (job g : Nat)
  /-- TTS_RECORD_ARRIVAL (R233). -/
  | ttsRecordArrival (k : Nat)
  /-- TTS_RECORD_ISSUE (R234). -/
  | ttsRecordIssue (ck : Nat)
  /-- TTS_REFILL (R233). -/
  | ttsRefill (ck : Nat)
  /-- GROUP_CONTRIBUTION_ARRIVAL (R324). -/
  | groupContributionArrival (k : Nat)
  /-- GROUP_PARTIAL_ARRIVAL (R323). -/
  | groupPartialArrival (k : Nat)
  /-- GROUP_RESULT_ARRIVAL (R323). -/
  | groupResultArrival (k : Nat)
  /-- PERIODIC_LEASE_DUE (R356). -/
  | periodicLeaseDue (u : W32)
  /-- LEASE_START (R358). -/
  | leaseStart (u : W32)
  /-- CUPPING_END (R358). -/
  | cuppingEnd (u : W32) (pass : Bool)
  /-- RETIRE_ANSWER_TIMEOUT (R361). -/
  | retireAnswerTimeout (u : W32)
  /-- SCORE_HALVING (R360). -/
  | scoreHalving (die : Nat)
  /-- GANG_RESERVATION (R167). -/
  | gangReservation (job : Nat)
  /-- GANGSTALL (R167). -/
  | gangstall (job : Nat)
  /-- GANG_PLACEMENT (R167). -/
  | gangPlacement (job : Nat)
  /-- JOB_MOVE_BACK (R167). -/
  | jobMoveBack (job ck : Nat)
  /-- START_MARKER (R152). -/
  | startMarker (k : Nat)
  /-- CONFIGURATION_COMPLETE_WAVE (R376). -/
  | configurationCompleteWave (job : Nat)
  /-- REMOVE_COMPLETE (R378). -/
  | removeComplete (job : Nat)
  /-- WQ_ENTRY_DELIVERY (R191). -/
  | wqEntryDelivery (job : Nat)
  /-- HOST_RMA_WRITE (R370). -/
  | hostRmaWrite (addr : W64) (data : List Byte)
  /-- HOST_RMA_READ (R370). -/
  | hostRmaRead (addr : W64) (n : Nat)
  /-- DOORBELL (R374). -/
  | doorbell (job : Nat) (tail : W64)
  /-- CONTROL_REGISTER_WRITE (R372). -/
  | controlRegisterWrite (off : Nat) (v : W64)
  /-- INSTALL (R376: the host command that HCMD holds). -/
  | install
  /-- REMOVE (R378: the host command that HCMD holds). -/
  | remove
  /-- INVAL (R113: the host command that HCMD holds). -/
  | inval
  /-- FAULT (R375: the host command that HCMD holds). -/
  | faultCmd
  /-- RETANS (R361: the host command that HCMD holds). -/
  | retans
  /-- RETIRE (R361: the host command that HCMD holds). -/
  | retire
  /-- LEASE (R375: the host command that HCMD holds). -/
  | lease
  /-- REDLV (R344: the host command that HCMD holds). -/
  | redlv
  /-- NERTX (R329: the host command that HCMD holds). -/
  | nertx
  /-- DEBUG (R375: the host command that HCMD holds). -/
  | debug
  /-- GRPDIS (R325: the host command that HCMD holds). -/
  | grpdis
  /-- GRPSET (R321: the host command that HCMD holds). -/
  | grpset
  /-- CARRES (R366: the host command that HCMD holds). -/
  | carres
  /-- MODULE_RESET (R380). -/
  | moduleReset (scrub : Bool)
  /-- TELEMETRY (R379). -/
  | telemetry
  /-- FIRMWARE_UPDATE (R379). -/
  | firmwareUpdate (img : FwImage)
  /-- LEASE_POLICY (R356). -/
  | leasePolicy (kind period : Nat)
  /-- RETIREMENT_RECORD_READ (R379). -/
  | retirementRecordRead (n : Nat)
  /-- RETIREMENT_RECORD_CLEAR (R379: whether each owner signature verifies). -/
  | retirementRecordClear (n : Nat) (rsaOk slhOk : Bool)
  /-- GET_VERSION (R381). -/
  | getVersion
  /-- GET_CAPABILITIES (R381). -/
  | getCapabilities
  /-- NEGOTIATE_ALGORITHMS (R381). -/
  | negotiateAlgorithms
  /-- GET_DIGESTS (R381). -/
  | getDigests
  /-- GET_CERTIFICATE (R381). -/
  | getCertificate (slot off len : Nat)
  /-- CHALLENGE (R381). -/
  | challenge (nonce : List Byte)
  /-- GET_MEASUREMENTS (R381). -/
  | getMeasurements (index : Nat) (nonce : List Byte)
  /-- THERMAL_TRIP (R380). -/
  | thermalTrip (die : Nat)
  /-- JUNCTION_LIMIT (R380). -/
  | junctionLimit (u : W32)
  /-- CLOCK_GATING (R24, R101). -/
  | clockGating (ck : Nat) (gated : Bool)
  /-- KARMOS_POWER_ON (R25). -/
  | karmosPowerOn
  deriving DecidableEq, Repr, Inhabited

/-- A check mismatch of nature (R22): one that re-firing corrects, or one that it does not, in the lane or cell given. -/
inductive Mishap where
  | none
  | fixed (lane : Nat)
  | bad (lane : Nat)
  deriving DecidableEq, Repr, Inhabited

/-- What moves next. A bank issues its next word; a latency or an occupied unit holds a bank's next word, or does so no longer; an engine starts or continues a command; an event of the table comes about;
cycles pass; or nature acts: a mismatch is laid before the next checked operation, an error strikes a granule, a packet in
flight is lost. -/
inductive Move where
  | issue (bk : Nat)
  | hold (bk : Nat)
  | ready (bk : Nat)
  | engine (ck cls unit : Nat)
  | event (i : Instr)
  | elapse (cycles : Nat)
  | mishap (m : Mishap)
  | eccBad (loc : Nat)
  | eccFixed (u : W32)
  | lose (k : Nat)
  deriving DecidableEq, Repr, Inhabited

end Sys2Proof
end

