-- ==== Sys2Proof/WellFormed.lean ====
section
/-! DEFINITION. Which instructions are well formed: those whose operands stand in the fields that the encodings of R26 to R34 and the
operand tables of R222 to R335 give them. Events are no words: what they need stands in their meanings. -/

namespace Sys2Proof

/-- A number fits a field of `k` bits. -/
def fits (k n : Nat) : Bool := decide (n < 2 ^ k)

/-- An operand of MMA or CELLP fits its fields (R222). -/
def OpaOperand.wf (o : OpaOperand) : Bool := fits 56 o.base && fits 20 o.str

/-- CMDF of an NE command: PSIZE is one of 512, 1024, 2048 and 4096 (R331). -/
def NeFlags.wf (f : NeFlags) : Bool := f.psize = 512 || f.psize = 1024 || f.psize = 2048 || f.psize = 4096

/-- A destination fits its fields (R333). -/
def NeDst.wf (d : NeDst) : Bool := fits 16 d.mod && fits 2 d.die && fits 6 d.cl

/-- The well-formed instructions. -/
def Instr.wf : Instr → Bool
  | .reply _ vs => decide (vs ≠ 15)
  | .sendv _ _ vs => decide (vs ≠ 15)
  | .shape vd _ => decide (vd ≠ 15)
  | .ldg _ vs _ => decide (vs ≠ 15)
  | .stg _ vs _ => decide (vs ≠ 15)
  | .engq _ vs => decide (vs ≠ 15)
  | .grpst _ vs => decide (vs ≠ 15)
  | .grpld vd _ => decide (vd ≠ 15)
  | .vcvt dst src _ _ vd => decide (dst ≠ src) && decide (vd ≠ 15)
  | .vqsx _ _ _ vd => decide (vd ≠ 15)
  | .vdqsx _ _ _ vd => decide (vd ≠ 15)
  | .vqrow _ _ _ vd => decide (vd ≠ 15)
  | .vdqrow _ _ _ vd => decide (vd ≠ 15)
  | .vcvtsr dst src _ _ vd => decide (dst ≠ src) && decide (vd ≠ 15)
  | .vaddVV _ _ _ vd => decide (vd ≠ 15)
  | .vaddVX _ _ _ vd => decide (vd ≠ 15)
  | .vaddVI _ _ _ vd => decide (vd ≠ 15)
  | .vsubVV _ _ _ vd => decide (vd ≠ 15)
  | .vsubVX _ _ _ vd => decide (vd ≠ 15)
  | .vsubVI _ _ _ vd => decide (vd ≠ 15)
  | .vmulVV _ _ _ vd => decide (vd ≠ 15)
  | .vmulVX _ _ _ vd => decide (vd ≠ 15)
  | .vmulVI _ _ _ vd => decide (vd ≠ 15)
  | .vfma _ _ _ vd => decide (vd ≠ 15)
  | .vfms _ _ _ vd => decide (vd ≠ 15)
  | .vminVV _ _ _ vd => decide (vd ≠ 15)
  | .vminVX _ _ _ vd => decide (vd ≠ 15)
  | .vminVI _ _ _ vd => decide (vd ≠ 15)
  | .vmaxVV _ _ _ vd => decide (vd ≠ 15)
  | .vmaxVX _ _ _ vd => decide (vd ≠ 15)
  | .vmaxVI _ _ _ vd => decide (vd ≠ 15)
  | .vabs _ _ vd => decide (vd ≠ 15)
  | .vneg _ _ vd => decide (vd ≠ 15)
  | .vandVV _ _ _ vd => decide (vd ≠ 15)
  | .vandVX _ _ _ vd => decide (vd ≠ 15)
  | .vandVI _ _ _ vd => decide (vd ≠ 15)
  | .vorVV _ _ _ vd => decide (vd ≠ 15)
  | .vorVX _ _ _ vd => decide (vd ≠ 15)
  | .vorVI _ _ _ vd => decide (vd ≠ 15)
  | .vxorVV _ _ _ vd => decide (vd ≠ 15)
  | .vxorVX _ _ _ vd => decide (vd ≠ 15)
  | .vxorVI _ _ _ vd => decide (vd ≠ 15)
  | .vshlVV _ _ _ vd => decide (vd ≠ 15)
  | .vshlVX _ _ _ vd => decide (vd ≠ 15)
  | .vshlVI _ _ _ vd => decide (vd ≠ 15)
  | .vshrVV _ _ _ vd => decide (vd ≠ 15)
  | .vshrVX _ _ _ vd => decide (vd ≠ 15)
  | .vshrVI _ _ _ vd => decide (vd ≠ 15)
  | .vsraVV _ _ _ vd => decide (vd ≠ 15)
  | .vsraVX _ _ _ vd => decide (vd ≠ 15)
  | .vsraVI _ _ _ vd => decide (vd ≠ 15)
  | .vsel _ _ _ vd => decide (vd ≠ 15)
  | .vperm _ _ _ vd => decide (vd ≠ 15)
  | .vbcastX _ _ vd => decide (vd ≠ 15)
  | .vbcastI _ _ vd => decide (vd ≠ 15)
  | .vredadd _ _ vd => decide (vd ≠ 15)
  | .vredmax _ _ vd => decide (vd ≠ 15)
  | .vredmin _ _ vd => decide (vd ≠ 15)
  | .vexp2 _ _ vd => decide (vd ≠ 15)
  | .vlog2 _ _ vd => decide (vd ≠ 15)
  | .vexp _ _ vd => decide (vd ≠ 15)
  | .vlog _ _ vd => decide (vd ≠ 15)
  | .vsin _ _ vd => decide (vd ≠ 15)
  | .vcos _ _ vd => decide (vd ≠ 15)
  | .vrcp _ _ vd => decide (vd ≠ 15)
  | .vrsqrt _ _ vd => decide (vd ≠ 15)
  | .vsig _ _ vd => decide (vd ≠ 15)
  | .vtanh _ _ vd => decide (vd ≠ 15)
  | .vtopk _ _ _ vd => decide (vd ≠ 15)
  | .vrefill _ _ vd => decide (vd ≠ 15)
  | .vld _ _ _ vd => decide (vd ≠ 15)
  | .vlds _ _ _ vd => decide (vd ≠ 15)
  | .vldi _ _ _ vd => decide (vd ≠ 15)
  | .mma _ _ a b kb kstart => a.wf && b.wf && fits 12 kb && fits 12 kstart
  | .cellp _ a b kb kstart => a.wf && b.wf && decide (a.fmt ≠ .packed) && decide (b.fmt ≠ .packed) && fits 12 kb && fits 12 kstart
  | .acdrain _ _ _ _ base str => fits 56 base && fits 20 str
  | .acload _ _ base str => fits 56 base && fits 20 str
  | .acstat _ base => fits 56 base
  | .rotCfg _ _ _ act tsel nc => fits 4 act && fits 8 tsel && decide (nc.length = 4) && nc.all (fits 6)
  | .rotTriStream b => fits 56 b
  | .rotTriAuto b q m => fits 56 b && fits 4 q && fits 32 m
  | .rotTriLoad _ b => fits 56 b
  | .rotApply _ _ v y h => fits 56 v && fits 56 y && fits 56 h
  | .rotSolve _ b => fits 56 b
  | .rotReadFp32 _ b r => fits 56 b && fits 20 r
  | .rotReadRaw _ b => fits 56 b
  | .rotReadStat b => fits 56 b
  | .rotAngToSig32 a b n => fits 56 a && fits 56 b && fits 24 n
  | .rotAngToBam32 a b n => fits 56 a && fits 56 b && fits 24 n
  | .fload _ b => fits 56 b
  | .fsel _ m => fits 16 m
  | .farg _ b n => fits 56 b && fits 11 n
  | .fdrain _ _ b => fits 56 b
  | .fstat _ b => fits 56 b
  | .cpGet rows a _ b l r t => decide (1 ≤ rows) && fits 8 (rows - 1) && fits 56 a && fits 56 b && fits 20 l && fits 20 r && fits 20 t
  | .cpPut _ rows a b l r t => decide (1 ≤ rows) && fits 8 (rows - 1) && fits 56 a && fits 56 b && fits 20 l && fits 20 r && fits 20 t
  | .cpMc a b n l t => fits 56 a && fits 56 b && fits 24 n && fits 20 l && fits 20 t
  | .cpWmArm _ b l => fits 56 b && fits 21 l
  | .cpWmRead _ b => fits 56 b
  | .cpShd pub a g l o e => fits 56 a && fits 8 g && fits 24 l && fits 32 o && fits 48 e && (pub || decide (e = 0))
  | .gRows _ _ d r => fits 64 d && fits 64 r
  | .gEmb _ _ _ d r => fits 64 d && fits 64 r
  | .gScatFadd d r => fits 64 d && fits 64 r
  | .gScatIadd d r => fits 64 d && fits 64 r
  | .gScatOverwrite d r => fits 64 d && fits 64 r
  | .gKern _ b n => fits 64 b && fits 7 n
  | .neSend f a d q l _ => f.wf && fits 56 a && fits 8 q && fits 32 l && d.wf
  | .nePost a l c q => fits 56 a && fits 32 l && fits 56 c && fits 8 q
  | .neWrite f a d c l e => f.wf && fits 56 a && fits 26 l && fits 56 e && d.wf && c.all (fits 12)
  | .neRead f a d l e => f.wf && fits 56 a && fits 16 d && fits 26 l && fits 56 e
  | .neXsend f a x l => f.wf && fits 56 a && fits 56 x && fits 17 l
  | .lui .. | .auipc .. | .jal .. | .jalr .. | .beq .. | .bne .. | .blt .. | .bge .. | .bltu .. | .bgeu .. | .lb ..
  | .lh .. | .lw .. | .ld .. | .lbu .. | .lhu .. | .lwu .. | .sb .. | .sh .. | .sw .. | .sd .. | .addi .. | .slti ..
  | .sltiu .. | .xori .. | .ori .. | .andi .. | .slli .. | .srli .. | .srai .. | .add .. | .sub .. | .sll .. | .slt ..
  | .sltu .. | .xor .. | .srl .. | .sra .. | .or_ .. | .and_ .. | .mul .. | .mulh .. | .mulhsu .. | .mulhu .. | .div ..
  | .divu .. | .rem .. | .remu .. | .addiw .. | .slliw .. | .srliw .. | .sraiw .. | .addw .. | .subw .. | .sllw ..
  | .srlw .. | .sraw .. | .mulw .. | .divw .. | .divuw .. | .remw .. | .remuw .. | .fence .. | .ecall | .ebreak | .wfi
  | .csrrw .. | .csrrs .. | .csrrc .. | .csrrwi .. | .csrrsi .. | .csrrci .. | .aaddW .. | .aaddD .. | .aswapW ..
  | .aswapD .. | .axorW .. | .axorD .. | .acasW .. | .acasD .. | .afaddW .. | .aorW .. | .aorD .. | .aandW ..
  | .aandD .. | .aminW .. | .aminD .. | .amaxW .. | .amaxD .. | .aminuW .. | .aminuD .. | .amaxuW .. | .amaxuD ..
  | .endh | .aborth .. | .masku | .unmasku | .yield | .waitc .. | .sleep .. | .dqpush .. | .dqpop .. | .dqsplit ..
  | .dqsteal .. | .dqlen .. | .send .. | .sendu .. | .cntadd .. | .cntset .. | .cntarm .. | .cntrd .. | .lda ..
  | .stl .. | .fenceS .. | .xfence | .publish .. | .pubwait .. | .cuadd .. | .cuaddi .. | .tpost .. | .engst ..
  | .trap .. | .tret | .chkerr .. | .ctxsv .. | .ctxld .. | .leaseq .. | .capack .. | .suspr .. | .retrd ..
  | .vcmpVV .. | .vcmpVX .. | .vcmpVI .. | .vmovx .. | .vst .. | .vsts .. | .aczero .. | .accfg .. | .rotGain ..
  | .fseed .. | .pePass .. | .peAdd .. | .peSub .. | .peMul .. | .peFma .. | .peFms .. | .peMax .. | .peMin ..
  | .peAbs .. | .peNeg .. | .peScale .. | .peRint .. | .peCmp .. | .peSel .. | .peCvt .. | .peSteer .. | .peExp2 ..
  | .peExp .. | .peLog2 .. | .peLog .. | .peRcp .. | .peRsqrt .. | .peSkip .. | .peDiv .. | .aguLoadToken ..
  | .aguStoreToken .. | .streamConnect .. | .streamSendToken .. | .streamTokenArrival .. | .streamCreditArrival ..
  | .generatorEmit .. | .folioTrigger .. | .quiescenceTimeout .. | .folioCompletion .. | .cpWmDisarm ..
  | .pfuIndexLine .. | .filterPartialEvict .. | .resendStoreCopy .. | .nePacketArrival .. | .neAckArrival ..
  | .neRetransmitTimer .. | .neReceiveTimeout .. | .neNotReadyRetry .. | .neMatchTimeout .. | .neReadRequestArrival ..
  | .portStateChange .. | .messageArrival .. | .carafeRefill .. | .dispatch .. | .resume .. | .longWaitRelease ..
  | .replyArrival .. | .stealRequestArrival .. | .stealAnswerArrival .. | .waitcWake .. | .sleepExpiry ..
  | .pubwaitWake .. | .fenceComplete .. | .loadReturn .. | .preemptionRequest .. | .maskoverTimeout ..
  | .counterUpdate .. | .postedAtomicPerform .. | .clusterPartialEvict .. | .diePartialEvict .. | .zfResolution ..
  | .faultResolved .. | .pageMigration .. | .retentionEntry .. | .retentionExit .. | .leafTurn ..
  | .ttsRecordArrival .. | .ttsRecordIssue .. | .ttsRefill .. | .groupContributionArrival .. | .groupPartialArrival ..
  | .groupResultArrival .. | .periodicLeaseDue .. | .leaseStart .. | .cuppingEnd .. | .retireAnswerTimeout ..
  | .scoreHalving .. | .gangReservation .. | .gangstall .. | .gangPlacement .. | .jobMoveBack .. | .startMarker ..
  | .configurationCompleteWave .. | .removeComplete .. | .wqEntryDelivery .. | .hostRmaWrite .. | .hostRmaRead ..
  | .doorbell .. | .controlRegisterWrite .. | .install | .remove | .inval | .faultCmd | .retans | .retire | .lease
  | .redlv | .nertx | .debug | .grpdis | .grpset | .carres | .moduleReset .. | .telemetry | .firmwareUpdate ..
  | .leasePolicy .. | .retirementRecordRead .. | .retirementRecordClear .. | .getVersion | .getCapabilities
  | .negotiateAlgorithms | .getDigests | .getCertificate .. | .challenge .. | .getMeasurements .. | .thermalTrip ..
  | .junctionLimit .. | .reservedEncoding .. | .clockGating .. | .karmosPowerOn => true

end Sys2Proof
end

