-- ==== Sys2Proof/Decode.lean ====
section
/-! DEFINITION. Decoding and encoding of handler words (R26 to R35): the fields of the base, atomic, conversion and vector layouts, the
opcode map, and the words of well-formed instructions. `decode` answers none for every word that the map gives to no instruction. -/

namespace Sys2Proof

/-- Bits [hi:lo] of a number. -/
def bits (w hi lo : Nat) : Nat := w / 2 ^ lo % 2 ^ (hi + 1 - lo)

/-- The fields of the R-type layout (R10, R26). -/
structure RWord where
  op : Nat
  rd : Nat
  f3 : Nat
  rs1 : Nat
  rs2 : Nat
  f7 : Nat
  deriving DecidableEq, Repr

/-- The fields of a word in the R-type layout. -/
def RWord.ofNat (w : Nat) : RWord := ⟨bits w 6 0, bits w 11 7, bits w 14 12, bits w 19 15, bits w 24 20, bits w 31 25⟩

/-- The word that has these fields. -/
def RWord.toNat (r : RWord) : Nat :=
  r.op + r.rd * 2 ^ 7 + r.f3 * 2 ^ 12 + r.rs1 * 2 ^ 15 + r.rs2 * 2 ^ 20 + r.f7 * 2 ^ 25

/-- The fields of the vector layout (R26). -/
structure VWord where
  xh : Nat
  vd : Nat
  form : Nat
  vs1 : Nat
  vs2 : Nat
  pr : Nat
  f6 : Nat
  deriving DecidableEq, Repr

/-- The vector fields of a word. -/
def VWord.ofNat (w : Nat) : VWord := ⟨bits w 7 7, bits w 11 8, bits w 14 12, bits w 18 15, bits w 22 19, bits w 25 23, bits w 31 26⟩

/-- The vector word that has these fields. -/
def VWord.toNat (v : VWord) : Nat :=
  0x57 + v.xh * 2 ^ 7 + v.vd * 2 ^ 8 + v.form * 2 ^ 12 + v.vs1 * 2 ^ 15 + v.vs2 * 2 ^ 19 + v.pr * 2 ^ 23 + v.f6 * 2 ^ 26

/-- A scalar register field. -/
def reg (n : Nat) : Reg := Fin.ofNat 32 n
/-- A vector register field. -/
def vreg (n : Nat) : VReg := Fin.ofNat 16 n
/-- A predicate field. -/
def preg (n : Nat) : PReg := Fin.ofNat 8 n

/-- A term where a condition holds. -/
def given {α : Type} (c : Bool) (a : α) : Option α := if c then some a else none

/-- A vector register field of a custom class or of the conversion class that may name 0 to `top`. -/
def upTo (top n : Nat) (k : VReg → Instr) : Option Instr := given (decide (n ≤ top)) (k (vreg n))

/-- The scope codes of R141. -/
def scopeOf : Nat → Option Scope
  | 0 => some .act | 1 => some .core | 2 => some .cl | 3 => some .die | 4 => some .mod | 5 => some .dom | _ => none
/-- The code of a scope. -/
def Scope.code : Scope → Nat
  | .act => 0 | .core => 1 | .cl => 2 | .die => 3 | .mod => 4 | .dom => 5

/-- The width codes of LDA and STL (R153). -/
def memWOf : Nat → MemW
  | 0 => .b | 1 => .h | 2 => .w | _ => .d
/-- The code of a width: its bytes are two to this power. -/
def MemW.code : MemW → Nat
  | .b => 0 | .h => 1 | .w => 2 | .d => 3

/-- The format codes of R32. -/
def fmtOf : Nat → Fmt
  | 0 => .fp32 | 1 => .bf16 | 2 => .fp16 | 3 => .e4m3 | 4 => .e5m2 | 5 => .int8 | 6 => .int16 | _ => .int32
/-- The code of a format. -/
def Fmt.code : Fmt → Nat
  | .fp32 => 0 | .bf16 => 1 | .fp16 => 2 | .e4m3 => 3 | .e5m2 => 4 | .int8 => 5 | .int16 => 6 | .int32 => 7

/-- The block types of VQSX and VDQSX (R32). -/
def sxOf : Nat → Option Sx
  | 0 => some .sx2 | 1 => some .sx4 | 2 => some .sx7 | _ => none
/-- The code of a block type. -/
def Sx.code : Sx → Nat
  | .sx2 => 0 | .sx4 => 1 | .sx7 => 2

/-- The rounding codes of R32. -/
def rcodeOf : Nat → Option RCode
  | 0 => some .rndm | 1 => some .rne | 2 => some .rtz | 3 => some .rdn | 4 => some .rup | 5 => some .rna | _ => none
/-- The code of a rounding mode. -/
def RCode.code : RCode → Nat
  | .rndm => 0 | .rne => 1 | .rtz => 2 | .rdn => 3 | .rup => 4 | .rna => 5

/-- The VCMP condition codes of R33. -/
def condOf : Nat → Option Cond
  | 0 => some .eq | 1 => some .ne | 2 => some .lt | 3 => some .le | 4 => some .gt | 5 => some .ge | 6 => some .ltu | 7 => some .leu
  | 8 => some .gtu | 9 => some .geu | 10 => some .unord | 11 => some .ord | _ => none
/-- The code of a condition. -/
def Cond.code : Cond → Nat
  | .eq => 0 | .ne => 1 | .lt => 2 | .le => 3 | .gt => 4 | .ge => 5 | .ltu => 6 | .leu => 7 | .gtu => 8 | .geu => 9 | .unord => 10 | .ord => 11

/-! ## Immediates of the base layouts (R26) -/

/-- The I immediate. -/
def RWord.immI (r : RWord) : BitVec 12 := BitVec.ofNat 12 (r.f7 * 32 + r.rs2)
/-- The S immediate. -/
def RWord.immS (r : RWord) : BitVec 12 := BitVec.ofNat 12 (r.f7 * 32 + r.rd)
/-- Bits [12:1] of the B immediate. -/
def RWord.immB (r : RWord) : BitVec 12 :=
  BitVec.ofNat 12 (r.f7 / 64 * 2 ^ 11 + r.rd % 2 * 2 ^ 10 + r.f7 % 64 * 2 ^ 4 + r.rd / 2)
/-- Bits [31:12] of the word, the U immediate. -/
def RWord.top20 (r : RWord) : Nat := r.f7 * 2 ^ 13 + r.rs2 * 2 ^ 8 + r.rs1 * 2 ^ 3 + r.f3
/-- Bits [20:1] of the J immediate. -/
def RWord.immJ (r : RWord) : BitVec 20 :=
  BitVec.ofNat 20 (bits r.top20 19 19 * 2 ^ 19 + bits r.top20 7 0 * 2 ^ 11 + bits r.top20 8 8 * 2 ^ 10 + bits r.top20 18 9)

/-- A word whose immediate is of the I form. -/
def wordI (op f3 : Nat) (rd rs1 : Reg) (imm : BitVec 12) : RWord := ⟨op, rd, f3, rs1, imm.toNat % 32, imm.toNat / 32⟩
/-- A word whose immediate is of the S form. -/
def wordS (op f3 : Nat) (rs1 rs2 : Reg) (imm : BitVec 12) : RWord := ⟨op, imm.toNat % 32, f3, rs1, rs2, imm.toNat / 32⟩
/-- A word whose immediate is of the B form. -/
def wordB (f3 : Nat) (rs1 rs2 : Reg) (off : BitVec 12) : RWord :=
  ⟨0x63, bits off.toNat 3 0 * 2 + bits off.toNat 10 10, f3, rs1, rs2, bits off.toNat 11 11 * 64 + bits off.toNat 9 4⟩
/-- A word whose bits [31:12] are `u`. -/
def wordTop (op : Nat) (rd : Reg) (u : Nat) : RWord := ⟨op, rd, bits u 2 0, bits u 7 3, bits u 12 8, bits u 19 13⟩
/-- A word whose immediate is of the J form. -/
def wordJ (rd : Reg) (off : BitVec 20) : RWord :=
  wordTop 0x6F rd (bits off.toNat 19 19 * 2 ^ 19 + bits off.toNat 9 0 * 2 ^ 9 + bits off.toNat 10 10 * 2 ^ 8 + bits off.toNat 18 11)
/-- A word of the R form. -/
def wordR (op f3 f7 : Nat) (rd rs1 rs2 : Reg) : RWord := ⟨op, rd, f3, rs1, rs2, f7⟩

/-! ## The classes -/

/-- Opcode 0x63 (R82). -/
def decodeBranch (r : RWord) : Option Instr :=
  let k (c : Reg → Reg → BitVec 12 → Instr) : Option Instr := some (c (reg r.rs1) (reg r.rs2) r.immB)
  match r.f3 with
  | 0 => k .beq | 1 => k .bne | 4 => k .blt | 5 => k .bge | 6 => k .bltu | 7 => k .bgeu | _ => none

/-- Opcode 0x03 (R82). -/
def decodeLoad (r : RWord) : Option Instr :=
  let k (c : Reg → Reg → BitVec 12 → Instr) : Option Instr := some (c (reg r.rd) (reg r.rs1) r.immI)
  match r.f3 with
  | 0 => k .lb | 1 => k .lh | 2 => k .lw | 3 => k .ld | 4 => k .lbu | 5 => k .lhu | 6 => k .lwu | _ => none

/-- Opcode 0x23 (R82). -/
def decodeStore (r : RWord) : Option Instr :=
  let k (c : Reg → Reg → BitVec 12 → Instr) : Option Instr := some (c (reg r.rs1) (reg r.rs2) r.immS)
  match r.f3 with
  | 0 => k .sb | 1 => k .sh | 2 => k .sw | 3 => k .sd | _ => none

/-- Opcode 0x13 (R82). -/
def decodeOpImm (r : RWord) : Option Instr :=
  let k (c : Reg → Reg → BitVec 12 → Instr) : Option Instr := some (c (reg r.rd) (reg r.rs1) r.immI)
  let sh (c : Reg → Reg → BitVec 6 → Instr) : Instr := c (reg r.rd) (reg r.rs1) (BitVec.ofNat 6 (r.f7 % 2 * 32 + r.rs2))
  match r.f3 with
  | 0 => k .addi
  | 1 => given (decide (r.f7 / 2 = 0)) (sh .slli)
  | 2 => k .slti | 3 => k .sltiu | 4 => k .xori
  | 5 => if r.f7 / 2 = 0 then some (sh .srli) else given (decide (r.f7 / 2 = 16)) (sh .srai)
  | 6 => k .ori | 7 => k .andi | _ => none

/-- A choice among the eight instructions of one funct7. -/
def byF3 (r : RWord) (c : Nat → Option (Reg → Reg → Reg → Instr)) : Option Instr :=
  (c r.f3).map fun k => k (reg r.rd) (reg r.rs1) (reg r.rs2)

/-- Opcode 0x33 (R82). -/
def decodeOp (r : RWord) : Option Instr :=
  match r.f7 with
  | 0 => byF3 r fun
    | 0 => some .add | 1 => some .sll | 2 => some .slt | 3 => some .sltu | 4 => some .xor | 5 => some .srl | 6 => some .or_ | 7 => some .and_
    | _ => none
  | 1 => byF3 r fun
    | 0 => some .mul | 1 => some .mulh | 2 => some .mulhsu | 3 => some .mulhu | 4 => some .div | 5 => some .divu | 6 => some .rem
    | 7 => some .remu | _ => none
  | 32 => byF3 r fun | 0 => some .sub | 5 => some .sra | _ => none
  | _ => none

/-- Opcode 0x1B (R82). -/
def decodeOpImm32 (r : RWord) : Option Instr :=
  let sh (c : Reg → Reg → BitVec 5 → Instr) : Instr := c (reg r.rd) (reg r.rs1) (BitVec.ofNat 5 r.rs2)
  match r.f3 with
  | 0 => some (.addiw (reg r.rd) (reg r.rs1) r.immI)
  | 1 => given (decide (r.f7 = 0)) (sh .slliw)
  | 5 => if r.f7 = 0 then some (sh .srliw) else given (decide (r.f7 = 32)) (sh .sraiw)
  | _ => none

/-- Opcode 0x3B (R82). -/
def decodeOp32 (r : RWord) : Option Instr :=
  match r.f7 with
  | 0 => byF3 r fun | 0 => some .addw | 1 => some .sllw | 5 => some .srlw | _ => none
  | 1 => byF3 r fun | 0 => some .mulw | 4 => some .divw | 5 => some .divuw | 6 => some .remw | 7 => some .remuw | _ => none
  | 32 => byF3 r fun | 0 => some .subw | 5 => some .sraw | _ => none
  | _ => none

/-- Opcode 0x73 (R29). -/
def decodeSystem (r : RWord) : Option Instr :=
  let k (c : Reg → Reg → BitVec 12 → Instr) : Option Instr := some (c (reg r.rd) (reg r.rs1) r.immI)
  let z (c : Reg → BitVec 5 → BitVec 12 → Instr) : Option Instr := some (c (reg r.rd) (BitVec.ofNat 5 r.rs1) r.immI)
  match r.f3 with
  | 0 =>
    if r = ⟨0x73, 0, 0, 0, 0, 0⟩ then some .ecall
    else if r = ⟨0x73, 0, 0, 0, 1, 0⟩ then some .ebreak
    else given (decide (r = ⟨0x73, 0, 0, 0, 5, 8⟩)) .wfi
  | 1 => k .csrrw | 2 => k .csrrs | 3 => k .csrrc | 5 => z .csrrwi | 6 => z .csrrsi | 7 => z .csrrci | _ => none

/-- Opcode 0x2F (R30). -/
def decodeAtomic (r : RWord) : Option Instr :=
  let k (c : Reg → Reg → Reg → Bool → Bool → Instr) : Instr :=
    c (reg r.rd) (reg r.rs1) (reg r.rs2) (decide (r.f7 / 2 % 2 = 1)) (decide (r.f7 % 2 = 1))
  let wd (a b : Reg → Reg → Reg → Bool → Bool → Instr) : Option Instr :=
    if r.f3 = 2 then some (k a) else given (decide (r.f3 = 3)) (k b)
  match r.f7 / 4 with
  | 0x00 => wd .aaddW .aaddD | 0x01 => wd .aswapW .aswapD | 0x04 => wd .axorW .axorD | 0x05 => wd .acasW .acasD
  | 0x06 => given (decide (r.f3 = 2)) (k .afaddW)
  | 0x08 => wd .aorW .aorD | 0x0C => wd .aandW .aandD | 0x10 => wd .aminW .aminD | 0x14 => wd .amaxW .amaxD
  | 0x18 => wd .aminuW .aminuD | 0x1C => wd .amaxuW .amaxuD | _ => none

/-- Opcode 0x0B: the handler and message class (R31). -/
def decodeHandler (r : RWord) : Option Instr :=
  let d := reg r.rd; let a := reg r.rs1; let b := reg r.rs2
  let z0 := decide (r.rd = 0); let z1 := decide (r.rs1 = 0); let z2 := decide (r.rs2 = 0)
  match r.f3 with
  | 0 => match r.f7 with
    | 0 => given (z0 && z1 && z2) .endh | 1 => given (z0 && z2) (.aborth a) | 2 => given (z0 && z1 && z2) .masku
    | 3 => given (z0 && z1 && z2) .unmasku | 4 => given (z0 && z1 && z2) .yield | 5 => some (.waitc d a b)
    | 6 => given (z0 && z2) (.sleep a) | _ => none
  | 1 => match r.f7 with
    | 0 => some (.dqpush d a b) | 1 => given (z1 && z2) (.dqpop d) | 2 => given (z1 && z2) (.dqsplit d) | 3 => given z2 (.dqsteal d a)
    | 4 => given (z1 && z2) (.dqlen d) | _ => none
  | 2 => match r.f7 with
    | 0 => some (.send d a b) | 1 => some (.sendu d a b)
    | 2 => if z0 then upTo 14 r.rs2 (.reply a) else none
    | 3 => upTo 14 r.rs2 (.sendv d a) | _ => none
  | 3 => match r.f7 with
    | 0 => given z0 (.cntadd a b) | 1 => given z0 (.cntset a b) | 2 => given z0 (.cntarm a b) | 3 => given z2 (.cntrd d a) | _ => none
  | _ => none

/-- Opcode 0x2B: the memory, ordering, engine and group class (R31). -/
def decodeMemClass (r : RWord) : Option Instr :=
  let d := reg r.rd; let a := reg r.rs1; let b := reg r.rs2
  let z0 := decide (r.rd = 0); let z1 := decide (r.rs1 = 0); let z2 := decide (r.rs2 = 0)
  match r.f3 with
  | 0 => match r.f7 with
    | 0 => if z2 then upTo 14 r.rd fun v => .shape v a else none
    | 1 => upTo 14 r.rs1 fun v => .ldg d v b
    | 2 => upTo 14 r.rs1 fun v => .stg d v b
    | _ => none
  | 1 => match r.f7 with
    | 0 => (scopeOf (r.rs2 / 4)).map (.lda d a (memWOf (r.rs2 % 4)))
    | 1 => (scopeOf (r.rd / 4)).map (.stl a b (memWOf (r.rd % 4)))
    | 2 => if z0 && z1 then (scopeOf r.rs2).map .fenceS else none
    | 3 => given (z0 && z1 && z2) .xfence | 4 => some (.publish d a b) | 5 => some (.pubwait d a b) | _ => none
  | 2 => match r.f7 with
    | 0 => given z0 (.cuadd a b) | 1 => given z0 (.cuaddi a b) | _ => none
  | 3 => match r.f7 with
    | 0 => if z2 then upTo 14 r.rs1 (.engq d) else none
    | 1 => given z0 (.tpost a b) | 2 => given z2 (.engst d a) | _ => none
  | 4 => match r.f7 with
    | 0 => if z0 then upTo 14 r.rs2 (.grpst a) else none
    | 1 => if z2 then upTo 14 r.rd fun v => .grpld v a else none
    | _ => none
  | _ => none

/-- Opcode 0x5B: the trap and service class (R31). -/
def decodeTrapClass (r : RWord) : Option Instr :=
  let d := reg r.rd; let a := reg r.rs1; let b := reg r.rs2
  let z0 := decide (r.rd = 0); let z1 := decide (r.rs1 = 0); let z2 := decide (r.rs2 = 0)
  match r.f3 with
  | 0 => match r.f7 with
    | 0 => given (z0 && z1) (.trap (BitVec.ofNat 5 r.rs2)) | 1 => given (z0 && z1 && z2) .tret | 2 => given z2 (.chkerr d a)
    | 3 => given (z0 && z2) (.ctxsv a) | 4 => given (z0 && z2) (.ctxld a) | _ => none
  | 1 => match r.f7 with
    | 0 => given z2 (.leaseq d a) | 1 => given (z0 && z2) (.capack a) | 2 => some (.suspr d a b) | 3 => some (.retrd d a b) | _ => none
  | _ => none

/-- Opcode 0x7B: the conversion class (R32). -/
def decodeConv (r : RWord) : Option Instr :=
  if r.rs1 ≤ 15 ∧ r.rd ≤ 14 then
    let s := vreg r.rs1; let d := vreg r.rd
    let pair := fun (k : Fmt → Fmt → Option Instr) =>
      if r.f7 / 64 = 0 ∧ r.f7 / 8 % 8 ≠ r.f7 % 8 then k (fmtOf (r.f7 / 8 % 8)) (fmtOf (r.f7 % 8)) else none
    let rm := rcodeOf r.rs2
    match r.f3 with
    | 0 => pair fun dst src => rm.map fun m => .vcvt dst src m s d
    | 1 => (sxOf r.f7).bind fun k => rm.map fun m => .vqsx k m s d
    | 2 => (sxOf r.f7).bind fun k => rm.map fun m => .vdqsx k m s d
    | 3 => if r.f7 ≤ 1 then rm.map fun m => .vqrow (decide (r.f7 = 1)) m s d else none
    | 4 => if r.f7 ≤ 1 then rm.map fun m => .vdqrow (decide (r.f7 = 1)) m s d else none
    | 5 => pair fun dst src => upTo 15 r.rs2 fun v => .vcvtsr dst src v s d
    | _ => none
  else none

/-- The forms 000, 001 and 010 of a vector instruction that admits all three (R33, R34). -/
def vecForms (v : VWord) (vv : PReg → VReg → VReg → VReg → Instr) (vx : PReg → Reg → VReg → VReg → Instr)
    (vi : PReg → BitVec 5 → VReg → VReg → Instr) : Option Instr :=
  if v.vd = 15 then none else
    match v.form with
    | 0 => given (decide (v.xh = 0)) (vv (preg v.pr) (vreg v.vs2) (vreg v.vs1) (vreg v.vd))
    | 1 => some (vx (preg v.pr) (reg (v.xh * 16 + v.vs2)) (vreg v.vs1) (vreg v.vd))
    | 2 => some (vi (preg v.pr) (BitVec.ofNat 5 (v.xh * 16 + v.vs2)) (vreg v.vs1) (vreg v.vd))
    | _ => none

/-- A vector instruction that admits one form with three vector registers (R33, R34). -/
def vecThree (form : Nat) (v : VWord) (k : PReg → VReg → VReg → VReg → Instr) : Option Instr :=
  given (decide (v.form = form ∧ v.xh = 0 ∧ v.vd ≠ 15)) (k (preg v.pr) (vreg v.vs2) (vreg v.vs1) (vreg v.vd))

/-- A vector instruction of form 000 with one source, whose vs2 field is zero (R33). -/
def vecOne (v : VWord) (k : PReg → VReg → VReg → Instr) : Option Instr :=
  given (decide (v.form = 0 ∧ v.xh = 0 ∧ v.vs2 = 0 ∧ v.vd ≠ 15)) (k (preg v.pr) (vreg v.vs1) (vreg v.vd))

/-- A vector memory instruction of form 100 (R34). -/
def vecMem (load : Bool) (v : VWord) (k : PReg → BitVec 4 → Reg → VReg → Instr) : Option Instr :=
  given (decide (v.form = 4) && !(load && decide (v.vd = 15)))
    (k (preg v.pr) (BitVec.ofNat 4 v.vs2) (reg (v.xh * 16 + v.vs1)) (vreg v.vd))

/-- VCMP (R33). -/
def vecCmp (v : VWord) : Option Instr :=
  (condOf v.vd).bind fun cc =>
    match v.form with
    | 0 => given (decide (v.xh = 0)) (.vcmpVV (preg v.pr) (vreg v.vs2) (vreg v.vs1) cc)
    | 1 => some (.vcmpVX (preg v.pr) (reg (v.xh * 16 + v.vs2)) (vreg v.vs1) cc)
    | 2 => some (.vcmpVI (preg v.pr) (BitVec.ofNat 5 (v.xh * 16 + v.vs2)) (vreg v.vs1) cc)
    | _ => none

/-- VBCAST (R33). -/
def vecBcast (v : VWord) : Option Instr :=
  if v.vs1 = 0 ∧ v.vd ≠ 15 then
    match v.form with
    | 1 => some (.vbcastX (preg v.pr) (reg (v.xh * 16 + v.vs2)) (vreg v.vd))
    | 2 => some (.vbcastI (preg v.pr) (BitVec.ofNat 5 (v.xh * 16 + v.vs2)) (vreg v.vd))
    | _ => none
  else none

/-- Opcode 0x57: the vector class (R33). -/
def decodeVec (v : VWord) : Option Instr :=
  match v.f6 with
  | 0x00 => vecForms v .vaddVV .vaddVX .vaddVI | 0x01 => vecForms v .vsubVV .vsubVX .vsubVI
  | 0x02 => vecForms v .vmulVV .vmulVX .vmulVI | 0x03 => vecThree 3 v .vfma | 0x04 => vecThree 3 v .vfms
  | 0x05 => vecForms v .vminVV .vminVX .vminVI | 0x06 => vecForms v .vmaxVV .vmaxVX .vmaxVI
  | 0x07 => vecOne v .vabs | 0x08 => vecOne v .vneg
  | 0x09 => vecForms v .vandVV .vandVX .vandVI | 0x0A => vecForms v .vorVV .vorVX .vorVI | 0x0B => vecForms v .vxorVV .vxorVX .vxorVI
  | 0x0C => vecForms v .vshlVV .vshlVX .vshlVI | 0x0D => vecForms v .vshrVV .vshrVX .vshrVI | 0x0E => vecForms v .vsraVV .vsraVX .vsraVI
  | 0x0F => vecCmp v | 0x10 => vecThree 0 v .vsel | 0x11 => vecThree 0 v .vperm | 0x12 => vecBcast v
  | 0x13 => given (decide (v.form = 0 ∧ v.vs2 ≤ 3 ∧ v.pr = 0)) (.vmovx (reg (v.xh * 16 + v.vd)) (vreg v.vs1) (Fin.ofNat 4 v.vs2))
  | 0x14 => vecOne v .vredadd | 0x15 => vecOne v .vredmax | 0x16 => vecOne v .vredmin
  | 0x18 => vecOne v .vexp2 | 0x19 => vecOne v .vlog2 | 0x1A => vecOne v .vexp | 0x1B => vecOne v .vlog | 0x1C => vecOne v .vsin
  | 0x1D => vecOne v .vcos | 0x1E => vecOne v .vrcp | 0x1F => vecOne v .vrsqrt | 0x20 => vecOne v .vsig | 0x21 => vecOne v .vtanh
  | 0x24 => vecThree 0 v .vtopk
  | 0x25 => if v.pr = 0 then vecThree 0 v fun _ => .vrefill else none
  | 0x28 => vecMem true v .vld | 0x29 => vecMem false v .vst | 0x2A => vecMem true v .vlds | 0x2B => vecMem false v .vsts
  | 0x2C => given (decide (v.form = 5 ∧ v.vd ≠ 15)) (.vldi (preg v.pr) (vreg v.vs2) (reg (v.xh * 16 + v.vs1)) (vreg v.vd))
  | _ => none

/-- The instruction of a handler word; none for a word that raises ILLEGAL at decode (R28, R35). -/
def decode (w : Nat) : Option Instr :=
  let r := RWord.ofNat w
  match r.op with
  | 0x37 => some (.lui (reg r.rd) (BitVec.ofNat 20 r.top20))
  | 0x17 => some (.auipc (reg r.rd) (BitVec.ofNat 20 r.top20))
  | 0x6F => some (.jal (reg r.rd) r.immJ)
  | 0x67 => given (decide (r.f3 = 0)) (.jalr (reg r.rd) (reg r.rs1) r.immI)
  | 0x63 => decodeBranch r | 0x03 => decodeLoad r | 0x23 => decodeStore r | 0x13 => decodeOpImm r | 0x33 => decodeOp r
  | 0x1B => decodeOpImm32 r | 0x3B => decodeOp32 r
  | 0x0F => given (decide (r.f3 = 0)) (.fence ⟨reg r.rd, reg r.rs1, r.immI⟩)
  | 0x73 => decodeSystem r | 0x2F => decodeAtomic r | 0x0B => decodeHandler r | 0x2B => decodeMemClass r | 0x5B => decodeTrapClass r
  | 0x7B => decodeConv r | 0x57 => decodeVec (VWord.ofNat w) | _ => none

/-- The instruction of a table row's word: handler words have 32 bits and one word. -/
def decodeTableWord (nbits w : Nat) : Option Instr :=
  if nbits ≤ 32 ∧ w < 2 ^ 32 then decode w else none

/-! ## Encoding -/

/-- The R word of the atomics (R30). -/
def wordA (f5 f3 : Nat) (rd rs1 rs2 : Reg) (aq rl : Bool) : RWord := ⟨0x2F, rd, f3, rs1, rs2, f5 * 4 + aq.toNat * 2 + rl.toNat⟩

/-- A shift by immediate of 64 bits. -/
def wordSh (f3 top : Nat) (rd rs1 : Reg) (sh : BitVec 6) : RWord := ⟨0x13, rd, f3, rs1, sh.toNat % 32, top * 2 + sh.toNat / 32⟩

/-- A vector word of form 000 or 011. -/
def wordVV (f6 form : Nat) (p : PReg) (vs2 vs1 vd : VReg) : VWord := ⟨0, vd, form, vs1, vs2, p, f6⟩
/-- A vector word of form 001 or 010, whose second operand is a 5-bit number. -/
def wordVX (f6 form : Nat) (p : PReg) (n : Nat) (vs1 vd : VReg) : VWord := ⟨n / 16, vd, form, vs1, n % 16, p, f6⟩
/-- A vector word of form 100 or 101. -/
def wordVM (f6 form : Nat) (p : PReg) (off : Nat) (rs1 : Reg) (vd : VReg) : VWord := ⟨rs1.val / 16, vd, form, rs1.val % 16, off, p, f6⟩

/-- The word of an instruction that has one; none for tile commands and events. -/
def encode : Instr → Option Nat
  | .lui rd imm => some (wordTop 0x37 rd imm.toNat).toNat
  | .auipc rd imm => some (wordTop 0x17 rd imm.toNat).toNat
  | .jal rd off => some (wordJ rd off).toNat
  | .jalr rd rs1 imm => some (wordI 0x67 0 rd rs1 imm).toNat
  | .beq rs1 rs2 off => some (wordB 0 rs1 rs2 off).toNat
  | .bne rs1 rs2 off => some (wordB 1 rs1 rs2 off).toNat
  | .blt rs1 rs2 off => some (wordB 4 rs1 rs2 off).toNat
  | .bge rs1 rs2 off => some (wordB 5 rs1 rs2 off).toNat
  | .bltu rs1 rs2 off => some (wordB 6 rs1 rs2 off).toNat
  | .bgeu rs1 rs2 off => some (wordB 7 rs1 rs2 off).toNat
  | .lb rd rs1 imm => some (wordI 0x3 0 rd rs1 imm).toNat
  | .lh rd rs1 imm => some (wordI 0x3 1 rd rs1 imm).toNat
  | .lw rd rs1 imm => some (wordI 0x3 2 rd rs1 imm).toNat
  | .ld rd rs1 imm => some (wordI 0x3 3 rd rs1 imm).toNat
  | .lbu rd rs1 imm => some (wordI 0x3 4 rd rs1 imm).toNat
  | .lhu rd rs1 imm => some (wordI 0x3 5 rd rs1 imm).toNat
  | .lwu rd rs1 imm => some (wordI 0x3 6 rd rs1 imm).toNat
  | .sb rs1 rs2 imm => some (wordS 0x23 0 rs1 rs2 imm).toNat
  | .sh rs1 rs2 imm => some (wordS 0x23 1 rs1 rs2 imm).toNat
  | .sw rs1 rs2 imm => some (wordS 0x23 2 rs1 rs2 imm).toNat
  | .sd rs1 rs2 imm => some (wordS 0x23 3 rs1 rs2 imm).toNat
  | .addi rd rs1 imm => some (wordI 0x13 0 rd rs1 imm).toNat
  | .slti rd rs1 imm => some (wordI 0x13 2 rd rs1 imm).toNat
  | .sltiu rd rs1 imm => some (wordI 0x13 3 rd rs1 imm).toNat
  | .xori rd rs1 imm => some (wordI 0x13 4 rd rs1 imm).toNat
  | .ori rd rs1 imm => some (wordI 0x13 6 rd rs1 imm).toNat
  | .andi rd rs1 imm => some (wordI 0x13 7 rd rs1 imm).toNat
  | .slli rd rs1 sh => some (wordSh 1 0 rd rs1 sh).toNat
  | .srli rd rs1 sh => some (wordSh 5 0 rd rs1 sh).toNat
  | .srai rd rs1 sh => some (wordSh 5 16 rd rs1 sh).toNat
  | .add rd rs1 rs2 => some (wordR 0x33 0 0 rd rs1 rs2).toNat
  | .sub rd rs1 rs2 => some (wordR 0x33 0 32 rd rs1 rs2).toNat
  | .sll rd rs1 rs2 => some (wordR 0x33 1 0 rd rs1 rs2).toNat
  | .slt rd rs1 rs2 => some (wordR 0x33 2 0 rd rs1 rs2).toNat
  | .sltu rd rs1 rs2 => some (wordR 0x33 3 0 rd rs1 rs2).toNat
  | .xor rd rs1 rs2 => some (wordR 0x33 4 0 rd rs1 rs2).toNat
  | .srl rd rs1 rs2 => some (wordR 0x33 5 0 rd rs1 rs2).toNat
  | .sra rd rs1 rs2 => some (wordR 0x33 5 32 rd rs1 rs2).toNat
  | .or_ rd rs1 rs2 => some (wordR 0x33 6 0 rd rs1 rs2).toNat
  | .and_ rd rs1 rs2 => some (wordR 0x33 7 0 rd rs1 rs2).toNat
  | .mul rd rs1 rs2 => some (wordR 0x33 0 1 rd rs1 rs2).toNat
  | .mulh rd rs1 rs2 => some (wordR 0x33 1 1 rd rs1 rs2).toNat
  | .mulhsu rd rs1 rs2 => some (wordR 0x33 2 1 rd rs1 rs2).toNat
  | .mulhu rd rs1 rs2 => some (wordR 0x33 3 1 rd rs1 rs2).toNat
  | .div rd rs1 rs2 => some (wordR 0x33 4 1 rd rs1 rs2).toNat
  | .divu rd rs1 rs2 => some (wordR 0x33 5 1 rd rs1 rs2).toNat
  | .rem rd rs1 rs2 => some (wordR 0x33 6 1 rd rs1 rs2).toNat
  | .remu rd rs1 rs2 => some (wordR 0x33 7 1 rd rs1 rs2).toNat
  | .addiw rd rs1 imm => some (wordI 0x1b 0 rd rs1 imm).toNat
  | .slliw rd rs1 sh => some (RWord.mk 0x1b rd 1 rs1 sh.toNat 0).toNat
  | .srliw rd rs1 sh => some (RWord.mk 0x1b rd 5 rs1 sh.toNat 0).toNat
  | .sraiw rd rs1 sh => some (RWord.mk 0x1b rd 5 rs1 sh.toNat 32).toNat
  | .addw rd rs1 rs2 => some (wordR 0x3b 0 0 rd rs1 rs2).toNat
  | .subw rd rs1 rs2 => some (wordR 0x3b 0 32 rd rs1 rs2).toNat
  | .sllw rd rs1 rs2 => some (wordR 0x3b 1 0 rd rs1 rs2).toNat
  | .srlw rd rs1 rs2 => some (wordR 0x3b 5 0 rd rs1 rs2).toNat
  | .sraw rd rs1 rs2 => some (wordR 0x3b 5 32 rd rs1 rs2).toNat
  | .mulw rd rs1 rs2 => some (wordR 0x3b 0 1 rd rs1 rs2).toNat
  | .divw rd rs1 rs2 => some (wordR 0x3b 4 1 rd rs1 rs2).toNat
  | .divuw rd rs1 rs2 => some (wordR 0x3b 5 1 rd rs1 rs2).toNat
  | .remw rd rs1 rs2 => some (wordR 0x3b 6 1 rd rs1 rs2).toNat
  | .remuw rd rs1 rs2 => some (wordR 0x3b 7 1 rd rs1 rs2).toNat
  | .fence f => some (wordI 0xf 0 f.rd f.rs1 f.bits).toNat
  | .ecall => some 0x00000073
  | .ebreak => some 0x00100073
  | .wfi => some 0x10500073
  | .csrrw rd rs1 csr => some (wordI 0x73 1 rd rs1 csr).toNat
  | .csrrs rd rs1 csr => some (wordI 0x73 2 rd rs1 csr).toNat
  | .csrrc rd rs1 csr => some (wordI 0x73 3 rd rs1 csr).toNat
  | .csrrwi rd zimm csr => some (RWord.mk 0x73 rd 5 zimm.toNat (csr.toNat % 32) (csr.toNat / 32)).toNat
  | .csrrsi rd zimm csr => some (RWord.mk 0x73 rd 6 zimm.toNat (csr.toNat % 32) (csr.toNat / 32)).toNat
  | .csrrci rd zimm csr => some (RWord.mk 0x73 rd 7 zimm.toNat (csr.toNat % 32) (csr.toNat / 32)).toNat
  | .aaddW rd rs1 rs2 aq rl => some (wordA 0x0 2 rd rs1 rs2 aq rl).toNat
  | .aaddD rd rs1 rs2 aq rl => some (wordA 0x0 3 rd rs1 rs2 aq rl).toNat
  | .aswapW rd rs1 rs2 aq rl => some (wordA 0x1 2 rd rs1 rs2 aq rl).toNat
  | .aswapD rd rs1 rs2 aq rl => some (wordA 0x1 3 rd rs1 rs2 aq rl).toNat
  | .axorW rd rs1 rs2 aq rl => some (wordA 0x4 2 rd rs1 rs2 aq rl).toNat
  | .axorD rd rs1 rs2 aq rl => some (wordA 0x4 3 rd rs1 rs2 aq rl).toNat
  | .acasW rd rs1 rs2 aq rl => some (wordA 0x5 2 rd rs1 rs2 aq rl).toNat
  | .acasD rd rs1 rs2 aq rl => some (wordA 0x5 3 rd rs1 rs2 aq rl).toNat
  | .afaddW rd rs1 rs2 aq rl => some (wordA 0x6 2 rd rs1 rs2 aq rl).toNat
  | .aorW rd rs1 rs2 aq rl => some (wordA 0x8 2 rd rs1 rs2 aq rl).toNat
  | .aorD rd rs1 rs2 aq rl => some (wordA 0x8 3 rd rs1 rs2 aq rl).toNat
  | .aandW rd rs1 rs2 aq rl => some (wordA 0xc 2 rd rs1 rs2 aq rl).toNat
  | .aandD rd rs1 rs2 aq rl => some (wordA 0xc 3 rd rs1 rs2 aq rl).toNat
  | .aminW rd rs1 rs2 aq rl => some (wordA 0x10 2 rd rs1 rs2 aq rl).toNat
  | .aminD rd rs1 rs2 aq rl => some (wordA 0x10 3 rd rs1 rs2 aq rl).toNat
  | .amaxW rd rs1 rs2 aq rl => some (wordA 0x14 2 rd rs1 rs2 aq rl).toNat
  | .amaxD rd rs1 rs2 aq rl => some (wordA 0x14 3 rd rs1 rs2 aq rl).toNat
  | .aminuW rd rs1 rs2 aq rl => some (wordA 0x18 2 rd rs1 rs2 aq rl).toNat
  | .aminuD rd rs1 rs2 aq rl => some (wordA 0x18 3 rd rs1 rs2 aq rl).toNat
  | .amaxuW rd rs1 rs2 aq rl => some (wordA 0x1c 2 rd rs1 rs2 aq rl).toNat
  | .amaxuD rd rs1 rs2 aq rl => some (wordA 0x1c 3 rd rs1 rs2 aq rl).toNat
  | .endh => some (RWord.mk 0xb 0 0 0 0 0x0).toNat
  | .aborth rs1 => some (RWord.mk 0xb 0 0 rs1 0 0x1).toNat
  | .masku => some (RWord.mk 0xb 0 0 0 0 0x2).toNat
  | .unmasku => some (RWord.mk 0xb 0 0 0 0 0x3).toNat
  | .yield => some (RWord.mk 0xb 0 0 0 0 0x4).toNat
  | .waitc rd rs1 rs2 => some (RWord.mk 0xb rd 0 rs1 rs2 0x5).toNat
  | .sleep rs1 => some (RWord.mk 0xb 0 0 rs1 0 0x6).toNat
  | .dqpush rd rs1 rs2 => some (RWord.mk 0xb rd 1 rs1 rs2 0x0).toNat
  | .dqpop rd => some (RWord.mk 0xb rd 1 0 0 0x1).toNat
  | .dqsplit rd => some (RWord.mk 0xb rd 1 0 0 0x2).toNat
  | .dqsteal rd rs1 => some (RWord.mk 0xb rd 1 rs1 0 0x3).toNat
  | .dqlen rd => some (RWord.mk 0xb rd 1 0 0 0x4).toNat
  | .send rd rs1 rs2 => some (RWord.mk 0xb rd 2 rs1 rs2 0x0).toNat
  | .sendu rd rs1 rs2 => some (RWord.mk 0xb rd 2 rs1 rs2 0x1).toNat
  | .reply rs1 vs2 => some (RWord.mk 0xb 0 2 rs1 vs2 0x2).toNat
  | .sendv rd rs1 vs2 => some (RWord.mk 0xb rd 2 rs1 vs2 0x3).toNat
  | .cntadd rs1 rs2 => some (RWord.mk 0xb 0 3 rs1 rs2 0x0).toNat
  | .cntset rs1 rs2 => some (RWord.mk 0xb 0 3 rs1 rs2 0x1).toNat
  | .cntarm rs1 rs2 => some (RWord.mk 0xb 0 3 rs1 rs2 0x2).toNat
  | .cntrd rd rs1 => some (RWord.mk 0xb rd 3 rs1 0 0x3).toNat
  | .shape vd rs1 => some (RWord.mk 0x2b vd 0 rs1 0 0x0).toNat
  | .ldg rd vs rs2 => some (RWord.mk 0x2b rd 0 vs rs2 0x1).toNat
  | .stg rs vs rs2 => some (RWord.mk 0x2b rs 0 vs rs2 0x2).toNat
  | .lda rd rs1 wd sc => some (RWord.mk 0x2b rd 1 rs1 (sc.code * 4 + wd.code) 0x0).toNat
  | .stl rs1 rs2 wd sc => some (RWord.mk 0x2b (sc.code * 4 + wd.code) 1 rs1 rs2 0x1).toNat
  | .fenceS sc => some (RWord.mk 0x2b 0 1 0 sc.code 0x2).toNat
  | .xfence => some (RWord.mk 0x2b 0 1 0 0 0x3).toNat
  | .publish rd rs1 rs2 => some (RWord.mk 0x2b rd 1 rs1 rs2 0x4).toNat
  | .pubwait rd rs1 rs2 => some (RWord.mk 0x2b rd 1 rs1 rs2 0x5).toNat
  | .cuadd rs1 rs2 => some (RWord.mk 0x2b 0 2 rs1 rs2 0x0).toNat
  | .cuaddi rs1 rs2 => some (RWord.mk 0x2b 0 2 rs1 rs2 0x1).toNat
  | .engq rd vs => some (RWord.mk 0x2b rd 3 vs 0 0x0).toNat
  | .tpost rs1 rs2 => some (RWord.mk 0x2b 0 3 rs1 rs2 0x1).toNat
  | .engst rd rs1 => some (RWord.mk 0x2b rd 3 rs1 0 0x2).toNat
  | .grpst rs1 vs2 => some (RWord.mk 0x2b 0 4 rs1 vs2 0x0).toNat
  | .grpld vd rs1 => some (RWord.mk 0x2b vd 4 rs1 0 0x1).toNat
  | .trap code => some (RWord.mk 0x5b 0 0 0 code.toNat 0x0).toNat
  | .tret => some (RWord.mk 0x5b 0 0 0 0 0x1).toNat
  | .chkerr rd rs1 => some (RWord.mk 0x5b rd 0 rs1 0 0x2).toNat
  | .ctxsv rs1 => some (RWord.mk 0x5b 0 0 rs1 0 0x3).toNat
  | .ctxld rs1 => some (RWord.mk 0x5b 0 0 rs1 0 0x4).toNat
  | .leaseq rd rs1 => some (RWord.mk 0x5b rd 1 rs1 0 0x0).toNat
  | .capack rs1 => some (RWord.mk 0x5b 0 1 rs1 0 0x1).toNat
  | .suspr rd rs1 rs2 => some (RWord.mk 0x5b rd 1 rs1 rs2 0x2).toNat
  | .retrd rd rs1 rs2 => some (RWord.mk 0x5b rd 1 rs1 rs2 0x3).toNat
  | .vcvt dst src rm vs vd => some (RWord.mk 0x7b vd 0 vs rm.code (dst.code * 8 + src.code)).toNat
  | .vqsx k rm vs vd => some (RWord.mk 0x7b vd 1 vs rm.code k.code).toNat
  | .vdqsx k rm vs vd => some (RWord.mk 0x7b vd 2 vs rm.code k.code).toNat
  | .vqrow four rm vs vd => some (RWord.mk 0x7b vd 3 vs rm.code four.toNat).toNat
  | .vdqrow four rm vs vd => some (RWord.mk 0x7b vd 4 vs rm.code four.toNat).toNat
  | .vcvtsr dst src vr vs vd => some (RWord.mk 0x7b vd 5 vs vr (dst.code * 8 + src.code)).toNat
  | .vaddVV p vs2 vs1 vd => some (wordVV 0x0 0 p vs2 vs1 vd).toNat
  | .vaddVX p rs2 vs1 vd => some (wordVX 0x0 1 p rs2.val vs1 vd).toNat
  | .vaddVI p imm vs1 vd => some (wordVX 0x0 2 p imm.toNat vs1 vd).toNat
  | .vsubVV p vs2 vs1 vd => some (wordVV 0x1 0 p vs2 vs1 vd).toNat
  | .vsubVX p rs2 vs1 vd => some (wordVX 0x1 1 p rs2.val vs1 vd).toNat
  | .vsubVI p imm vs1 vd => some (wordVX 0x1 2 p imm.toNat vs1 vd).toNat
  | .vmulVV p vs2 vs1 vd => some (wordVV 0x2 0 p vs2 vs1 vd).toNat
  | .vmulVX p rs2 vs1 vd => some (wordVX 0x2 1 p rs2.val vs1 vd).toNat
  | .vmulVI p imm vs1 vd => some (wordVX 0x2 2 p imm.toNat vs1 vd).toNat
  | .vfma p vs2 vs1 vd => some (wordVV 0x3 3 p vs2 vs1 vd).toNat
  | .vfms p vs2 vs1 vd => some (wordVV 0x4 3 p vs2 vs1 vd).toNat
  | .vminVV p vs2 vs1 vd => some (wordVV 0x5 0 p vs2 vs1 vd).toNat
  | .vminVX p rs2 vs1 vd => some (wordVX 0x5 1 p rs2.val vs1 vd).toNat
  | .vminVI p imm vs1 vd => some (wordVX 0x5 2 p imm.toNat vs1 vd).toNat
  | .vmaxVV p vs2 vs1 vd => some (wordVV 0x6 0 p vs2 vs1 vd).toNat
  | .vmaxVX p rs2 vs1 vd => some (wordVX 0x6 1 p rs2.val vs1 vd).toNat
  | .vmaxVI p imm vs1 vd => some (wordVX 0x6 2 p imm.toNat vs1 vd).toNat
  | .vabs p vs1 vd => some (wordVV 0x7 0 p 0 vs1 vd).toNat
  | .vneg p vs1 vd => some (wordVV 0x8 0 p 0 vs1 vd).toNat
  | .vandVV p vs2 vs1 vd => some (wordVV 0x9 0 p vs2 vs1 vd).toNat
  | .vandVX p rs2 vs1 vd => some (wordVX 0x9 1 p rs2.val vs1 vd).toNat
  | .vandVI p imm vs1 vd => some (wordVX 0x9 2 p imm.toNat vs1 vd).toNat
  | .vorVV p vs2 vs1 vd => some (wordVV 0xa 0 p vs2 vs1 vd).toNat
  | .vorVX p rs2 vs1 vd => some (wordVX 0xa 1 p rs2.val vs1 vd).toNat
  | .vorVI p imm vs1 vd => some (wordVX 0xa 2 p imm.toNat vs1 vd).toNat
  | .vxorVV p vs2 vs1 vd => some (wordVV 0xb 0 p vs2 vs1 vd).toNat
  | .vxorVX p rs2 vs1 vd => some (wordVX 0xb 1 p rs2.val vs1 vd).toNat
  | .vxorVI p imm vs1 vd => some (wordVX 0xb 2 p imm.toNat vs1 vd).toNat
  | .vshlVV p vs2 vs1 vd => some (wordVV 0xc 0 p vs2 vs1 vd).toNat
  | .vshlVX p rs2 vs1 vd => some (wordVX 0xc 1 p rs2.val vs1 vd).toNat
  | .vshlVI p imm vs1 vd => some (wordVX 0xc 2 p imm.toNat vs1 vd).toNat
  | .vshrVV p vs2 vs1 vd => some (wordVV 0xd 0 p vs2 vs1 vd).toNat
  | .vshrVX p rs2 vs1 vd => some (wordVX 0xd 1 p rs2.val vs1 vd).toNat
  | .vshrVI p imm vs1 vd => some (wordVX 0xd 2 p imm.toNat vs1 vd).toNat
  | .vsraVV p vs2 vs1 vd => some (wordVV 0xe 0 p vs2 vs1 vd).toNat
  | .vsraVX p rs2 vs1 vd => some (wordVX 0xe 1 p rs2.val vs1 vd).toNat
  | .vsraVI p imm vs1 vd => some (wordVX 0xe 2 p imm.toNat vs1 vd).toNat
  | .vcmpVV pd vs2 vs1 cc => some (VWord.mk 0 cc.code 0 vs1 vs2 pd 0xf).toNat
  | .vcmpVX pd rs2 vs1 cc => some (VWord.mk (rs2.val / 16) cc.code 1 vs1 (rs2.val % 16) pd 0xf).toNat
  | .vcmpVI pd imm vs1 cc => some (VWord.mk (imm.toNat / 16) cc.code 2 vs1 (imm.toNat % 16) pd 0xf).toNat
  | .vsel p vs2 vs1 vd => some (wordVV 0x10 0 p vs2 vs1 vd).toNat
  | .vperm p vs2 vs1 vd => some (wordVV 0x11 0 p vs2 vs1 vd).toNat
  | .vbcastX p rs2 vd => some (wordVX 0x12 1 p rs2.val 0 vd).toNat
  | .vbcastI p imm vd => some (wordVX 0x12 2 p imm.toNat 0 vd).toNat
  | .vmovx rd vs1 k => some (VWord.mk (rd.val / 16) (rd.val % 16) 0 vs1 k.val 0 0x13).toNat
  | .vredadd p vs1 vd => some (wordVV 0x14 0 p 0 vs1 vd).toNat
  | .vredmax p vs1 vd => some (wordVV 0x15 0 p 0 vs1 vd).toNat
  | .vredmin p vs1 vd => some (wordVV 0x16 0 p 0 vs1 vd).toNat
  | .vexp2 p vs1 vd => some (wordVV 0x18 0 p 0 vs1 vd).toNat
  | .vlog2 p vs1 vd => some (wordVV 0x19 0 p 0 vs1 vd).toNat
  | .vexp p vs1 vd => some (wordVV 0x1a 0 p 0 vs1 vd).toNat
  | .vlog p vs1 vd => some (wordVV 0x1b 0 p 0 vs1 vd).toNat
  | .vsin p vs1 vd => some (wordVV 0x1c 0 p 0 vs1 vd).toNat
  | .vcos p vs1 vd => some (wordVV 0x1d 0 p 0 vs1 vd).toNat
  | .vrcp p vs1 vd => some (wordVV 0x1e 0 p 0 vs1 vd).toNat
  | .vrsqrt p vs1 vd => some (wordVV 0x1f 0 p 0 vs1 vd).toNat
  | .vsig p vs1 vd => some (wordVV 0x20 0 p 0 vs1 vd).toNat
  | .vtanh p vs1 vd => some (wordVV 0x21 0 p 0 vs1 vd).toNat
  | .vtopk p vs2 vs1 vd => some (wordVV 0x24 0 p vs2 vs1 vd).toNat
  | .vrefill vs2 vs1 vd => some (wordVV 0x25 0 0 vs2 vs1 vd).toNat
  | .vld p off rs1 vd => some (wordVM 0x28 4 p off.toNat rs1 vd).toNat
  | .vst p off rs1 vs => some (wordVM 0x29 4 p off.toNat rs1 vs).toNat
  | .vlds p off rs1 vd => some (wordVM 0x2a 4 p off.toNat rs1 vd).toNat
  | .vsts p off rs1 vs => some (wordVM 0x2b 4 p off.toNat rs1 vs).toNat
  | .vldi p vk rs1 vd => some (wordVM 0x2c 5 p vk.val rs1 vd).toNat
  | .mma .. | .cellp .. | .aczero .. | .acdrain .. | .acload .. | .accfg .. | .acstat .. | .rotCfg ..
  | .rotTriStream .. | .rotTriAuto .. | .rotTriLoad .. | .rotApply .. | .rotSolve .. | .rotReadFp32 .. | .rotReadRaw ..
  | .rotReadStat .. | .rotGain .. | .rotAngToSig32 .. | .rotAngToBam32 .. | .fload .. | .fsel .. | .farg .. | .fseed ..
  | .fdrain .. | .fstat .. | .pePass .. | .peAdd .. | .peSub .. | .peMul .. | .peFma .. | .peFms .. | .peMax ..
  | .peMin .. | .peAbs .. | .peNeg .. | .peScale .. | .peRint .. | .peCmp .. | .peSel .. | .peCvt .. | .peSteer ..
  | .peExp2 .. | .peExp .. | .peLog2 .. | .peLog .. | .peRcp .. | .peRsqrt .. | .peSkip .. | .peDiv ..
  | .aguLoadToken .. | .aguStoreToken .. | .streamConnect .. | .streamSendToken .. | .streamTokenArrival ..
  | .streamCreditArrival .. | .generatorEmit .. | .folioTrigger .. | .quiescenceTimeout .. | .folioCompletion ..
  | .cpGet .. | .cpPut .. | .cpMc .. | .cpWmArm .. | .cpWmDisarm .. | .cpWmRead .. | .cpShd .. | .gRows .. | .gEmb ..
  | .gScatFadd .. | .gScatIadd .. | .gScatOverwrite .. | .gKern .. | .pfuIndexLine .. | .filterPartialEvict ..
  | .neSend .. | .nePost .. | .neWrite .. | .neRead .. | .neXsend .. | .resendStoreCopy .. | .nePacketArrival ..
  | .neAckArrival .. | .neRetransmitTimer .. | .neReceiveTimeout .. | .neNotReadyRetry .. | .neMatchTimeout ..
  | .neReadRequestArrival .. | .portStateChange .. | .messageArrival .. | .carafeRefill .. | .dispatch .. | .resume ..
  | .longWaitRelease .. | .replyArrival .. | .stealRequestArrival .. | .stealAnswerArrival .. | .waitcWake ..
  | .sleepExpiry .. | .pubwaitWake .. | .fenceComplete .. | .loadReturn .. | .preemptionRequest ..
  | .maskoverTimeout .. | .counterUpdate .. | .postedAtomicPerform .. | .clusterPartialEvict .. | .diePartialEvict ..
  | .zfResolution .. | .faultResolved .. | .pageMigration .. | .retentionEntry .. | .retentionExit .. | .leafTurn ..
  | .ttsRecordArrival .. | .ttsRecordIssue .. | .ttsRefill .. | .groupContributionArrival .. | .groupPartialArrival ..
  | .groupResultArrival .. | .periodicLeaseDue .. | .leaseStart .. | .cuppingEnd .. | .retireAnswerTimeout ..
  | .scoreHalving .. | .gangReservation .. | .gangstall .. | .gangPlacement .. | .jobMoveBack .. | .startMarker ..
  | .configurationCompleteWave .. | .removeComplete .. | .wqEntryDelivery .. | .hostRmaWrite .. | .hostRmaRead ..
  | .doorbell .. | .controlRegisterWrite .. | .install | .remove | .inval | .faultCmd | .retans | .retire | .lease
  | .redlv | .nertx | .debug | .grpdis | .grpset | .carres | .moduleReset .. | .telemetry | .firmwareUpdate ..
  | .leasePolicy .. | .retirementRecordRead .. | .retirementRecordClear .. | .getVersion | .getCapabilities
  | .negotiateAlgorithms | .getDigests | .getCertificate .. | .challenge .. | .getMeasurements .. | .thermalTrip ..
  | .junctionLimit .. | .reservedEncoding .. | .clockGating .. | .karmosPowerOn => none

end Sys2Proof
end

