-- ==== Sys2Proof/Machine/Flags.lean ====
section
/-! DEFINITION. Exact numbers, rounding and the arithmetic flags: magnitudes (R5), rounding modes (R65, R71), the floating-point formats
(R52 to R54, R66), W36 (R56, R57), conversions of one element (R70), and the flags that each of them sets (R68). -/

namespace Sys2Proof.Machine

/-! ## Flags (R68) -/

/-- AFLAGS bits. -/
abbrev Flags := BitVec 8
def fINV : Flags := 0x01
def fOFL : Flags := 0x02
def fUFL : Flags := 0x04
def fINX : Flags := 0x08
def fSAT : Flags := 0x10
def fRANGE : Flags := 0x20
def fQNTF : Flags := 0x40
def fCHK : Flags := 0x80

/-- A flag where a condition holds. -/
def flagIf (c : Bool) (f : Flags) : Flags := if c then f else 0

/-! ## Exact magnitudes -/

/-- A non-negative real number: n/d, or the square root of n/d. -/
inductive Mag where
  | rat (n d : Nat)
  | sqrt (n d : Nat)
  deriving DecidableEq, Repr, Inhabited

/-- n times a power of two. -/
def Mag.dyad (n : Nat) (k : Int) : Mag := if 0 ≤ k then .rat (n * 2 ^ k.toNat) 1 else .rat n (2 ^ (-k).toNat)

/-- Whether a magnitude is zero. -/
def Mag.isZero : Mag → Bool
  | .rat n _ => n == 0
  | .sqrt n _ => n == 0

/-- One digit of an integer square root: `r` is the root so far, `bit` the digit tried. -/
def isqrtDigit (x r bit : Nat) : Nat := if (r + bit) * (r + bit) ≤ x then r + bit else r

/-- The integer square root, digit by digit from bit `k`. -/
def isqrtFrom (x : Nat) : Nat → Nat → Nat
  | 0, r => isqrtDigit x r 1
  | k + 1, r => isqrtFrom x k (isqrtDigit x r (2 ^ (k + 1)))

/-- The largest integer whose square does not exceed `x`. -/
def isqrt (x : Nat) : Nat := isqrtFrom x (Nat.log2 x / 2 + 1) 0

/-- Numerator and denominator of n/d divided by 2^k. -/
def scaleDown (n d : Nat) (k : Int) : Nat × Nat := if 0 ≤ k then (n, d * 2 ^ k.toNat) else (n * 2 ^ (-k).toNat, d)

/-- The number of whole units of 2^q in a magnitude. -/
def Mag.floorAt : Mag → Int → Nat
  | .rat n d, q => let p := scaleDown n d q; p.1 / p.2
  | .sqrt n d, q => let p := scaleDown n d (2 * q); isqrt (p.1 / p.2)

/-- Whether a magnitude reaches n/d units of 2^q. -/
def Mag.reaches (m : Mag) (q : Int) (n d : Nat) : Bool :=
  match m with
  | .rat a b => let p := scaleDown a b q; decide (n * p.2 ≤ p.1 * d)
  | .sqrt a b => let p := scaleDown a b (2 * q); decide (n * n * p.2 ≤ p.1 * (d * d))

/-- Whether a magnitude is a multiple of 2^q. -/
def Mag.exactAt : Mag → Int → Bool
  | .rat n d, q => let p := scaleDown n d q; p.1 % p.2 == 0
  | .sqrt n d, q => let p := scaleDown n d (2 * q); let f := isqrt (p.1 / p.2); f * f * p.2 == p.1

/-- The floor of log2 of n/d, for n and d above zero. -/
def ratLog2 (n d : Nat) : Int :=
  let e : Int := (Nat.log2 n : Int) - (Nat.log2 d : Int)
  let p := scaleDown n d e
  if p.2 ≤ p.1 then e else e - 1

/-- The floor of log2 of a magnitude above zero. -/
def Mag.log2 : Mag → Int
  | .rat n d => ratLog2 n d
  | .sqrt n d => Int.fdiv (ratLog2 n d) 2

/-! ## Rounding (R65, R71) -/

/-- The rounding modes; stochastic rounding carries its random bits and their number. -/
inductive RM where
  | rne | rtz | rdn | rup | rna
  | sr (r b : Nat)
  deriving DecidableEq, Repr, Inhabited

/-- A magnitude with its sign, rounded to a whole number of units of 2^q. -/
def roundAt (mode : RM) (neg : Bool) (m : Mag) (q : Int) : Nat :=
  let fl := m.floorAt q
  if m.exactAt q then fl
  else
    let upper := m.floorAt (q - 1) - 2 * fl == 1
    let tie := upper && m.exactAt (q - 1)
    match mode with
    | .rne => if tie then fl + fl % 2 else if upper then fl + 1 else fl
    | .rtz => fl
    | .rdn => if neg then fl + 1 else fl
    | .rup => if neg then fl else fl + 1
    | .rna => if upper then fl + 1 else fl
    | .sr r b => if r < m.floorAt (q - b) - fl * 2 ^ b then fl + 1 else fl

/-- A value rounded to an integer. -/
def roundInt (mode : RM) (neg : Bool) (m : Mag) : Int := let u := roundAt mode neg m 0; if neg then -(u : Int) else u

/-! ## Values -/

/-- A real number with a sign that zero keeps, an infinity, or a NaN. -/
inductive Val where
  | fin (neg : Bool) (n d : Nat)
  | inf (neg : Bool)
  | nan
  deriving DecidableEq, Repr, Inhabited

/-- A dyadic number. -/
def Val.dyad (neg : Bool) (n : Nat) (k : Int) : Val :=
  if 0 ≤ k then .fin neg (n * 2 ^ k.toNat) 1 else .fin neg n (2 ^ (-k).toNat)

/-- An integer as a value. -/
def Val.ofInt (i : Int) : Val := .fin (decide (i < 0)) i.natAbs 1

def Val.isNan : Val → Bool | .nan => true | _ => false
def Val.isFin : Val → Bool | .fin .. => true | _ => false
def Val.neg : Val → Bool | .fin s _ _ => s | .inf s => s | .nan => false
def Val.isZero : Val → Bool | .fin _ n _ => n == 0 | _ => false

/-- The value with its sign set. -/
def Val.withSign (s : Bool) : Val → Val | .fin _ n d => .fin s n d | .inf _ => .inf s | .nan => .nan
def Val.negate (v : Val) : Val := v.withSign (!v.neg)
def Val.abs (v : Val) : Val := v.withSign false

/-- Order of finite or infinite values, zeros of either sign equal: −1, 0 or 1. -/
def Val.cmp : Val → Val → Int
  | .fin s n d, .fin t m e =>
    let a : Int := (if s then -(n : Int) else n) * e
    let b : Int := (if t then -(m : Int) else m) * d
    if a < b then -1 else if a = b then 0 else 1
  | .inf s, .inf t => if s = t then 0 else if s then -1 else 1
  | .inf s, _ => if s then -1 else 1
  | _, .inf t => if t then 1 else -1
  | _, _ => 0

/-- The sign of an exact zero sum of operands of unlike sign: minus only toward minus infinity. -/
def zeroSign (mode : RM) : Bool := mode == .rdn

/-- The exact sum; ∞ + (−∞) is NaN. -/
def Val.add (mode : RM) : Val → Val → Val
  | .fin s n d, .fin t m e =>
    let a : Int := (if s then -(n : Int) else n) * e + (if t then -(m : Int) else m) * d
    if a = 0 then .fin (if s = t then s else zeroSign mode) 0 1 else .fin (decide (a < 0)) a.natAbs (d * e)
  | .nan, _ => .nan
  | _, .nan => .nan
  | .inf s, .inf t => if s = t then .inf s else .nan
  | .inf s, _ => .inf s
  | _, .inf t => .inf t

/-- The exact product; ∞ · 0 is NaN. -/
def Val.mul : Val → Val → Val
  | .fin s n d, .fin t m e => .fin (s != t) (n * m) (d * e)
  | .nan, _ => .nan
  | _, .nan => .nan
  | a, b => if a.isZero || b.isZero then .nan else .inf (a.neg != b.neg)

/-- The exact quotient; 0/0 and ∞/∞ are NaN, a non-zero number over zero is infinite. -/
def Val.div : Val → Val → Val
  | .fin s n d, .fin t m e => if m = 0 then (if n = 0 then .nan else .inf (s != t)) else .fin (s != t) (n * e) (d * m)
  | .nan, _ => .nan
  | _, .nan => .nan
  | .inf _, .inf _ => .nan
  | .inf s, b => .inf (s != b.neg)
  | a, .inf t => .fin (a.neg != t) 0 1

/-- a · b + c, exact. -/
def Val.fma (mode : RM) (a b c : Val) : Val := (a.mul b).add mode c

/-- INV where a NaN arises from operands that are not NaN (R68). -/
def invOf (r : Val) (ops : List Val) : Flags := flagIf (r.isNan && !ops.any Val.isNan) fINV

/-! ## Floating-point formats (R52) -/

/-- A format: exponent bits, fraction bits, code of the largest finite value, whether it has infinities. -/
structure FF where
  eb : Nat
  fb : Nat
  top : Nat
  inf : Bool
  nan : Nat
  deriving DecidableEq, Repr, Inhabited

def FF.fp32 : FF := ⟨8, 23, 0x7F7FFFFF, true, 0x7FC00000⟩
def FF.bf16 : FF := ⟨8, 7, 0x7F7F, true, 0x7FC0⟩
def FF.fp16 : FF := ⟨5, 10, 0x7BFF, true, 0x7E00⟩
def FF.e4m3 : FF := ⟨4, 3, 0x7E, false, 0x7F⟩
def FF.e5m2 : FF := ⟨5, 2, 0x7B, true, 0x7E⟩

/-- Bits of a format. -/
def FF.width (f : FF) : Nat := 1 + f.eb + f.fb
/-- The exponent of the smallest normal number. -/
def FF.emin (f : FF) : Int := 2 - 2 ^ (f.eb - 1)
/-- A code with its sign bit. -/
def FF.signed (f : FF) (neg : Bool) (code : Nat) : Nat := code + neg.toNat * 2 ^ (f.eb + f.fb)

/-- The value of a code. -/
def FF.value (f : FF) (c : Nat) : Val :=
  let neg := c / 2 ^ (f.eb + f.fb) % 2 == 1
  let a := c % 2 ^ (f.eb + f.fb)
  let e : Nat := a / 2 ^ f.fb
  let fr := a % 2 ^ f.fb
  if f.top < a then (if f.inf && fr == 0 then .inf neg else .nan)
  else if e = 0 then .dyad neg fr (f.emin - f.fb)
  else .dyad neg (2 ^ f.fb + fr) (f.emin - f.fb + (e - 1))

/-- The result of an overflow (R66) and its flags. -/
def FF.overflow (f : FF) (mode : RM) (neg : Bool) : Nat × Flags :=
  if f.inf then
    let toInf := match mode with | .rne => true | .rna => true | .rdn => neg | .rup => !neg | _ => false
    (f.signed neg (if toInf then f.top + 1 else f.top), fOFL ||| fINX)
  else (f.signed neg f.top, fOFL ||| fSAT ||| fINX)

/-- Whether a magnitude, rounded with no bound on the exponent, lies below the smallest normal number (R54). -/
def FF.tiny (f : FF) (mode : RM) (neg : Bool) (m : Mag) : Bool :=
  let e := m.log2
  decide (e < f.emin) && !(decide (e = f.emin - 1) && roundAt mode neg m (e - f.fb) == 2 ^ (f.fb + 1))

/-- A magnitude with its sign, rounded to a format (R54, R66): code and flags. -/
def FF.round (f : FF) (mode : RM) (neg : Bool) (m : Mag) : Nat × Flags :=
  if m.isZero then (f.signed neg 0, 0)
  else
    let e : Int := if m.log2 < f.emin then f.emin else m.log2
    let q := e - f.fb
    let code := (e - f.emin).toNat * 2 ^ f.fb + roundAt mode neg m q
    if f.top < code then f.overflow mode neg
    else
      let inx := !m.exactAt q
      (f.signed neg code, flagIf inx fINX ||| flagIf (inx && f.tiny mode neg m) fUFL)

/-- A value rounded to a format; NaN gives the default NaN, E4M3 has no infinity (R53, R70). -/
def FF.ofVal (f : FF) (mode : RM) : Val → Nat × Flags
  | .fin s n d => f.round mode s (.rat n d)
  | .inf s => if f.inf then (f.signed s (f.top + 1), 0) else (f.nan, fINV)
  | .nan => (f.nan, 0)

/-- The rounded result of an operation on values, with INV where it made a NaN. -/
def FF.result (f : FF) (mode : RM) (r : Val) (ops : List Val) : Nat × Flags :=
  let p := f.ofVal mode r
  (p.1, p.2 ||| invOf r ops)

/-- The FP32 sum of an atomic or commutative update (R128). -/
def fadd32 (a b : W32) : W32 :=
  BitVec.ofNat 32 (FF.fp32.ofVal .rne (Val.add .rne (FF.fp32.value a.toNat) (FF.fp32.value b.toNat))).1

/-! ## W36 (R56, R57) -/

/-- The default NaN of W36. -/
def w36NaN : W36 := 0x7FF000000
/-- A W36 infinity. -/
def w36Inf (neg : Bool) : W36 := BitVec.ofNat 36 (neg.toNat * 2 ^ 35 + 0x3FF * 2 ^ 25)
/-- The largest finite W36 of a sign. -/
def w36Max (neg : Bool) : W36 := BitVec.ofNat 36 (neg.toNat * 2 ^ 35 + 0x3FE * 2 ^ 25 + (2 ^ 25 - 1))
/-- A W36 zero. -/
def w36Zero (neg : Bool) : W36 := BitVec.ofNat 36 (neg.toNat * 2 ^ 35)

/-- The value of a W36 pattern. -/
def w36Value (c : W36) : Val :=
  let neg := c.toNat / 2 ^ 35 == 1
  let e : Nat := c.toNat / 2 ^ 25 % 2 ^ 10
  let sig : Nat := c.toNat % 2 ^ 25
  if e = 0 then .fin neg 0 1
  else if e = 0x3FF then (if sig = 0 then .inf neg else .nan)
  else .dyad neg sig ((e : Int) - 535)

/-- A magnitude rounded to W36 (R57): result and flags. -/
def w36Round (mode : RM) (neg : Bool) (m : Mag) : W36 × Flags :=
  if m.isZero then (w36Zero neg, 0)
  else
    let e0 := m.log2
    let u0 := roundAt mode neg m (e0 - 24)
    let carry := u0 == 2 ^ 25
    let e := if carry then e0 + 1 else e0
    let u := if carry then 2 ^ 24 else u0
    let inx := flagIf (!m.exactAt (e0 - 24)) fINX
    if 511 < e then
      let toInf := match mode with | .rne => true | .rna => true | .rdn => neg | .rup => !neg | _ => false
      (if toInf then w36Inf neg else w36Max neg, fOFL ||| fINX)
    else if e < -510 then (w36Zero neg, fUFL ||| fINX)
    else (BitVec.ofNat 36 (neg.toNat * 2 ^ 35 + (e + 511).toNat * 2 ^ 25 + u), inx)

/-- A value as W36. -/
def w36OfVal (mode : RM) : Val → W36 × Flags
  | .fin s n d => w36Round mode s (.rat n d)
  | .inf s => (w36Inf s, 0)
  | .nan => (w36NaN, 0)

/-- The W36 result of an operation on values. -/
def w36Result (mode : RM) (r : Val) (ops : List Val) : W36 × Flags :=
  let p := w36OfVal mode r
  (p.1, p.2 ||| invOf r ops)

/-! ## Integers (R55, R70) -/

/-- The two's-complement reading of the low w bits. -/
def sextNat (w v : Nat) : Int := let u : Nat := v % 2 ^ w; if u < 2 ^ (w - 1) then (u : Int) else (u : Int) - (2 ^ w : Nat)

/-- The low w bits of an integer. -/
def lowBits (w : Nat) (i : Int) : Nat := (Int.emod i ((2 ^ w : Nat) : Int)).toNat

/-- A value converted to a signed integer of w bits (R70): a value outside the range of w bits, before it is rounded, gives the nearest bound. -/
def intOfVal (mode : RM) (w : Nat) : Val → Int × Flags
  | .fin s n d =>
    let hi : Int := 2 ^ (w - 1) - 1
    let lo : Int := -(2 ^ (w - 1))
    let v : Int := if s then -(n : Int) else n
    if hi * d < v then (hi, fSAT ||| fINX) else if v < lo * d then (lo, fSAT ||| fINX)
    else (roundInt mode s (.rat n d), flagIf (!(Mag.rat n d).exactAt 0) fINX)
  | .inf s => (if s then -(2 ^ (w - 1)) else 2 ^ (w - 1) - 1, fINV)
  | .nan => (0, fINV)

end Sys2Proof.Machine
end

