-- ==== Sys2Proof/Config.lean ====
section
/-! DEFINITION. What an implementation of the Z3 fixes and the spec leaves open: constants without a body, so that no proof can see a
value of them, and the shape of a job image, whose byte format the spec does not give (R376). -/

namespace Sys2Proof

/-- A handler table entry (R19, R341): id, byte offset of the entry in the job's code, urgent or normal, trap routine. -/
structure HandlerEntry where
  id : Nat
  off : Nat
  urgent : Bool
  trap : Option Nat
  deriving DecidableEq, Repr, Inhabited

/-- A counter preset (R46, R48, R192): number, threshold, action code, rearm, handler and record address. -/
structure Preset where
  id : Nat
  thresh : W32
  act : BitVec 2
  rearm : Bool
  hid : BitVec 12
  ttra : W64
  deriving DecidableEq, Repr, Inhabited

/-- What a job image holds (R19, R46, R376): code, handlers, presets, the counter allotment (R192), the spad data, the t1 and t2
blocks with their addresses, the shadow-region table and the group table as the doublewords of their `.data` blocks. -/
structure JobImage where
  code : List W32
  handlers : List HandlerEntry
  presets : List Preset
  allot : Nat
  spad : List Byte
  blocks : List (Nat × List Byte)
  shadow : List W64
  groups : List W64
  deriving DecidableEq, Repr, Inhabited

/-- The special functions of R211. -/
inductive SFn where
  | exp2 | log2 | exp | log | sin | cos | rcp | rsqrt | sig | tanh
  deriving DecidableEq, Repr, Inhabited

namespace Config

/-- The move that comes next when the agenda is empty: free, one for each value of the counter `freeN` (log entry 3). -/
opaque freeMove : Nat → Move

/-- The job image that the bytes of an image give, none when they are malformed (R376 gives no byte format; log entry 7). -/
opaque parseImage : List Byte → Option JobImage

/-- The address of a cluster's context region in KiB (R163, R352; log entry 8). -/
opaque ctxSlot : Nat → Fin (2 ^ 40)

/-- Where between two neighbouring numbers of a format the result of a special function steps to the next number, as n/(d + 1) of the way, for
a function, what its choice may depend on, the lower of the two numbers, and the step (R211; log entry 9). -/
opaque ulps : SFn → Nat → Nat → Nat → Nat × Nat

/-- The result of a special function at +∞ where the spec states none (R212; log entry 9). -/
opaque openWord : SFn → W32
opaque openW36 : SFn → W36

/-- Which of the 16 differing entries of a large page is used (R110), by the address of the first (log entry 10). -/
opaque largeEntry : Nat → Fin 16

/-- Which of the memory channels of its home die holds a line of T1 or T2 (R16, R358, R362; log entry 11). -/
opaque channelOf : Nat → Nat

/-- Which entry of a full translation cache makes room (R112 gives no policy; log entry 56). -/
opaque victim : Nat → Nat

/-- How far behind the newest asynchronous writes a load reads (R146; log entry 57). -/
opaque copyAge : Nat → Nat

/-- Which unit in flight, if any, reaches a deque between two pops of one VREFILL (R216; log entry 68). -/
opaque between : Nat → Nat

/-- How many instructions the runtime executes for SWTRAP 0 beside its TRET (R339; log entry 5). -/
opaque runtimeCount : Nat → Nat

/-- How many cycles the clock of a core slowed by its junction leaves out (R101, R380; log entry 16). -/
opaque clockLost : Nat → Nat

/-- Which port of its route a message takes (R328: not part of the architecture; log entry 70). -/
opaque nePort : Nat → Nat

/-- The exponent, plus 512, of a triangle row or vector whose exponent passes the 10 bits that R62 gives it, by its mantissas and that exponent
(R62, R250; log entry 60). -/
opaque farRow : List Int → Int → Fin 1024

/-- REASON of the message of a link that returns to service after a failed cupping (R361, R363; log entry 73). -/
opaque linkReason : W32 → Byte

/-- UNIT, REASON, OLD and NEW of the message that tells of a group that the host disables, by job and group (R325, R363; log entry 72). -/
opaque groupNote : Nat → Nat → W32 × Byte × W32 × W32

/-- The pattern set that a cupping of a unit runs (R359; log entry 12). -/
opaque cuppingId : W32 → BitVec 16

/-- Signatures, hashes and certificates of Karmos (R25, R365, R381; log entry 13). -/
opaque rsaSign : List Byte → List Byte
opaque slhSign : List Byte → List Byte
opaque sha384 : List Byte → List Byte
opaque certChain : List Byte
opaque measurement : Nat → List Byte

/-- The router group entry that doubleword 3 of GRPSET gives: parent direction, child mask, local count (R375 gives no format; log
entry 29). -/
opaque groupEntry : W64 → Option (Fin 4) × BitVec 4 × Fin 17

/-- A sensor reading of Karmos (R379): power, temperature; free at each report (log entry 14). -/
opaque reading : Nat → Nat → Nat

end Config

end Sys2Proof
end

