-- ==== Sys2Proof/Machine/Map.lean ====
section
/-! DEFINITION. Sparse data by key: a list of key and value pairs with keys strictly rising and no entry equal to the value that an
unlisted key reads as, so that equal contents are equal lists. Memory, register files and the records of units use it. -/

namespace Sys2Proof

/-- A sparse map from numbers. -/
abbrev FMap (α : Type) := List (Nat × α)

/-- The value at a key; `d` where the key is not listed. -/
def FMap.get {α : Type} (d : α) : FMap α → Nat → α
  | [], _ => d
  | (k, v) :: t, i => if k = i then v else FMap.get d t i

/-- The map without a key. -/
def FMap.erase {α : Type} : FMap α → Nat → FMap α
  | [], _ => []
  | (k, v) :: t, i => if k = i then FMap.erase t i else (k, v) :: FMap.erase t i

/-- A pair put in its place in the rising order. -/
def FMap.insert {α : Type} : FMap α → Nat → α → FMap α
  | [], i, v => [(i, v)]
  | (k, w) :: t, i, v => if i < k then (i, v) :: (k, w) :: t else (k, w) :: FMap.insert t i v

/-- The map with a key set; setting the value `d` unlists the key. -/
def FMap.set {α : Type} [DecidableEq α] (d : α) (m : FMap α) (i : Nat) (v : α) : FMap α :=
  if v = d then FMap.erase m i else FMap.insert (FMap.erase m i) i v

/-- The canonical form above a bound: keys rise from it, and no value is `d`. -/
def FMap.wfFrom {α : Type} [DecidableEq α] (d : α) : Nat → FMap α → Bool
  | _, [] => true
  | lo, (k, v) :: t => decide (lo ≤ k) && decide (v ≠ d) && FMap.wfFrom d (k + 1) t

/-- The canonical form. -/
def FMap.wf {α : Type} [DecidableEq α] (d : α) (m : FMap α) : Bool := FMap.wfFrom d 0 m

/-- A set of numbers: a rising list without repeats. -/
abbrev NSet := List Nat

/-- Membership. -/
def NSet.has : NSet → Nat → Bool
  | [], _ => false
  | k :: t, i => decide (k = i) || NSet.has t i

/-- The set without a number. -/
def NSet.del : NSet → Nat → NSet
  | [], _ => []
  | k :: t, i => if k = i then NSet.del t i else k :: NSet.del t i

/-- A number put in its place. -/
def NSet.insert : NSet → Nat → NSet
  | [], i => [i]
  | k :: t, i => if i < k then i :: k :: t else k :: NSet.insert t i

/-- The set with a number. -/
def NSet.add (m : NSet) (i : Nat) : NSet := NSet.insert (NSet.del m i) i

end Sys2Proof
end

