-- ==== Sys2Proof/Machine/State.lean ====
section
/-! DEFINITION. The state of the module as plain data: every piece of state the spec names (INVENTORY.md, State, cites the rule of
each), the faults and refusals of the model, and the state after reset. Keys: cluster `ck` = 64·die + cluster, core key =
16·ck + core, bank key = 5·core key + bank. -/

namespace Sys2Proof.Machine

/-- Why the machine stops with a fault. No behaviour of the spec does. -/
inductive Fault where
  /-- Raised by nothing: every trap of the spec is taken as a next state (R338). Safe. -/
  | never
  deriving DecidableEq, Repr

/-- Why the machine refuses a step. -/
inductive Refusal where
  /-- Raised by an arm of `exec` whose instruction has no meaning yet. Safe: no claim about a next state holds of it. -/
  | notModelled (mnemonic : String)
  deriving DecidableEq, Repr

/-! ## Memory accesses that wait -/

/-- A page as the fault buffer names it (R114): job, table level of the not-present entry, and index of the page at that level. -/
structure PageKey where
  job : Nat
  lvl : Nat
  idx : Nat
  deriving DecidableEq, Repr, Inhabited

/-- Where the data of a load goes: a scalar register, sign-extended or not (R82); these elements of w bits of a vector register (R217); the payload of
the buffered send at position `k` of the activation's effects (R195, R350). -/
inductive LoadDest where
  | x (r : Nat) (sx : Bool)
  | v (r w : Nat) (els : NSet)
  | pay (k : Nat)
  deriving DecidableEq, Repr, Inhabited

/-- One aligned access of a load: the element or word it gives, and its data with their poison once it is performed. -/
structure LoadPart where
  el : Nat
  got : Option (Nat × Bool)
  deriving DecidableEq, Repr, Inhabited

/-- An outstanding load of an activation (R121, R350): its number, destination, bytes of each part, whether it is an acquire (R142, edge 2),
whether it was issued in service mode, whose x1 to x7 are other registers (R88, R338), its parts. -/
structure Outst where
  id : Nat
  dest : LoadDest
  n : Nat
  acq : Bool
  svc : Bool
  parts : List LoadPart
  deriving DecidableEq, Repr, Inhabited

/-- What a waiting activation waits for (R158); a steal names the bank and slot that its answer frees (R184), a fence whether its scope is dom
(R154). -/
inductive Wait where
  | none
  | counter (rd c t : Nat)
  | sleep
  | pub (rd g w : Nat)
  | steal (rd bk slot : Nat)
  | fence (dom : Bool)
  | parked (pg : PageKey) (die va kind reg size : Nat)
  | debug
  deriving DecidableEq, Repr, Inhabited

/-- The states of a bank (R158). -/
inductive BankSt where
  | free | running | waiting
  deriving DecidableEq, Repr, Inhabited

/-! ## Messages and effects -/

/-- A message: header doublewords (R178, R179, R99), payload words and their poison. -/
structure Msg where
  h0 : W64
  h1 : W64
  pay : List W64
  pois : List Bool
  deriving DecidableEq, Repr, Inhabited

/-- A message in a handler queue (R186): its job, handler and priority, the core it is restricted to, whether it holds an entry of
the queue space, and for a reply the bank and slot it lies in (R184). -/
structure QMsg where
  job : Nat
  hid : Nat
  urg : Bool
  core : Option Nat
  entry : Bool
  slot : Option (Nat × Nat)
  m : Msg
  deriving DecidableEq, Repr, Inhabited

/-- The counter updates (R193, R197). -/
inductive CntOp where
  | add (a : W32)
  | set (v : W32)
  | arm (thresh : W32) (rearm : Bool)
  deriving DecidableEq, Repr, Inhabited

/-- The operations at an atomic node or HA (R128, R131). -/
inductive AtomOp where
  | add | swap | xor | cas | fadd | or | and | min | max | minu | maxu
  deriving DecidableEq, Repr, Inhabited

/-- A posted atomic or remote commutative update (R130, R131): activation, whether it is a release, job, address, operation, width in
bytes, operand, expected value. -/
structure Posted where
  act : Nat
  rl : Bool
  job : Nat
  va : Nat
  op : AtomOp
  n : Nat
  s : W64
  c : W64
  deriving DecidableEq, Repr, Inhabited

/-- A buffered effect of an activation (R162, R345). -/
inductive Effect where
  | send (m : Msg) (slot : Option (Nat × Nat))
  | cnt (ck job c : Nat) (op : CntOp)
  | atomic (p : Posted)
  | record (ck : Nat) (words : List W64)
  | contrib (g : Nat) (vals : List W32) (pois : List Bool)
  deriving DecidableEq, Repr, Inhabited

/-- A buffered effect with the core whose send-queue entry it holds, if it holds one, and whether bank 4 took it (R183). -/
structure Buffered where
  eff : Effect
  sq : Option Nat
  urg : Bool
  deriving DecidableEq, Repr, Inhabited

/-- A contribution that waits at a bank or a router (R324, R326), with the key of the bank that made it. -/
structure Contrib where
  job : Nat
  g : Nat
  bk : Nat
  vals : List W32
  pois : List Bool
  deriving DecidableEq, Repr, Inhabited

/-- A parked access that is left to reissue (R350 to R353): its address, its kind (1 a scalar load, 3 a store), its register, its size code. -/
structure Redo where
  va : Nat
  kind : Nat
  reg : Nat
  size : Nat
  deriving DecidableEq, Repr, Inhabited

/-! ## Banks and cores -/

/-- One register bank and the activation it holds (R20, R79, R91). `loads` are its loads whose data has not arrived (R121); `owed` is what
the activation waited for when it was pre-empted; `redo` is a parked access to reissue before the next instruction (R350, R352); `slotJob` is the job
that reserved each reply slot in use (R196). -/
structure Bank where
  pc : W64
  st : BankSt
  wait : Wait
  service : Bool
  x : FMap W64
  xp : FMap Bool
  svc : FMap W64
  svcp : FMap Bool
  v : FMap V256
  vp : FMap (BitVec 8)
  p : FMap W32
  chki : W64
  aflags : W64
  rndm : W64
  vcfg : W64
  lglen : W64
  lgact : W64
  sqtraps : BitVec 16
  maskOn : Bool
  maskLeft : Nat
  maskStart : Nat
  maskDue : Nat
  vstr : W64
  tcause : W64
  tval : W64
  tepc : W64
  tstat : W64
  tvec : W64
  seq : Nat
  job : Nat
  hid : Nat
  msg : QMsg
  cursor : Nat
  buf : List Buffered
  reply : Option Msg
  slots : NSet
  slotJob : FMap Nat
  entries : Nat
  preempt : Option PreReason
  loads : List Outst
  owed : Wait
  redo : Option Redo
  since : Nat
  deadline : Option Nat
  deriving DecidableEq, Repr, Inhabited

/-- The bank after reset: every field at the value the spec gives (VCFG.EW = 10, MASKW.LEFT = 256), registers zero (log entry 1). -/
def Bank.init : Bank :=
  { pc := 0, st := .free, wait := .none, service := false, x := [], xp := [], svc := [], svcp := [], v := [], vp := [], p := [],
    chki := 0, aflags := 0, rndm := 0, vcfg := 2, lglen := 0, lgact := 0, sqtraps := 0, maskOn := false, maskLeft := 256,
    maskStart := 0, maskDue := 0, vstr := 0, tcause := 0, tval := 0, tepc := 0, tstat := 0, tvec := 0, seq := 0, job := 0, hid := 0,
    msg := ⟨0, 0, false, .none, false, .none, ⟨0, 0, [], []⟩⟩, cursor := 0, buf := [], reply := .none, slots := [], slotJob := [], entries := 0,
    preempt := .none, loads := [], owed := .none, redo := .none, since := 0, deadline := .none }

/-- A range of the deque (R169). -/
structure Range where
  lo : Nat
  hi : Nat
  job : Nat
  deriving DecidableEq, Repr, Inhabited

/-- A handler core: its deque, bottom first, DQSTAT counters, the normal bank that issued last, the cycle from which it may issue again, and
the banks whose next instruction is not ready, or whose unit is not free, for a latency or an occupancy (R73, R79, R96, R103, R169), and the cycles
that its slowed clock has left out (R101). -/
structure Core where
  dq : List Range
  taken : BitVec 16
  given : BitVec 16
  last : Nat
  next : Nat
  busy : NSet
  lost : Nat
  deriving DecidableEq, Repr, Inhabited

/-- The core after reset (R96; `last` is log entry 1). -/
def Core.init : Core := { dq := [], taken := 0, given := 0, last := 3, next := 0, busy := [], lost := 0 }

/-- An arrival counter (R192). -/
structure Counter where
  count : W32
  thresh : W32
  armed : Bool
  rearm : Bool
  act : BitVec 2
  hid : BitVec 12
  ttra : W64
  fires : W32
  deriving DecidableEq, Repr, Inhabited

/-- A counter without a preset (R192). -/
def Counter.init : Counter :=
  { count := 0, thresh := 1, armed := false, rearm := false, act := 0, hid := 0, ttra := 0, fires := 0 }

/-- A saved activation: its entry of the context region, whether it is ready to resume, whether its wait is not over, and what the context does
not hold (R348, R350, R351). -/
structure Saved where
  idx : Nat
  urg : Bool
  ready : Bool
  waits : Bool
  bank : Bank
  deriving DecidableEq, Repr, Inhabited

/-! ## Engines -/

/-- A queued TCW: its four words, the job that queued it, and the pool record it came from (R36, R225, R234). -/
structure QCmd where
  w0 : W64
  w1 : W64
  w2 : W64
  w3 : W64
  job : Nat
  tts : Option Nat
  deriving DecidableEq, Repr, Inhabited

/-- An entry of a PFU's recent-index filter (R313): target, output row, the bytes of its row or partial row with their poison, the
positions it gathered. -/
structure FEnt where
  target : Nat
  row : Nat
  part : List (Byte × Bool)
  pos : Nat
  deriving DecidableEq, Repr, Inhabited

/-- A gather in progress: next position, the indices of the line at hand with their poison, the targets found of positions not yet looked up (position,
0 a row, 1 invalid, 2 missing, the row), result counts and flags, the filter, least
recently used first, and the pooled rows of the bag at hand, their number and poison (R312 to R315). -/
structure Gather where
  next : Nat
  line : List (Nat × Bool)
  ahead : List (Nat × Nat × Nat)
  inval : Nat
  miss : Nat
  hits : Nat
  flags : BitVec 4
  filter : List FEnt
  bag : List W32
  bagN : Nat
  bagP : Bool
  deriving DecidableEq, Repr, Inhabited

/-- A command that an engine unit runs: progress, saved numbers, the page it is parked on, parts of it that are parked alone, each with
whether its resolution failed (R262), a gather's progress (R225, R228). -/
structure RunCmd where
  unit : Nat
  cmd : QCmd
  prog : Nat
  aux : List Nat
  parked : Option PageKey
  held : List (Nat × PageKey × Bool)
  gather : Option Gather
  deriving DecidableEq, Repr, Inhabited

/-- What the engine status of a unit tells of completed commands (R238). -/
structure EngStat where
  tag : BitVec 16
  errcode : Byte
  errtag : BitVec 16
  errcnt : Byte
  deriving DecidableEq, Repr, Inhabited

/-- The status of a unit that has completed no command. -/
def EngStat.init : EngStat := { tag := 0, errcode := 0, errtag := 0, errcnt := 0 }

/-- An engine's queue, what its units run, and the status of each (R225, R238). -/
structure EngQ where
  q : List QCmd
  runs : List RunCmd
  stat : FMap EngStat
  deriving DecidableEq, Repr, Inhabited

/-- An accumulator tile (R219, R220): elements at 128·row + column that differ from the fill value, poisoned elements,
configuration, cell program, LIVE, FREE, OWNER and flags [7:0]. -/
structure Tile where
  elems : FMap W36
  pois : NSet
  fill : W36
  rowm1 : Nat
  colm1 : Nat
  isRec : Bool
  mprog : W64
  live : Bool
  free : Bool
  owner : Nat
  flags : Byte
  deriving DecidableEq, Repr, Inhabited

/-- A tile after reset (R220). -/
def Tile.init : Tile :=
  { elems := [], pois := [], fill := 0, rowm1 := 127, colm1 := 127, isRec := false, mprog := 0, live := false, free := true, owner := 0, flags := 0 }

/-- ROWPROG (R228). -/
structure RowProg where
  tag : BitVec 16
  tile : Nat
  park : Bool
  valid : Bool
  kb : Nat
  next : Nat
  deriving DecidableEq, Repr, Inhabited

/-- A row of a triangle set: mantissas from the diagonal on, exponent, gain count, poison (R247, R255). -/
structure TriRow where
  ms : List Int
  x : Int
  g : Nat
  pois : Bool
  deriving DecidableEq, Repr, Inhabited

/-- A triangle set (R247): flags are CHK, PSN, SING, OFL, INV from bit 4 down; `skipped` counts rows skipped (R263). -/
structure Tri where
  nc : Nat
  rows : List TriRow
  nabs : Nat
  flags : BitVec 5
  free : Bool
  owner : Nat
  skipped : Nat
  deriving DecidableEq, Repr, Inhabited

/-- A triangle set after reset: one column, empty, free (R247: NCM1 = 0, EMPTY = 1, FREE = 1). -/
def Tri.init : Tri := { nc := 1, rows := [⟨[0], 0, 0, false⟩], nabs := 0, flags := 0, free := true, owner := 0, skipped := 0 }

/-- A lane group of the RTA (R246, R264): BADP, FIN and the current or last problem. -/
structure RtaGroup where
  act : Bool
  nc : Nat
  set : Nat
  left : Nat
  prob : Option Nat
  badp : Nat
  fin : Bool
  deriving DecidableEq, Repr, Inhabited

/-- A lane group after reset. -/
def RtaGroup.init : RtaGroup := { act := false, nc := 0, set := 0, left := 0, prob := .none, badp := 0, fin := false }

/-- The rotator array (R246 to R248). -/
structure Rta where
  free : Bool
  owner : Nat
  part : Nat
  groups : FMap RtaGroup
  sets : FMap Tri
  deriving DecidableEq, Repr, Inhabited

/-- A fabric token (R269). -/
structure Token where
  data : W36
  tag : BitVec 2
  pois : Bool
  deriving DecidableEq, Repr, Inhabited

/-- An edge AGU of a running folio (R278 to R280): element it stands at, port buffers, receive buffer, elements left of the current gated
block, where it is fetched, connection, tokens unacknowledged, parked page. -/
structure Agu where
  moved : Nat
  dport : List Token
  cport : List Token
  buf : List Token
  gate : Option Nat
  conn : Bool
  out : Nat
  parked : Option PageKey
  deriving DecidableEq, Repr, Inhabited

/-- An AGU at element 0 (R285). -/
def Agu.init : Agu :=
  { moved := 0, dport := [], cport := [], buf := [], gate := .none, conn := false, out := 0, parked := .none }

/-- A running folio (R285, R286): slot, switches allowed and made, PE input channels (4·PE + channel), output lines
(4·PE + output), holds, predicates, AGUs, generators: tokens emitted that a destination still holds and the state behind the last one
that none holds, how many of the last of them a destination has discarded, since when it quiesces, and whether its remaining tokens have been
discarded. -/
structure FRun where
  slot : Nat
  maxsw : Nat
  sw : Nat
  chans : FMap (List Token)
  outs : FMap (List Token)
  holds : FMap Token
  preds : FMap (BitVec 4)
  agus : FMap Agu
  gens : FMap (List Token)
  genSt : FMap W64
  dead : FMap Nat
  quiet : Option Nat
  spent : Bool
  deriving DecidableEq, Repr, Inhabited

/-- A fabric region (R283, R287, R288): owner, folio images, status, generator states. -/
structure Fr where
  free : Bool
  owner : Nat
  slots : FMap (List Byte)
  cur : Nat
  flags : Byte
  drops : Nat
  switches : Nat
  skips : Nat
  gens : FMap W64
  moved : FMap Nat
  run : Option FRun
  deriving DecidableEq, Repr, Inhabited

/-- The fabric region after reset (R287). -/
def Fr.init : Fr :=
  { free := true, owner := 0, slots := [], cur := 0, flags := 0, drops := 0, switches := 0, skips := 0, gens := [], moved := [], run := .none }

/-- A watermark channel (R299). -/
structure Wm where
  owner : Option Nat
  armed : Bool
  err : Bool
  base : Nat
  len : Nat
  bits : NSet
  deriving DecidableEq, Repr, Inhabited

/-- A free watermark channel. -/
def Wm.init : Wm := { owner := .none, armed := false, err := false, base := 0, len := 0, bits := [] }

/-- The states of a pooled tile-task record (R233). -/
inductive RecSt where
  | pooled | issued
  deriving DecidableEq, Repr, Inhabited

/-- A record of the ready pool: its number in the order of entry, job, sixteen doublewords (R230, R233). -/
structure TtsRec where
  id : Nat
  job : Nat
  words : List W64
  st : RecSt
  deriving DecidableEq, Repr, Inhabited

/-- The router group entry of a tree router (R321): parent direction (0 N, 1 E, 2 S, 3 W; none at the root), child directions, local count. -/
structure GrpEntry where
  parent : Option Nat
  children : List Nat
  lcl : Nat
  deriving DecidableEq, Repr, Inhabited

/-- A combined value of a group round: words, poison of each word, and INV, OFL, INX, PSN (R324). -/
structure GrpVal where
  vals : List W32
  pois : List Bool
  flags : BitVec 4
  deriving DecidableEq, Repr, Inhabited

/-- A result and ROUNDS that a later round of a group replaced (R146, R323, R327): the activations to which they can no longer be returned, and those that
have read what replaced them or a later result. -/
structure GrpOld where
  result : GrpVal
  rounds : W32
  seen : NSet
  read : NSet
  deriving DecidableEq, Repr, Inhabited

/-- The state of one group at one router (R323, R324, R327): entry, disabled, child values by direction, contributions of this
round and the next, whether this round's value has been sent up, the last result, ROUNDS, and the results before it, newest first. -/
structure GrpSt where
  entry : Option GrpEntry
  dis : Bool
  parts : FMap (Option GrpVal)
  conts : List Contrib
  next : List Contrib
  sent : Bool
  result : GrpVal
  rounds : W32
  old : List GrpOld
  deriving DecidableEq, Repr, Inhabited

/-- A group at a router before its first round. -/
def GrpSt.init : GrpSt :=
  { entry := .none, dis := false, parts := [], conts := [], next := [], sent := false, result := ⟨[], [], 0⟩, rounds := 0, old := [] }

/-- A posted receive (R333). -/
structure Recv where
  job : Nat
  rq : Nat
  base : Nat
  len : Nat
  crec : Nat
  cmd : QCmd
  deriving DecidableEq, Repr, Inhabited

/-! ## Clusters -/

/-- A job's scratchpad run on a cluster, first segment and segments (R105), or its run of counters, in blocks of 64 (R192). -/
structure Run where
  job : Nat
  seg : Nat
  n : Nat
  deriving DecidableEq, Repr, Inhabited

/-- The round-robin position of the HQM for one priority (R165): last job visited, dispatches left of its share, next source. -/
structure Rr where
  job : Nat
  left : Nat
  src : FMap Nat
  deriving DecidableEq, Repr, Inhabited

/-- One cluster (R13). -/
structure Cluster where
  lost : Nat
  gated : Bool
  runs : List Run
  cnts : List Run
  queue : List QMsg
  saved : List Saved
  seq : Nat
  urgRun : Nat
  rrN : Rr
  rrU : Rr
  retEn : Bool
  retIdle : Nat
  inret : NSet
  entering : NSet
  lastAcc : FMap Nat
  eng : FMap EngQ
  tiles : FMap Tile
  rowprog : RowProg
  rta : Rta
  fr : Fr
  wm : FMap Wm
  kern : FMap (Option (Nat × List W32))
  tts : List TtsRec
  ttsNext : Nat
  recvs : List Recv
  deriving DecidableEq, Repr, Inhabited

/-- An engine queue after reset. -/
def EngQ.init : EngQ := { q := [], runs := [], stat := [] }

/-- The cluster after reset. -/
def Cluster.init : Cluster :=
  { lost := 0, gated := false, runs := [], cnts := [], queue := [], saved := [], seq := 0, urgRun := 0, rrN := ⟨0, 0, []⟩, rrU := ⟨0, 0, []⟩,
    retEn := false, retIdle := 500, inret := [], entering := [], lastAcc := [], eng := [], tiles := [], rowprog := ⟨0, 0, false, false, 0, 0⟩,
    rta := ⟨true, 0, 0, [], []⟩, fr := Fr.init, wm := [], kern := [], tts := [], ttsNext := 0, recvs := [] }

/-! ## Dies -/

/-- An entry of a fault buffer (R114, R117): page, faulting address, whether a waiter writes, kind (1 ZF, 2 MIG, 3 other), the T2
bit of the entry, the entry's location, waiters, how it is resolved (0 not in the buffer yet, 1 by the die, 2 by the host, who has been
asked). -/
structure FaultEnt where
  pg : PageKey
  va : Nat
  wr : Bool
  kind : Nat
  t2 : Bool
  loc : Nat
  waiters : Nat
  mode : Nat
  deriving DecidableEq, Repr, Inhabited

/-- A message being sent (R328 to R335): its number, cluster and job, destination, the command behind it and the number of the command's
first message, body, bytes per packet, ROD, ACKL, length, source, the copy in the resend store, the CRC32C of each packet first sent, packets
that have left, packets acknowledged, resends and last departure of each packet, expired timers that the host decides on (event, packet),
whether it waits to start, whether LCMP is counted, an error of another message of its command, when it started and when it was last
answered "not ready", the reply slot a request holds, the page its source read is parked on, the port it is sent through. -/
structure NeTx where
  mid : Nat
  ck : Nat
  job : Nat
  dmod : Nat
  dck : Nat
  cmd : Option QCmd
  grp : Nat
  body : Body
  psize : Nat
  rod : Bool
  ackl : Bool
  len : Nat
  src : Nat
  copy : Option (List (Byte × Bool))
  crcs : FMap W32
  sent : Nat
  acked : NSet
  resends : FMap Nat
  timers : FMap Nat
  asked : List (Nat × Nat)
  waitRoom : Bool
  lcmp : Bool
  err : Nat
  started : Nat
  notReady : Option Nat
  slot : Option (Nat × Nat)
  parked : Option PageKey
  port : Option Nat
  deriving DecidableEq, Repr, Inhabited

/-- A message being received, or received (R329, R382): packets that have arrived, the receive it fills, when the last packet arrived,
whether it has ended and with which error. -/
structure NeRx where
  src : Nat
  mid : Nat
  ck : Nat
  job : Nat
  body : Body
  total : Nat
  got : NSet
  target : Option Recv
  last : Nat
  done : Bool
  rod : Bool
  err : Nat
  deriving DecidableEq, Repr, Inhabited

/-- One die (R16). -/
structure Die where
  faults : List FaultEnt
  misdir : W64
  stats : FMap W64
  route : FMap W64
  leases : FMap W64
  lrnext : Nat
  lseq : Nat
  halved : Nat
  txNext : Nat
  tx : List NeTx
  rx : List NeRx
  deriving DecidableEq, Repr, Inhabited

/-- The die after reset. -/
def Die.init : Die :=
  { faults := [], misdir := 0, stats := [], route := [], leases := [], lrnext := 0, lseq := 0, halved := 0, txNext := 0, tx := [], rx := [] }

/-- The states of a unit (R355). -/
inductive UnitSt where
  | inService | leased | held | draining | retired
  deriving DecidableEq, Repr, Inhabited

/-- A lease that is running or due (R356 to R359): early, at the host's request, when it fell due, when withdrawal was complete, score
at its start, its record and number, whether withdrawal is complete, whether the host has been told that it is due. -/
structure Lease where
  early : Bool
  host : Bool
  since : Nat
  start : Nat
  sc0 : Nat
  ring : Nat
  seq : Nat
  halted : Bool
  told : Bool
  deriving DecidableEq, Repr, Inhabited

/-- A page on its way off a draining channel (R362): job, address and size, its old and its new frame, and its table entries with their low bits. -/
structure PageMove where
  job : Nat
  va : Nat
  n : Nat
  old : Nat
  new : Nat
  ents : List (Nat × Nat)
  deriving DecidableEq, Repr, Inhabited

/-- A unit of R354: state, score, due lease, running lease, when the last lease ended, the retirement reason once fixed, the
host's pending retirement request, when it was held, LINKHOLD and MIGNEED posted, slowed by its junction, the failed pattern set and the number
of the failing lease, the page that moves off it; for a core that leaves for retirement and is not yet withdrawn, whether it then retires without an
answer of the host (R361). -/
structure UnitRec where
  st : UnitSt
  score : Nat
  due : Option Lease
  run : Option Lease
  ended : Nat
  reason : Nat
  askRetire : Bool
  heldAt : Nat
  linkhold : Bool
  migneed : Bool
  slowed : Bool
  failed : BitVec 16
  lseq : Nat
  moving : Option PageMove
  leaving : Option Bool
  deriving DecidableEq, Repr, Inhabited

/-- A unit after reset (R355, R360). -/
def UnitRec.init : UnitRec :=
  { st := .inService, score := 0, due := .none, run := .none, ended := 0, reason := 0, askRetire := false, heldAt := 0, linkhold := false,
    migneed := false, slowed := false, failed := 0, lseq := 0, moving := .none, leaving := .none }

/-! ## Jobs -/

/-- A shadow region (R149, R150, R304): base, length, GEN, TGT, and the commands that latched a side: (command number, side, writes). -/
structure Region where
  base : Nat
  len : Nat
  gen : Nat
  tgt : Nat
  latches : List (Nat × Nat × Bool)
  deriving DecidableEq, Repr, Inhabited

/-- A group of the job's table (R320). -/
structure Group where
  op : Nat
  width : Nat
  lcl : Nat
  ctr : Nat
  root : Nat
  members : NSet
  deriving DecidableEq, Repr, Inhabited

/-- A capacity-change notification (R363, R364). -/
structure CapNote where
  unit : W32
  lost : Bool
  reason : Nat
  old : Nat
  new : Nat
  seq : Nat
  time : W64
  deriving DecidableEq, Repr, Inhabited

/-- An entry of a carafe section (R187, R233): cluster, section (0 normal, 1 urgent, 2 posts), what the HQM knows of the message beside its
bytes, or a record, and the place of its 512 bytes in T1 (R189). -/
structure CarEnt where
  ck : Nat
  sec : Nat
  q : QMsg
  words : List W64
  loc : Nat
  deriving DecidableEq, Repr, Inhabited

/-- The scratchpad run that a job left when it was moved out of a cluster, bytes and poisoned granules from its start (R167). -/
structure MovedOut where
  ck : Nat
  bytes : List Host.Cell
  pois : NSet
  deriving DecidableEq, Repr, Inhabited

/-- An aborted message that awaits the host's decision (R344). -/
structure AbortHold where
  eseq : Nat
  ck : Nat
  q : QMsg
  word : W64
  tval : W64
  deriving DecidableEq, Repr, Inhabited

/-- One job (R19, R374, R376). `jstate` is 0 absent, 1 installing, 2 installed, 3 removing; `once` tells an exited or removed job
from one never installed (R190); `hopeless` is a gang that can never be placed (R168). -/
structure Job where
  jstate : Nat
  once : Bool
  gang : Bool
  reloc : Bool
  retry : Nat
  share : Nat
  depth : Nat
  errh : Nat
  caph : Nat
  wqm : Nat
  root : Nat
  wq : Nat
  place : NSet
  img : JobImage
  wqhead : W64
  wqtail : W64
  late : W64
  carDrop : W64
  postFault : W64
  errDrop : W64
  lostRange : W64
  regions : List Region
  groups : List Group
  carPool : Nat
  carPages : Nat
  carRes : List Nat
  carFull : Bool
  carafe : List CarEnt
  pool1 : W64
  pool2 : W64
  taken : List (Nat × Nat)
  placed : NSet
  marked : NSet
  wave : Option Nat
  gangSince : Nat
  reserving : Bool
  reserved : NSet
  hopeless : Bool
  stalled : Bool
  moved : List MovedOut
  capLast : Nat
  unacked : List CapNote
  held : List CapNote
  lostMark : Bool
  debug : Bool
  holds : List AbortHold
  deriving DecidableEq, Repr, Inhabited

/-- A job that is absent. -/
def Job.init : Job :=
  { jstate := 0, once := false, gang := false, reloc := false, retry := 0, share := 1, depth := 4, errh := 4095, caph := 4095, wqm := 4, root := 0,
    wq := 0, place := [], img := ⟨[], [], [], 64, [], [], [], []⟩, wqhead := 0, wqtail := 0, late := 0, carDrop := 0, postFault := 0, errDrop := 0,
    lostRange := 0, regions := [], groups := [], carPool := 0, carPages := 0, carRes := [], carFull := false, carafe := [], pool1 := 0,
    pool2 := 0, taken := [], placed := [], marked := [], wave := .none, gangSince := 0, reserving := false, reserved := [],
    hopeless := false, stalled := false, moved := [],
    capLast := 0, unacked := [], held := [], lostMark := false, debug := false, holds := [] }

/-! ## The module -/

/-- A leaf held by a translation cache of a cluster (R112): `via` 0 is the cluster's shared cache, 1 + c the load/store path of core c,
32 + p an OPA load pipe, 48 + a an edge AGU, 64 + u a PFU. -/
structure TlbEnt where
  ck : Nat
  via : Nat
  job : Nat
  lvl : Nat
  big : Bool
  idx : Nat
  pa : Nat
  r : Bool
  w : Bool
  deriving DecidableEq, Repr, Inhabited

/-- A line in commutative state (R131): location, FP32 or INT64, die partials and cluster partials by number. -/
structure CommLine where
  loc : Nat
  int64 : Bool
  dies : FMap (List W64)
  cls : FMap (List W64)
  pois : Bool
  deriving DecidableEq, Repr, Inhabited

/-- A unit in flight (R181, R182, R115, R323, R329). A packet whose placement parked has been seen: 1 to be placed again, 2 when the
resolution failed. -/
inductive Flight where
  | msg (src dst act : Nat) (m : Msg)
  | reply (src act : Nat) (m : Msg)
  | stealReq (bk slot job victim : Nat)
  | stealAns (bk slot job : Nat) (ans : W64)
  | cnt (src ck act job c : Nat) (op : CntOp)
  | atomic (src ck : Nat) (p : Posted) (parked : Option PageKey)
  | record (src ck act job : Nat) (words : List W64)
  | contrib (ck act : Nat) (c : Contrib)
  | part (ck job g dir : Nat) (v : GrpVal)
  | result (ck job g : Nat) (v : GrpVal)
  | token (src a dst b : Nat) (t : Token) (live : Bool)
  | credit (ck a : Nat)
  | pkt (die : Nat) (p : Packet) (parked : Option PageKey) (seen : Nat)
  | ack (die : Nat) (a : Ack)
  | readReq (die : Nat) (r : ReadReq)
  | resolved (pg : PageKey) (ok : Bool) (die : Nat)
  | marker (ck job : Nat)
  | post (ck job c : Nat) (ttra : W64) (parked : Option PageKey)
  deriving DecidableEq, Repr, Inhabited

/-- What an access that waits does: write bytes, read for a part of a load, or perform an atomic operation whose old value is the part 0 of a
load (R128). -/
inductive PendOp where
  | store (bytes : List Byte) (pois : Bool)
  | load (part : Nat)
  | atom (op : AtomOp) (v c : Nat)
  deriving DecidableEq, Repr, Inhabited

/-- An access that has been issued and that a stall holds (R122, R126, R300, R358), in the order of arrival: the key of its activation, its bank, its job
and address (R113, R149), the number of its load where it has one, its place and width, whether it is a release (R142). -/
structure Pend where
  act : Nat
  bk : Nat
  job : Nat
  va : Nat
  id : Nat
  loc : Nat
  n : Nat
  rel : Bool
  op : PendOp
  deriving DecidableEq, Repr, Inhabited

/-- What an asynchronous write replaced (R146): the place, the bytes with their poison as they stood before it, the activations to which a
copy of them can no longer be returned, and those that have read the write or a later one (R145). -/
structure Stale where
  loc : Nat
  old : List (Byte × Bool)
  seen : NSet
  read : NSet
  deriving DecidableEq, Repr, Inhabited

/-- An event of the host event queue (R377): TYPE, JOB, DIE and the three payload doublewords. -/
structure Event where
  type : Nat
  job : Nat
  die : Nat
  p0 : W64
  p1 : W64
  p2 : W64
  eseq : Nat
  deriving DecidableEq, Repr, Inhabited

/-- The command being executed (R36): cluster, class, unit, and which of its independent parts moves, where it has several (R246, R298). -/
structure CmdCtx where
  ck : Nat
  cls : Nat
  unit : Nat
  pick : Nat
  deriving DecidableEq, Repr, Inhabited

/-- A retirement record in flash (R365): its eight doublewords, whether its signatures verify, whether it has been cleared. -/
structure RetRec where
  dws : List W64
  signed : Bool
  cleared : Bool
  deriving DecidableEq, Repr, Inhabited

/-- An answer or report on Karmos's side band (R25, R365, R379 to R381). A telemetry report holds its number, its readings and the score
and state of each unit; an attestation answer its SPDM code, its body and both signatures. -/
inductive SideMsg where
  | telemetry (n : Nat) (readings : List Nat) (scores : List (Nat × Nat × Nat))
  | fwResult (ok : Bool)
  | record (n : Nat) (dws : List W64) (found : Bool)
  | cleared (n : Nat) (ok : Bool)
  | flashFull
  | trip (die : Nat)
  | bootFailed
  | spdm (code : Nat) (body : List Byte) (sig opaqueSig : List Byte)
  deriving DecidableEq, Repr, Inhabited

/-- Karmos (R25, R365, R379 to R381): powered, its firmware verified; the two flash slots of image i (0 Karmos firmware, 1 die firmware,
2 runtime) at 2i and 2i + 1, the slot that runs and the one used from the next reset; the fused minimum version; dies held in reset, a
thermal trip; boots; retirement records; lease periods in force and to come; reports made; side band; progress of the SPDM exchange. -/
structure Karmos where
  on : Bool
  fwOk : Bool
  slots : FMap FwImage
  cur : FMap Nat
  next : FMap Nat
  minVer : Nat
  diesHeld : Bool
  tripped : Bool
  boots : Nat
  recs : List RetRec
  period : FMap Nat
  newPeriod : FMap (Option Nat)
  reports : Nat
  side : List SideMsg
  spdmStep : Nat
  deriving DecidableEq, Repr, Inhabited

/-- Karmos as a module leaves it with: powered, every slot valid (log entry 1), the default lease policy of R356 in seconds. -/
def Karmos.init : Karmos :=
  { on := true, fwOk := true, slots := (List.range 6).map fun k => (k, ⟨k / 2, 0, true, true⟩), cur := [], next := [], minVer := 0, diesHeld := false,
    tripped := false, boots := 1, recs := [],
    period := [(1, 600), (2, 600), (3, 600), (4, 600), (5, 600), (6, 3600), (7, 3600), (8, 3600)], newPeriod := [], reports := 0, side := [],
    spdmStep := 0 }

/-- The answer to a host's RMA read (R370): its bytes, or an error code. -/
inductive RmaAns where
  | bytes (bs : List Byte)
  | err (code : Nat)
  deriving DecidableEq, Repr, Inhabited

/-- The module. -/
structure State where
  agenda : List Move
  freeN : Nat
  cur : Nat
  cmd : CmdCtx
  mishap : Mishap
  svcCode : FMap W32
  cycles : Nat
  mem : List Host.Cell
  check : FMap Byte
  pois : NSet
  tlb : List TlbEnt
  comm : List CommLine
  stale : List Stale
  pend : List Pend
  code : FMap W32
  banks : FMap Bank
  cores : FMap Core
  counters : FMap Counter
  clusters : FMap Cluster
  groups : FMap GrpSt
  dies : FMap Die
  units : FMap UnitRec
  jobs : FMap Job
  flight : List Flight
  ports : NSet
  hcmd : FMap W64
  hseq : W32
  hreason : Byte
  hresult : Byte
  hdrop : Bool
  hbusy : Bool
  eqbase : W64
  eqsize : W64
  eqhead : W64
  eqtail : W64
  evlost : W64
  dsplit : W64
  modid : BitVec 16
  eseq : Nat
  evheld : List Event
  evover : Bool
  rma : Option RmaAns
  karmos : Karmos
  deriving DecidableEq, Repr, Inhabited

/-- The module right after reset (R380): every register at its reset value, no job, scratchpads and caches cleared, T1 and T2 as
SCRUB leaves them (log entry 2), registers without a reset value zero (log entry 1). `ports` lists the Ethernet ports that are down. -/
def State.reset : State :=
  { agenda := [], freeN := 0, cur := 0, cmd := ⟨0, 0, 0, 0⟩, mishap := .none, svcCode := [], cycles := 0, mem := [], check := [], pois := [], tlb := [], comm := [],
    stale := [], pend := [], code := [], banks := [], cores := [], counters := [], clusters := [], groups := [], dies := [], units := [], jobs := [],
    flight := [], ports := [], hcmd := [], hseq := 0, hreason := 0, hresult := 0, hdrop := false, hbusy := false, eqbase := 0, eqsize := 0,
    eqhead := 0, eqtail := 0, evlost := 0, dsplit := 0x12, modid := 0, eseq := 0, evheld := [], evover := false, rma := .none,
    karmos := Karmos.init }

end Sys2Proof.Machine
end

