-- ==== Sys2Proof/Machine/Ops.lean ====
section
/-! DEFINITION. The named operations over the state: keys and records, registers and their poison, trap entry and return (R338, R353),
translation and faults (R104 to R118), the bytes and poison of memory (R120), commutative merging (R132), stalls (R300, R126, R358),
loads and stores, and the send queue (R183). -/

namespace Sys2Proof.Machine

/-- What a meaning answers. -/
abbrev Out := Host.Outcome State Fault Refusal

/-! ## Keys and records -/

def ckOf (bk : Nat) : Nat := bk / 80
def coreOf (bk : Nat) : Nat := bk / 5
def bankNo (bk : Nat) : Nat := bk % 5
def dieOf (ck : Nat) : Nat := ck / 64
/-- Bits [i+n-1:i] of a 64-bit word, as a number. -/
def fld (w : W64) (i n : Nat) : Nat := w.toNat / 2 ^ i % 2 ^ n
/-- A 64-bit word from a number. -/
def w64 (n : Nat) : W64 := BitVec.ofNat 64 n
def w32 (n : Nat) : W32 := BitVec.ofNat 32 n

namespace State

def bankAt (s : State) (bk : Nat) : Bank := s.banks.get Bank.init bk
def putBank (s : State) (bk : Nat) (b : Bank) : State := { s with banks := s.banks.set Bank.init bk b }
def modBank (s : State) (bk : Nat) (f : Bank → Bank) : State := s.putBank bk (f (s.bankAt bk))
/-- The bank whose instruction is being executed. -/
def b (s : State) : Bank := s.bankAt s.cur
def putB (s : State) (x : Bank) : State := s.putBank s.cur x
def modB (s : State) (f : Bank → Bank) : State := s.putB (f s.b)
def coreAt (s : State) (k : Nat) : Core := s.cores.get Core.init k
def putCore (s : State) (k : Nat) (c : Core) : State := { s with cores := s.cores.set Core.init k c }
def clusterAt (s : State) (ck : Nat) : Cluster := s.clusters.get Cluster.init ck
def putCluster (s : State) (ck : Nat) (c : Cluster) : State := { s with clusters := s.clusters.set Cluster.init ck c }
def modCluster (s : State) (ck : Nat) (f : Cluster → Cluster) : State := s.putCluster ck (f (s.clusterAt ck))
def jobAt (s : State) (j : Nat) : Job := s.jobs.get Job.init j
def putJob (s : State) (j : Nat) (x : Job) : State := { s with jobs := s.jobs.set Job.init j x }
def modJob (s : State) (j : Nat) (f : Job → Job) : State := s.putJob j (f (s.jobAt j))
def dieAt (s : State) (d : Nat) : Die := s.dies.get Die.init d
def putDie (s : State) (d : Nat) (x : Die) : State := { s with dies := s.dies.set Die.init d x }
def modDie (s : State) (d : Nat) (f : Die → Die) : State := s.putDie d (f (s.dieAt d))
def unitAt (s : State) (u : Nat) : UnitRec := s.units.get UnitRec.init u
def putUnit (s : State) (u : Nat) (x : UnitRec) : State := { s with units := s.units.set UnitRec.init u x }
def modUnit (s : State) (u : Nat) (f : UnitRec → UnitRec) : State := s.putUnit u (f (s.unitAt u))
/-- The cluster and job of the bank that executes. -/
def ck (s : State) : Nat := ckOf s.cur
def jid (s : State) : Nat := s.b.job
/-- The executing activation among those of the module: its cluster and SEQ. -/
def actKey (s : State) : Nat := s.ck * 2 ^ 32 + s.b.seq
/-- TIME (R101): 1.6 cycles a nanosecond. -/
def time (s : State) : Nat := s.cycles * 5 / 8
/-- CYCLE of a core (R101). -/
def cycleOf (s : State) (core : Nat) : Nat := s.cycles - (s.clusterAt (core / 16)).lost - (s.coreAt core).lost

end State

/-! ## Units (R354, R360) -/

/-- A unit id. -/
def unitId (kind die cl index : Nat) : Nat := kind * 2 ^ 28 + die * 2 ^ 26 + cl * 2 ^ 20 + index
/-- The unit id of a unit of cluster `ck`. -/
def unitOf (kind ck index : Nat) : Nat := unitId kind (dieOf ck) (ck % 64) index
/-- The unit id of a handler core. -/
def coreUnit (core : Nat) : Nat := unitOf 1 (core / 16) (core % 16)

/-- A unit that is neither withdrawn nor retired (R354). -/
def UnitRec.serving (u : UnitRec) : Bool := u.st == .inService || u.st == .draining
/-- A unit that is under lease or held. -/
def UnitRec.withdrawn (u : UnitRec) : Bool := u.st == .leased || u.st == .held

/-- Points added to the score of a unit (R360): from 256 an early lease is due unless one is due or running; from 1,024 retirement
starts with reason 7, which the step then carries out. -/
def UnitRec.charge (u : UnitRec) (now n : Nat) : UnitRec :=
  let sc := min (u.score + n) 0xFFFF
  let due := if 256 ≤ sc ∧ u.due = none ∧ u.run = none then some ⟨true, false, now, 0, 0, 0, 0, false, false⟩ else u.due
  let reason := if 1024 ≤ sc ∧ u.st = .inService ∧ u.reason = 0 then 7 else u.reason
  { u with score := sc, due := due, reason := reason }

def State.charge (s : State) (u n : Nat) : State := s.modUnit u fun x => x.charge s.time n

/-! ## Registers -/

/-- X(r) (R5, R82): x0 reads zero. -/
def Bank.getX (b : Bank) (r : Reg) : W64 := if r = 0 then 0 else b.x.get 0 r
/-- The poison bit of X(r) (R81): x0 is never poisoned. -/
def Bank.poisX (b : Bank) (r : Reg) : Bool := if r = 0 then false else b.xp.get false r
/-- A write of X(r) and its poison bit; a write of x0 is discarded (R5). -/
def Bank.setX (b : Bank) (r : Reg) (v : W64) (p : Bool) : Bank :=
  if r = 0 then b else { b with x := b.x.set 0 r v, xp := b.xp.set false r p }
/-- V(k) of a register v0 to v14. -/
def Bank.getV (b : Bank) (k : Nat) : V256 := b.v.get 0 k
/-- The poison bits of the eight 32-bit words of V(k) (R200). -/
def Bank.poisV (b : Bank) (k : Nat) : BitVec 8 := b.vp.get 0 k
/-- A write of V(k); register 15 is no register. -/
def Bank.setV (b : Bank) (k : Nat) (v : V256) (p : BitVec 8) : Bank :=
  if 15 ≤ k then b else { b with v := b.v.set 0 k v, vp := b.vp.set 0 k p }
/-- P(k): p0 reads all ones (R204). -/
def Bank.getP (b : Bank) (k : PReg) : W32 := if k = 0 then BitVec.allOnes 32 else b.p.get 0 k
/-- A write of P(k); a write of p0 is discarded (R5). -/
def Bank.setP (b : Bank) (k : PReg) (v : W32) : Bank := if k = 0 then b else { b with p := b.p.set 0 k v }

/-- CHKI with a bit set, and ORIGIN taken while PSN and CHK are both zero (R92). -/
def chkiSet (c : W64) (bit : W64) (origin : Nat) : W64 :=
  if c &&& 3 = 0 then w64 (origin * 256) ||| bit else c ||| bit
/-- Poisoned data consumed (R92). -/
def Bank.markPsn (b : Bank) (origin : Nat) : Bank := { b with chki := chkiSet b.chki 1 origin }
/-- CHKI.PSN where a condition holds. -/
def Bank.psnIf (b : Bank) (c : Bool) (origin : Nat) : Bank := if c then b.markPsn origin else b
/-- An unrecovered check mismatch (R22, R80, R92). -/
def Bank.markChk (b : Bank) (origin : Nat) : Bank :=
  { b with chki := chkiSet b.chki 2 origin, aflags := b.aflags ||| 0x80 }
/-- Sticky flags set (R68). -/
def Bank.orFlags (b : Bank) (f : Flags) : Bank := { b with aflags := b.aflags ||| f.setWidth 64 }
/-- The next instruction. -/
def Bank.advance (b : Bank) : Bank := { b with pc := b.pc + 4 }
/-- The rounding mode that RNDM holds (R67). -/
def rmOf : Nat → RM
  | 1 => .rtz | 2 => .rdn | 3 => .rup | 4 => .rna | _ => .rne
def Bank.mode (b : Bank) : RM := rmOf (fld b.rndm 0 3)

/-! ## Outcomes of the parts of an instruction -/

/-- What a part of an instruction gives: a value, a trap, a wait of the activation, or that it does not issue yet. -/
inductive Res (α : Type) where
  | ok (s : State) (a : α)
  | trap (s : State) (cause : Nat) (tval : W64)
  | wait (s : State) (w : Wait)
  /-- The instruction does not issue yet: a unit that it needs is not free (R79, R122). -/
  | hold (s : State)

/-- One part after another. -/
def Res.bind {α β : Type} : Res α → (State → α → Res β) → Res β
  | .ok s a, k => k s a
  | .trap s c v, _ => .trap s c v
  | .wait s w, _ => .wait s w
  | .hold s, _ => .hold s

/-- A trap where a check fails. -/
def check (s : State) (good : Bool) (cause : Nat) (tval : W64) : Res Unit := if good then .ok s () else .trap s cause tval

/-! ## Taking a trap, and returning (R338, R353) -/

/-- The entries of registers 1 to 7, and of the registers from 8 on. -/
def lowRegs {α : Type} (m : FMap α) : FMap α := m.filter fun e => decide (e.1 < 8)
def highRegs {α : Type} (m : FMap α) : FMap α := m.filter fun e => decide (8 ≤ e.1)

/-- The registers x1 to x7 exchanged with the seven service registers. -/
def Bank.swapService (b : Bank) : Bank :=
  { b with x := lowRegs b.svc ++ highRegs b.x, svc := lowRegs b.x, xp := lowRegs b.svcp ++ highRegs b.xp, svcp := lowRegs b.xp }

/-- Trap entry in bank `n` (R338); MASKOVER (9) closes the window before entry and sets TSTAT.MSK (R164). A trap in service mode swaps nothing. -/
def Bank.enterTrap (n : Nat) (cause : Nat) (tval : W64) (b : Bank) : Bank :=
  let stat := b.service.toNat + (if n = 4 then 2 else 0) + n * 4 + (b.maskOn || cause == 9).toNat * 32
  let b := if cause = 9 then { b with maskOn := false, maskLeft := 256, maskDue := 0 } else b
  let b := if b.service then b else b.swapService
  { b with tcause := w64 cause, tval := tval, tepc := b.pc &&& ~~~3#64, tstat := w64 stat, service := true,
           pc := b.tvec &&& ~~~3#64, st := .running, wait := .none }

/-- TRET (R353). -/
def Bank.leaveTrap (b : Bank) : Bank :=
  let pm := fld b.tstat 0 1 == 1
  let b := if pm then b else b.swapService
  { b with pc := b.tepc, service := pm }

/-- The bank takes a trap. -/
def State.trapBank (s : State) (bk cause : Nat) (tval : W64) : State := s.modBank bk (Bank.enterTrap (bankNo bk) cause tval)
/-- The executing bank takes a trap. -/
def State.trap (s : State) (cause : Nat) (tval : W64) : State := s.trapBank s.cur cause tval

/-- The end of an instruction: the next one, the trap, or the wait. -/
def finish : Res Unit → Out
  | .ok s _ => .next (s.modB Bank.advance)
  | .trap s c v => .next (s.trap c v)
  | .wait s w => .next (s.modB fun b => { b with st := .waiting, wait := w, since := s.cycles })
  | .hold s => .next s

/-- As `finish`, for an instruction that sets the pc itself. -/
def finishAt : Res Unit → Out
  | .ok s _ => .next s
  | r => finish r

/-- The word of an instruction of a handler core. -/
def wordOf (i : Instr) : Nat := match i with | .reservedEncoding w => w.toNat | i => (encode i).getD 0
/-- ILLEGAL raised by the meaning of an instruction: TVAL is its word (R35). -/
def illegal (s : State) (i : Instr) : State := s.trap 1 (w64 (wordOf i))

/-! ## Checked results (R22, R80) -/

/-- A mismatch of nature consumed by a checked operation of the core: points to the core (R360). -/
def State.takeMishap (s : State) : State :=
  match s.mishap with
  | .none => s
  | .fixed _ => { s with mishap := .none }.charge (coreUnit (coreOf s.cur)) 8
  | .bad _ => { s with mishap := .none }.charge (coreUnit (coreOf s.cur)) 64

/-- Whether a mismatch that re-firing does not correct lies before the next checked operation. -/
def State.badMishap (s : State) : Bool := match s.mishap with | .bad _ => true | _ => false

/-- The result of a scalar instruction (R80, R81): with an unrecovered mismatch it is poisoned and CHK is set, ORIGIN 1. The data written is then
that of the first copy, which the spec does not say more of: the model takes the result of a copy that is right (DESIGN CHOICE, log entry 58). -/
def State.writeX (s : State) (rd : Reg) (v : W64) (p : Bool) : State :=
  let bad := s.badMishap
  let s := s.takeMishap
  s.modB fun b => if bad then (b.setX rd v true).markChk 1 else b.setX rd v p

/-- A computed address, target or branch outcome (R80): an unrecovered mismatch raises POISON with TVAL 64. -/
def checked (s : State) : Res Unit := check s.takeMishap (!s.badMishap) 0x0E 64

/-- The registers of an instruction whose poison raises POISON, in the order of their fields (R391). -/
def clean (s : State) : List Reg → Res Unit
  | [] => .ok s ()
  | r :: t => if s.b.poisX r then .trap s 0x0E (w64 r) else clean s t

/-! ## Places in memory -/

/-- The storage of byte `off` of a cluster's scratchpad. -/
def spadLoc (ck off : Nat) : Nat := 2 ^ 52 + ck * 2 ^ 22 + off
/-- Whether a place is in a scratchpad. -/
def isSpad (loc : Nat) : Bool := decide (2 ^ 52 ≤ loc ∧ loc < 2 ^ 58)
/-- Cluster, byte and bank of a scratchpad place (R123). -/
def spadCk (loc : Nat) : Nat := (loc - 2 ^ 52) / 2 ^ 22
def spadBank (loc : Nat) : Nat := loc / 64 % 16
/-- The second backing of a place in a shadow region (R149). -/
def side1 (loc : Nat) : Nat := 2 ^ 58 + loc
/-- The physical address behind a place of T1, T2 or a second backing. -/
def physOf (loc : Nat) : Nat := if 2 ^ 58 ≤ loc then loc - 2 ^ 58 else loc
/-- Where a cluster's context region begins, as an address, and its storage (R163, R352; log entry 8). -/
def ctxBase (ck : Nat) : Nat := 1024 * (Config.ctxSlot ck).val
def ctxLoc (ck off : Nat) : Nat := 2 ^ 59 + ck * 2 ^ 18 + off

/-- T1 and T2 (R109). -/
def inT1 (pa : Nat) : Bool := decide (pa < 0xC000000000)
def inT2 (pa : Nat) : Bool := decide (0x100000000000 ≤ pa ∧ pa < 0x140000000000)

/-- The die of the home of a line of T1 or T2 (R390). -/
def homeDie (pa : Nat) : Nat :=
  if pa < 0x4000000000 then 0 else if pa < 0x8000000000 then 1 else if pa < 0xC000000000 then 2
  else if pa < 0x116000000000 then 0 else if pa < 0x12C000000000 then 1 else 2
/-- The unit id of the memory channel that holds a physical address (R16, R17, R354, R390): an HBM4 channel of its home die for T1, an LP6
channel for T2; which of them is free (log entry 11). -/
def channelOf (pa : Nat) : Nat :=
  let d := homeDie pa
  if inT1 pa then unitId 7 d 0 (Config.channelOf (pa / 64) % 128) else unitId 8 d 0 (Config.channelOf (pa / 64) % (if d = 2 then 40 else 44))

/-- The size of the granule whose poison a place shares (R120). -/
def granSize (loc : Nat) : Nat := if isSpad loc then 8 else 64
/-- The start of the granule of a place. -/
def granule (loc : Nat) : Nat := loc / granSize loc * granSize loc

/-! ## Bytes and poison -/

/-- A byte of GF(2⁸) times α = 2, modulo x⁸ + x⁴ + x³ + x² + 1 (R124). -/
def gfDouble (x : Byte) : Byte := (x <<< 1) ^^^ (if x.msb then 0x1D else 0)
/-- A byte times αᵇ. -/
def gfMul : Nat → Byte → Byte
  | 0, x => x
  | b + 1, x => gfMul b (gfDouble x)

/-- The byte of bank `b` at the bank row and position of a place (R123). -/
def rowByte (loc b : Nat) : Nat := loc / 1024 * 1024 + 64 * b + loc % 64
/-- The entry of the check banks for the bank row and position of a place: P, and Q after it (R124). -/
def checkKey (loc : Nat) : Nat := 2 * (loc / 1024 * 64 + loc % 64)

/-- Whether bank `b` of a cluster's scratchpad, 16 for P and 17 for Q, is withdrawn or retired (R354). -/
def State.bankOut (s : State) (ck b : Nat) : Bool := let u := s.unitAt (unitOf 6 ck b); u.withdrawn || u.st == .retired
/-- How many of the 18 banks of a cluster's scratchpad are withdrawn or retired. -/
def State.banksOut (s : State) (ck : Nat) : Nat := ((List.range 18).filter fun b => s.bankOut ck b).length
/-- The data banks of a cluster's scratchpad that are served as erasures (R125): those withdrawn or retired, as long as P and Q tell their bytes, which they
do of two banks (R124). -/
def State.erasures (s : State) (ck : Nat) : List Nat := if s.banksOut ck ≤ 2 then (List.range 16).filter fun b => s.bankOut ck b else []
def State.erased (s : State) (loc : Nat) : Bool := isSpad loc && (s.erasures (spadCk loc)).contains (spadBank loc)

/-- What the storage of a place itself holds. -/
def State.rawAt (s : State) (loc : Nat) : Byte := FMap.get 0 s.mem loc
/-- A sum over the data banks that are no erasures. -/
def sumBut (gone : List Nat) (f : Nat → Byte) (x : Byte) : Byte := (List.range 16).foldl (fun x b => if gone.contains b then x else x ^^^ f b) x
/-- What P and Q leave for the erasures of the row of a place: the sum of their bytes, and that of their bytes times αᵇ (R124). -/
def State.leftP (s : State) (gone : List Nat) (loc : Nat) : Byte := sumBut gone (fun b => s.rawAt (rowByte loc b)) (FMap.get 0 s.check (checkKey loc))
def State.leftQ (s : State) (gone : List Nat) (loc : Nat) : Byte :=
  sumBut gone (fun b => gfMul b (s.rawAt (rowByte loc b))) (FMap.get 0 s.check (checkKey loc + 1))
/-- Of two erasures `a` and `b` with these sums, the byte of `b`. -/
def solveB (a b : Nat) (p q : Byte) : Byte :=
  (((List.range 256).map fun k => BitVec.ofNat 8 k).find? fun x => gfMul a (p ^^^ x) ^^^ gfMul b x == q).getD 0
/-- A byte of an erasure rebuilt: from the other 15 data banks and P, or beside a second erasure from the other 14 with P and Q (R124, R125). -/
def State.rebuilt (s : State) (loc : Nat) : Byte :=
  let gone := s.erasures (spadCk loc)
  match gone with
  | [a, b] => let x := solveB a b (s.leftP gone loc) (s.leftQ gone loc); if spadBank loc = b then x else s.leftP gone loc ^^^ x
  | _ => s.leftP gone loc

/-- One byte of memory. -/
def State.byteAt (s : State) (loc : Nat) : Byte := if s.erased loc then s.rebuilt loc else s.rawAt loc

/-- n bytes from a place. -/
def State.bytesAt (s : State) (loc : Nat) : Nat → List Byte
  | 0 => []
  | n + 1 => s.byteAt loc :: s.bytesAt (loc + 1) n

/-- Bytes as a little-endian number (R1). -/
def leNat : List Byte → Nat
  | [] => 0
  | x :: t => x.toNat + 256 * leNat t

/-- The n low bytes of a number, least significant first. -/
def leBytes : Nat → Nat → List Byte
  | 0, _ => []
  | n + 1, v => BitVec.ofNat 8 v :: leBytes n (v / 256)

/-- The n-byte number at a place. -/
def State.numAt (s : State) (loc n : Nat) : Nat := leNat (s.bytesAt loc n)
def State.dwAt (s : State) (loc : Nat) : W64 := w64 (s.numAt loc 8)

/-- The check banks after the byte at a place changes by `d` (R124). -/
def addCheck (c : FMap Byte) (loc : Nat) (d : Byte) : FMap Byte :=
  let k := checkKey loc
  let c := FMap.set 0 c k (FMap.get 0 c k ^^^ d)
  FMap.set 0 c (k + 1) (FMap.get 0 c (k + 1) ^^^ gfMul (spadBank loc) d)

/-- One byte written: in a scratchpad P and Q change with it, and an erased bank is not written itself (R124, R125). -/
def State.putByte (s : State) (loc : Nat) (x : Byte) : State :=
  { s with mem := if s.erased loc then s.mem else FMap.set 0 s.mem loc x,
           check := if isSpad loc then addCheck s.check loc (s.byteAt loc ^^^ x) else s.check }

/-- Bytes written at a place. -/
def State.putBytes (s : State) (loc : Nat) : List Byte → State
  | [] => s
  | x :: t => (s.putByte loc x).putBytes (loc + 1) t

/-- Whether some granule of n bytes at a place is poisoned (R120). -/
def State.poisAt (s : State) (loc : Nat) : Nat → Bool
  | 0 => false
  | n + 1 => s.pois.has (granule loc) || s.poisAt (loc + 1) n

/-- The granules that n bytes touch, marked (R120). -/
def markGran (p : NSet) (loc : Nat) : Nat → NSet
  | 0 => p
  | n + 1 => markGran (p.add (granule loc)) (loc + 1) n

/-- The granules that n bytes from `lo` cover whole, cleared (R120). -/
def clearGran (p : NSet) (lo n loc : Nat) : Nat → NSet
  | 0 => p
  | k + 1 =>
    let g := granule loc
    clearGran (if lo ≤ g ∧ g + granSize loc ≤ lo + n then p.del g else p) lo n (loc + 1) k

/-- Whether what an asynchronous write replaced meets n bytes at a place (R146). -/
def Stale.meets (r : Stale) (loc n : Nat) : Bool := decide (r.loc < loc + n ∧ loc < r.loc + r.old.length)
/-- The copies that stay when n bytes at a place are written otherwise than by an asynchronous write: those of other aligned doublewords. Such a write is
performed for every agent at once, and a load of up to 8 bytes reads one write (R86, R143, R145; log entries 6 and 57). -/
def freshAt (l : List Stale) (loc n : Nat) : List Stale := l.filter fun r => !r.meets (loc / 8 * 8) ((loc + n + 7) / 8 * 8 - loc / 8 * 8)

/-- A write at its storage: bytes, the poison rules of R120, and an end to what asynchronous writes left there. -/
def State.poke (s : State) (loc : Nat) (bytes : List Byte) (pois : Bool) : State :=
  { s.putBytes loc bytes with
           pois := if pois then markGran s.pois loc bytes.length else clearGran s.pois loc bytes.length loc bytes.length,
           stale := freshAt s.stale loc bytes.length }

/-! ## Commutative lines (R131, R132) -/

/-- The partials of a line in the order of a merge: die partial of d, then the clusters of d, for d = 0, 1, 2. -/
def CommLine.order (c : CommLine) : List (List W64) :=
  [0, 1, 2].flatMap fun d =>
    (c.dies.filter (fun e => decide (e.1 = d))).map Prod.snd ++ (c.cls.filter (fun e => decide (e.1 / 64 = d))).map Prod.snd

/-- The elements of a line, eight INT64 or sixteen FP32, that hold `d` plus `p`. -/
def addElem (int64 : Bool) (d p : W64) : W64 :=
  if int64 then d + p
  else (fadd32 (d.extractLsb' 32 32) (p.extractLsb' 32 32)) ++ (fadd32 (d.extractLsb' 0 32) (p.extractLsb' 0 32))

def addLine (int64 : Bool) (d p : List W64) : List W64 := List.zipWith (addElem int64) d p

/-- The line of a place. -/
def lineOf (loc : Nat) : Nat := loc / 64 * 64

/-- The eight doublewords of a line. -/
def State.lineWords (s : State) (line : Nat) : List W64 := (List.range 8).map fun i => s.dwAt (line + 8 * i)

/-- A line in commutative state merged and taken out of it (R132); a poisoned partial poisons the line (R133). -/
def State.mergeLine (s : State) (loc : Nat) : State :=
  match s.comm.find? (fun c => c.loc == lineOf loc) with
  | none => s
  | some c =>
    let v := c.order.foldl (addLine c.int64) (s.lineWords c.loc)
    let bad := c.pois || s.pois.has c.loc
    { s with comm := s.comm.filter (fun e => e.loc != c.loc) }.poke c.loc (v.flatMap fun (w : W64) => leBytes 8 w.toNat) bad

/-! ## Stalls -/

/-- The scratchpad run of a job on a cluster (R105). -/
def State.runOf (s : State) (ck job : Nat) : Option Run := (s.clusterAt ck).runs.find? fun r => r.job == job

/-- The watermark of a channel (R299): bytes from the base that are filled without a gap. -/
def Wm.filled (w : Wm) : Nat → Nat → Nat
  | 0, f => f
  | k + 1, f => if w.bits.has f then w.filled k (f + 1) else f
def Wm.mark (w : Wm) : Nat := w.base + 64 * w.filled (w.len / 64) 0

/-- The place where the range of an armed channel of a cluster begins. -/
def State.wmBase (s : State) (ck : Nat) (w : Wm) : Option Nat :=
  if w.armed then (w.owner.bind fun j => s.runOf ck j).map fun r => spadLoc ck (r.seg * 65536) + w.base else none

/-- Whether n bytes at a place meet the range of an armed channel (R300). -/
def State.armedAt (s : State) (loc n : Nat) : Bool :=
  isSpad loc && (s.clusterAt (spadCk loc)).wm.any fun e =>
    match s.wmBase (spadCk loc) e.2 with | none => false | some lo => decide (loc < lo + e.2.len ∧ lo < loc + n)

/-- Whether an armed channel, other than the one `skip`, stalls an access to n bytes at a place: it reaches past the watermark (R300). -/
def State.wmHolds (s : State) (skip : Option Nat) (loc n : Nat) : Bool :=
  isSpad loc && (s.clusterAt (spadCk loc)).wm.any fun e =>
    skip != some e.1 && match s.wmBase (spadCk loc) e.2 with
      | none => false
      | some lo => decide (loc < lo + e.2.len ∧ lo < loc + n ∧ lo + (e.2.mark - e.2.base) < loc + n)
def State.wmStall (s : State) (loc n : Nat) : Bool := s.wmHolds none loc n

/-- Whether the bank of a scratchpad place is in retention, or leaving it (R126). -/
def State.retStall (s : State) (loc : Nat) : Bool := isSpad loc && (s.clusterAt (spadCk loc)).inret.has (spadBank loc)

/-- Whether the memory channel of a place is withdrawn (R358; log entry 11). -/
def State.chanStall (s : State) (loc : Nat) : Bool :=
  !isSpad loc && s.units.any fun e => decide (7 * 2 ^ 28 ≤ e.1 ∧ e.1 < 9 * 2 ^ 28) && e.2.withdrawn && channelOf (physOf loc) == e.1

/-- Whether an access that waits meets n bytes at a place. -/
def Pend.meets (p : Pend) (loc n : Nat) : Bool := decide (p.loc < loc + n ∧ loc < p.loc + p.n)

/-- Whether an access to n bytes at a place waits. An access also waits for one to the same bytes that arrived before it (R127, R139, R358). -/
def State.stalled (s : State) (loc n : Nat) : Bool :=
  s.wmStall loc n || s.retStall loc || s.chanStall loc || s.pend.any fun p => p.meets loc n

/-- Whether a place lies outside the scratchpad of a bank's own cluster. -/
def farFrom (bk loc : Nat) : Bool := !(isSpad loc && spadCk loc == ckOf bk)
/-- The accesses to remote scratchpads, T1 or T2 that a bank has outstanding: those of one instruction to one block of 32 bytes are one. -/
def State.outstanding (s : State) (bk : Nat) : Nat :=
  ((s.pend.filter fun p => p.bk == bk && farFrom bk p.loc).map fun p => (p.id, p.loc / 32)).eraseDups.length
/-- Whether accesses of the executing bank to these places, at once, would be more than the 8 that may be outstanding (R122): the ninth stalls
the bank. Accesses that do not stall complete one after another. -/
def State.full (s : State) (n : Nat) (locs : List Nat) : Bool :=
  let far := locs.filter (farFrom s.cur)
  let late := ((far.filter fun l => s.stalled l n).map fun l => l / 32).eraseDups.length
  far != [] && decide (8 < s.outstanding s.cur + max 1 late)

/-- An access seen by the bank it touches (R126): its idle time starts again, and an entry into retention is given up. -/
def State.touch (s : State) (loc : Nat) : State :=
  if isSpad loc then
    s.modCluster (spadCk loc) fun c => { c with lastAcc := c.lastAcc.set 0 (spadBank loc) s.cycles, entering := c.entering.del (spadBank loc) }
  else s

/-! ## Translation (R108 to R113) -/

/-- What an access needs of a leaf (R109, R118). -/
inductive Need where
  | read | write | both
  deriving DecidableEq, Repr

def Need.allows (n : Need) (r w : Bool) : Bool :=
  match n with | .read => r | .write => w | .both => r && w

/-- The shift and width of a level's index (R108). -/
def lvlShift (l : Nat) : Nat := 48 - 9 * l
def lvlIdx (va l : Nat) : Nat := if l = 0 then va / 2 ^ 48 % 256 else va / 2 ^ lvlShift l % 512

/-- The size of a leaf at a level (R108). -/
def leafSize (l : Nat) (big : Bool) : Nat := 2 ^ lvlShift l * (if big then 16 else 1)

/-- What a walk finds. -/
inductive Walk where
  | leaf (lvl : Nat) (big : Bool) (pa : Nat) (r w : Bool)
  | absent (lvl : Nat) (entry : W64) (loc : Nat)
  | malformed
  /-- A table read waits (R138, R139, R358). -/
  | busy
  deriving DecidableEq, Repr

/-- What one table entry says at a level (R109, R111). -/
inductive Entry where
  | leaf (big : Bool) (pa : Nat) (r w : Bool)
  | pointer (pa : Nat)
  | absent
  | malformed
  deriving DecidableEq, Repr

def readEntry (l : Nat) (e : W64) : Entry :=
  if fld e 0 1 = 0 then .absent
  else if fld e 52 12 ≠ 0 ∨ fld e 6 6 ≠ 0 then .malformed
  else
    let pa := fld e 12 40 * 4096
    let sz := fld e 4 2
    if fld e 1 1 = 0 then
      if fld e 2 4 ≠ 0 ∨ !inT1 pa ∨ l = 4 then .malformed else .pointer pa
    else if l < 2 ∨ 2 ≤ sz then .malformed
    else
      let n := leafSize l (sz == 1)
      if pa % n ≠ 0 ∨ !((inT1 pa && inT1 (pa + n - 1)) || (inT2 pa && inT2 (pa + n - 1))) then .malformed
      else .leaf (sz == 1) pa (fld e 2 1 == 1) (fld e 3 1 == 1)

/-- An entry as a walker reads it: through the line's home, malformed from a poisoned line (R109, R112). -/
def State.tableEntry (s : State) (l loc : Nat) : Entry := if s.pois.has (lineOf loc) then .malformed else readEntry l (s.dwAt loc)

/-- A walk from a table at level `l`; `fuel` is the levels left. Of the 16 entries of a large page one is used, which may differ
(R110; log entry 10). -/
def State.walkFrom (s : State) (va : Nat) : Nat → Nat → Nat → State × Walk
  | 0, _, _ => (s, .malformed)
  | fuel + 1, l, table =>
    let loc := table + 8 * lvlIdx va l
    let s := s.mergeLine loc
    let first := s.tableEntry l loc
    let group := loc / 128 * 128
    let pick := group + 8 * (Config.largeEntry group).val
    let (s, e, loc') := match first with
      | .leaf true .. => let s := s.mergeLine pick; (s, s.tableEntry l pick, pick)
      | _ => (s, first, loc)
    if s.stalled loc 8 || s.stalled loc' 8 then (s, .busy)
    else match e with
    | .leaf big pa r w => (s, .leaf l big pa r w)
    | .pointer pa => s.walkFrom va fuel (l + 1) pa
    | .absent => (s, .absent l (s.dwAt loc') loc')
    | .malformed => (s, .malformed)

/-- The leaf for an address of a job that a translation cache of a cluster holds (R112). -/
def State.tlbFind (s : State) (ck via job va : Nat) : Option TlbEnt :=
  s.tlb.find? fun e => e.ck == ck && e.via == via && e.job == job && e.idx == va / leafSize e.lvl e.big

/-- A leaf put into its translation cache of 64 entries, or 4,096 in the shared one; a full cache gives up an entry of its own choice (R112;
log entry 56). -/
def State.tlbFill (s : State) (e : TlbEnt) : State :=
  let mine := s.tlb.filter fun x => x.ck == e.ck && x.via == e.via
  let cap := if e.via = 0 then 4096 else 64
  if mine.length < cap then { s with tlb := e :: s.tlb }
  else match mine[Config.victim s.freeN % cap]? with
    | some x => { s with tlb := e :: s.tlb.erase x, freeN := s.freeN + 1 }
    | none => { s with tlb := e :: s.tlb }

/-- A leaf put into the cache of the unit that asked. -/
def State.tlbOwn (s : State) (via : Nat) (e : TlbEnt) : State := if via = 0 then s else s.tlbFill { e with via := via }

/-- What an access meets at step 5 of R118. -/
inductive Place where
  | at (loc : Nat)
  | refused
  | parked (pg : PageKey) (kind : Nat) (t2 : Bool) (loc : Nat)
  /-- The walk waits for a table read. -/
  | busy
  deriving DecidableEq, Repr

/-- The page of a not-present entry: the whole span of the entry at its level, so that faults below one entry share a record of the buffer,
which keeps the address of the first (R114, R117 say "page" alone; DEDUCED, log entry 34). -/
def pageOf (job lvl va : Nat) : PageKey := ⟨job, lvl, va / 2 ^ lvlShift lvl⟩

/-- The translated space of a job (R104). -/
def translated (va : Nat) : Bool := decide ((0x1000000 ≤ va ∧ va < 0x40000000) ∨ (0x100000000 ≤ va ∧ va < 2 ^ 56))

/-- What a leaf gives for an address (R118, step 5). -/
def TlbEnt.gives (e : TlbEnt) (need : Need) (va : Nat) : Place :=
  if need.allows e.r e.w then .at (e.pa + va % leafSize e.lvl e.big) else .refused

/-- The physical place of a translated address for a unit of a cluster (R112, R118): from its own translation cache, else from the shared
one, else by a walk whose leaf both then hold. -/
def State.translate (s : State) (ck via job : Nat) (need : Need) (va : Nat) : State × Place :=
  match s.tlbFind ck via job va with
  | some e => (s, e.gives need va)
  | none =>
    match s.tlbFind ck 0 job va with
    | some e => (s.tlbOwn via e, e.gives need va)
    | none =>
      match s.walkFrom va 5 0 (s.jobAt job).root with
      | (s, .malformed) => (s, .refused)
      | (s, .busy) => (s, .busy)
      | (s, .absent lvl e loc) =>
        (s, .parked (pageOf job lvl va) (if fld e 1 1 = 1 then 2 else if fld e 2 1 = 1 then 1 else 3) (fld e 3 1 == 1) loc)
      | (s, .leaf lvl big pa r w) =>
        let e : TlbEnt := ⟨ck, 0, job, lvl, big, va / leafSize lvl big, pa, r, w⟩
        ((s.tlbFill e).tlbOwn via e, e.gives need va)

/-- The shadow region that holds an address (R149): its number and record. -/
def regionAt (rs : List Region) (va : Nat) : Option (Nat × Region) :=
  (rs.zipIdx.find? fun e => decide (e.1.base ≤ va ∧ va < e.1.base + e.1.len)).map fun e => (e.2, e.1)

/-- The place of a window offset (R105, R106). -/
def State.windowPlace (s : State) (ck job off : Nat) : Place :=
  match s.runOf ck job with
  | none => .refused
  | some r => if off < r.n * 65536 then .at (spadLoc ck (r.seg * 65536 + off)) else .refused

/-- Steps 4 and 5 of R118 for one address of a job, for a unit of cluster `ck` with the translation cache `via`: windows, allocation and
placement, translation. -/
def State.place (s : State) (ck via job : Nat) (need : Need) (va : Nat) : State × Place :=
  if 0x400000 ≤ va ∧ va < 0x800000 then (s, s.windowPlace ck job (va - 0x400000))
  else if 0x40000000 ≤ va ∧ va < 0x80000000 then
    let die := va / 2 ^ 28 % 4
    let tgt := die * 64 + va / 2 ^ 22 % 64
    if die = 3 ∨ !(s.jobAt job).place.has tgt then (s, .refused) else (s, s.windowPlace tgt job (va % 2 ^ 22))
  else if translated va then s.translate ck via job need va
  else (s, .refused)

/-! ## Faults (R114) -/

/-- A fault recorded in a die's buffer: a page that already has an entry gains a waiter (R114). -/
def addFault (fs : List FaultEnt) (pg : PageKey) (va kind : Nat) (t2 wr : Bool) (loc : Nat) : List FaultEnt :=
  if fs.any (fun f => f.pg == pg) then fs.map fun f => if f.pg = pg then { f with waiters := f.waiters + 1, wr := f.wr || wr } else f
  else fs ++ [⟨pg, va, wr, kind, t2, loc, 1, 0⟩]

def State.recordFault (s : State) (die : Nat) (pg : PageKey) (va kind : Nat) (t2 wr : Bool) (loc : Nat) : State :=
  s.modDie die fun d => { d with faults := addFault d.faults pg va kind t2 wr loc }

/-- A waiter leaves an entry of a fault buffer (R344). -/
def State.dropWaiter (s : State) (die : Nat) (pg : PageKey) : State :=
  s.modDie die fun d => { d with faults := d.faults.map fun f => if f.pg = pg then { f with waiters := f.waiters - 1 } else f }

/-! ## Accesses of a handler core (R118) -/

/-- Steps 4 and 5 of R118 for the executing activation, through the load/store path of its core (R112). -/
def State.reach (s : State) (need : Need) (va : Nat) : State × Place := s.place s.ck (1 + coreOf s.cur % 16) s.jid need va

/-- The place of an aligned access of the executing activation: alignment, then steps 4 and 5. `kind`, `reg` and `size` describe the
access as a saved context does (R351); kind 0 is an access that a context has no code for. A write to a shadow region whose page is not present
parks first, and the ACCESS of R149 comes when it resumes (the spec does not order the two: DESIGN CHOICE, log entry 64). -/
def State.locate (s : State) (need : Need) (va : W64) (n kind reg size : Nat) : Res Nat :=
  let a := va.toNat
  if a % n ≠ 0 then .trap s 2 va
  else
    let job := s.jid
    match s.reach need a with
    | (s, .refused) => .trap s 4 va
    | (s, .busy) => .hold s
    | (s, .parked pg k t2 loc) =>
      .wait (s.recordFault (dieOf s.ck) pg a k t2 (need != .read) loc) (.parked pg (dieOf s.ck) a kind reg size)
    | (s, .at loc) =>
      match regionAt (s.jobAt job).regions a with
      | none => .ok s loc
      | some (_, r) => if need = .read then .ok s (if r.gen % 2 = 0 then loc else side1 loc) else .trap s 4 va

/-- What a read returns: the number and whether it is poisoned. -/
structure Got where
  v : Nat
  p : Bool
  deriving DecidableEq, Repr

/-- The n bytes at a place, read now: the line merged, the bank touched (R120, R132). -/
def State.readNow (s : State) (loc n : Nat) : State × Got :=
  let s := (s.mergeLine loc).touch loc
  (s, ⟨s.numAt loc n, s.poisAt loc n⟩)

/-! ### Copies that asynchronous writes leave behind (R146, R155) -/

/-- Bytes at a place with those that an asynchronous write replaced put back. -/
def Stale.restore (r : Stale) (loc : Nat) (bs : List (Byte × Bool)) : List (Byte × Bool) :=
  bs.zipIdx.map fun e => if r.loc ≤ loc + e.2 then (r.old[loc + e.2 - r.loc]?).getD e.1 else e.1
/-- The copies that meet n bytes at a place and that an activation may still be given, newest first. -/
def State.staleFor (s : State) (act loc n : Nat) : List Stale := s.stale.filter fun r => r.meets loc n && !r.seen.has act
/-- Copies that can no longer be returned to an activation, because it has read what followed them, or for another reason. -/
def State.pass (s : State) (act : Nat) (read : Bool) (f : Stale → Bool) : State :=
  { s with stale := s.stale.map fun r => if f r then { r with seen := r.seen.add act, read := if read then r.read.add act else r.read } else r }
/-- The results of groups before the last can no longer be returned to an activation (R155, R327). -/
def State.passGroups (s : State) (act : Nat) : State :=
  { s with groups := s.groups.map fun e => (e.1, { e.2 with old := e.2.old.map fun r => { r with seen := r.seen.add act } }) }
/-- An asynchronous write that an activation has read is performed with respect to every agent (R145; log entry 57). -/
def State.fenced (s : State) (act : Nat) : State :=
  { s with stale := s.stale.filter (fun r => !r.read.has act),
           groups := s.groups.map fun e => (e.1, { e.2 with old := e.2.old.filter fun r => !r.read.has act }) }

/-- What a load of an activation returns now (R139, R146): the newest bytes, or, where asynchronous writes left copies, the bytes as they stood
before some of the newest of them, freely; it never goes back behind what it has returned (log entry 57). An armed range is never served from a
copy (R300). -/
def State.loadNow (s : State) (act loc n : Nat) : State × Got :=
  let r := s.readNow loc n
  if s.armedAt loc n then (r.1.pass act true fun x => x.meets loc n, r.2)
  else match s.staleFor act loc n with
  | [] => r
  | rs =>
    let k := Config.copyAge s.freeN % (rs.length + 1)
    let now := (List.range n).map fun i => (r.1.byteAt (loc + i), r.1.poisAt (loc + i) 1)
    let bs := (rs.take k).foldl (fun bs x => x.restore loc bs) now
    let t := r.1.pass act true fun x => (rs.drop k).contains x
    ({ t with freeN := t.freeN + 1 }, ⟨leNat (bs.map Prod.fst), bs.any Prod.snd⟩)

/-- A store performed (R118, R120). -/
def State.storeAt (s : State) (loc : Nat) (bs : List Byte) (p : Bool) : State := ((s.mergeLine loc).touch loc).poke loc bs p

/-! ### Loads and stores -/

/-- A read of the executing activation that must answer at once; the instruction does not issue while it stalls. -/
def State.read (s : State) (va : W64) (n kind reg : Nat) : Res Got :=
  (s.locate .read va n kind reg (Nat.log2 n)).bind fun s loc =>
    if s.stalled loc n || s.full n [loc] then .hold s
    else let r := s.loadNow s.actKey loc n; .ok r.1 r.2

/-- A number that no outstanding access of the executing activation has. -/
def State.accId (s : State) : Nat :=
  1 + (s.pend.filter fun p => p.act == s.actKey).foldl (fun m p => max m p.id) (s.b.loads.foldl (fun m o => max m o.id) 0)

/-- Whether an earlier access of the executing activation is still outstanding, so that a release waits for it (R142, R153). -/
def State.behind (s : State) (rel : Bool) : Bool := rel && s.pend.any fun p => p.act == s.actKey

/-- One write of a store: performed, or issued and held by a stall or behind earlier accesses, and then it completes on its own (R300). -/
def State.storePiece (s : State) (id : Nat) (rel : Bool) (va loc : Nat) (bs : List Byte) (p : Bool) : State :=
  if s.stalled loc bs.length || s.behind rel then { s with pend := s.pend ++ [⟨s.actKey, s.cur, s.jid, va, id, loc, bs.length, rel, .store bs p⟩] }
  else s.storeAt loc bs p

/-- A store of the executing activation from register `reg` (R118, R120); `rel` makes it a release (R153). -/
def State.write (s : State) (rel : Bool) (va : W64) (n : Nat) (v : Nat) (p : Bool) (reg : Nat) : Res Unit :=
  (s.locate .write va n 3 reg (Nat.log2 n)).bind fun s loc =>
    if s.full n [loc] then .hold s else .ok (s.storePiece s.accId rel va.toNat loc (leBytes n v) p) ()

/-- The scalar value of a load: sign- or zero-extended (R82). -/
def extend (sx : Bool) (n v : Nat) : W64 := if sx then BitVec.ofInt 64 (sextNat (8 * n) v) else w64 v

/-- The data of a load arrived: rd, its poison, and CHKI.PSN (R81, R120). -/
def Bank.loaded (b : Bank) (rd : Reg) (v : W64) (p : Bool) : Bank := (b.setX rd v p).psnIf p 9

/-- An access of a load: its element or 0, its place, its address. -/
abbrev LoadPiece := Nat × Nat × Nat

/-- A load issued that waits in part (R121, R122): `parts` gives each access, with its data where it does not wait; `op` is what each waiting access
does. -/
def State.owe (s : State) (dest : LoadDest) (n : Nat) (acq rel : Bool) (op : Nat → PendOp) (parts : List (LoadPiece × Option Got)) : State :=
  let id := s.accId
  let new := parts.zipIdx.filterMap fun (q, i) =>
    match q.2 with | some _ => none | none => some ⟨s.actKey, s.cur, s.jid, q.1.2.2, id, q.1.2.1, n, rel, op i⟩
  let o : Outst := ⟨id, dest, n, acq, s.b.service, parts.map fun q => ⟨q.1.1, q.2.map fun g => (g.v, g.p)⟩⟩
  { s.modB fun b => { b with loads := b.loads ++ [o] } with pend := s.pend ++ new }

/-- The size code of a scalar load in a saved context: the width, and whether the data is zero-extended (R351 gives the field alone; log entry 49). -/
def sizeCode (n : Nat) (sx : Bool) : Nat := Nat.log2 n + (if sx then 0 else 8)

/-- A scalar load from an address (R82, R86): a stalled load is outstanding, and its data arrives later. -/
def State.load (s : State) (acq : Bool) (rd : Reg) (va : W64) (n : Nat) (sx : Bool) : Res Unit :=
  (s.locate .read va n 1 rd (sizeCode n sx)).bind fun s loc =>
    if s.full n [loc] then .hold s
    else if s.stalled loc n then .ok (s.owe (.x rd sx) n acq false .load [((0, loc, va.toNat), none)]) ()
    else let r := s.loadNow s.actKey loc n; .ok (r.1.modB fun b => b.loaded rd (extend sx n r.2.v) r.2.p) ()

/-! ## The send queue and reply slots (R183, R184) -/

/-- Entries of a core's send queue that buffered effects hold: by normal banks, or by bank 4. -/
def heldIn (core : Nat) (urg : Bool) (buf : List Buffered) : Nat := (buf.filter fun e => e.sq == some core && e.urg == urg).length

def State.sqHeld (s : State) (core : Nat) (urg : Bool) : Nat :=
  (s.banks.filter (fun e => decide (e.1 / 80 = core / 16))).foldl (fun n e => n + heldIn core urg e.2.buf) 0 +
  ((s.clusterAt (core / 16)).saved.foldl (fun n e => n + heldIn core urg e.bank.buf) 0)

/-- The free entries of a core's send queue (SQSTAT.SQFREE). -/
def State.sqFree (s : State) (core : Nat) : Nat := 32 - (s.sqHeld core false + s.sqHeld core true)

/-- Whether an entry is free to a bank (R183): normal banks hold at most 28. -/
def State.sqFreeTo (s : State) (bk : Nat) : Bool :=
  decide (s.sqHeld (coreOf bk) false + s.sqHeld (coreOf bk) true < 32) && (bankNo bk == 4 || decide (s.sqHeld (coreOf bk) false < 28))

/-- SQTRAPS counts an SQFULL trap (R195). -/
def Bank.sqTrap (b : Bank) : Bank := { b with sqtraps := if b.sqtraps = 0xFFFF then 0xFFFF else b.sqtraps + 1 }
/-- SQFULL where no entry is free: the count advances, and the trap is taken (R130, R195). -/
def needEntry (s : State) (good : Bool) (tval : W64) : Res Unit := if good then .ok s () else .trap (s.modB Bank.sqTrap) 6 tval

/-- An effect buffered in an entry of the send queue (R162). -/
def State.buffer (s : State) (e : Effect) : State :=
  s.modB fun b => { b with buf := b.buf ++ [⟨e, some (coreOf s.cur), bankNo s.cur == 4⟩] }
/-- An effect buffered without an entry. -/
def State.bufferFree (s : State) (e : Effect) : State :=
  s.modB fun b => { b with buf := b.buf ++ [⟨e, .none, bankNo s.cur == 4⟩] }

/-- The lowest free reply slot of a bank. -/
def Bank.freeSlot (b : Bank) : Option Nat := (List.range 16).find? fun k => !b.slots.has k

/-- Whether a cluster named by a die and cluster field lies in a job's placement. -/
def State.inPlace (s : State) (job die cl : Nat) : Bool := decide (die < 3) && (s.jobAt job).place.has (die * 64 + cl)

/-- A handler of a job's table. -/
def Job.handler (j : Job) (hid : Nat) : Option HandlerEntry := j.img.handlers.find? fun h => h.id == hid

/-! ## Host events (R377) -/

/-- The event types that await a host answer. -/
def awaits (type : Nat) : Bool := [3, 7, 0xB, 0xC, 0xD, 0xF].contains type

/-- Whether there is an event ring (R373): of 2⁶ to 2¹⁶ entries, at a base in T1 that is a multiple of 4 KiB. -/
def State.hasRing (s : State) : Bool :=
  decide (6 ≤ s.eqsize.toNat ∧ s.eqsize.toNat ≤ 16 ∧ s.eqbase.toNat % 4096 = 0) && inT1 (s.eqbase.toNat + 32 * 2 ^ s.eqsize.toNat - 1)
/-- Whether the event ring takes no further event, those counted that wait to enter it (R373, R377). -/
def State.ringFull (s : State) : Bool := !s.hasRing || decide (2 ^ s.eqsize.toNat ≤ (s.eqtail - s.eqhead).toNat + s.evheld.length)

/-- An event handed to the module block, in order; it enters the ring when there is room. One that finds the ring full is dropped
and counted, unless it awaits an answer. -/
def State.post (s : State) (type job die : Nat) (p0 p1 p2 : W64) : State :=
  if s.ringFull && !awaits type then { s with evlost := s.evlost + 1, evover := true }
  else { s with evheld := s.evheld ++ [⟨type, job, die, p0, p1, p2, s.eseq + 1⟩], eseq := s.eseq + 1 }

/-- A mode bit of DSPLIT (R366). -/
def State.assisted (s : State) (bit : Nat) : Bool := fld s.dsplit bit 1 == 1

end Sys2Proof.Machine
end

