-- ==== Sys2Proof/Machine/Operands.lean ====
section
/-! DEFINITION. Operand forms: immediates, the CSRs and their field rules (R89 to R102), vector operands and vin (R34, R180). -/

namespace Sys2Proof.Machine

/-- A sign-extended I or S immediate. -/
def imm12 (i : BitVec 12) : W64 := i.signExtend 64
/-- The byte offset of a branch, whose field holds bits [12:1]. -/
def offB (i : BitVec 12) : W64 := (i ++ 0#1).signExtend 64
/-- The byte offset of a JAL, whose field holds bits [20:1]. -/
def offJ (i : BitVec 20) : W64 := (i ++ 0#1).signExtend 64
/-- The U immediate: bits [31:12], sign-extended. -/
def immU (i : BitVec 20) : W64 := (i ++ 0#12).signExtend 64
/-- A 5-bit two's-complement immediate (R34). -/
def imm5 (i : BitVec 5) : W64 := i.signExtend 64

/-! ## CSRs -/

/-- A number placed at a bit. -/
def at_ (i n : Nat) : W64 := w64 (n * 2 ^ i)

/-- SQSTAT (R95). -/
def State.sqstat (s : State) : W64 :=
  at_ 48 s.b.sqtraps.toNat ||| at_ 16 (s.sqFree (coreOf s.cur)) ||| w64 (16 - s.b.slots.length)

/-- DQSTAT (R96). -/
def State.dqstat (s : State) : W64 :=
  let c := s.coreAt (coreOf s.cur)
  at_ 24 c.taken.toNat ||| at_ 8 c.given.toNat ||| w64 c.dq.length

/-- ACTID of an activation in a bank (R100). -/
def actid (bk : Nat) (b : Bank) : W64 :=
  at_ 48 (b.seq % 2 ^ 16) ||| at_ 40 (dieOf (ckOf bk)) ||| at_ 34 (ckOf bk % 64) ||| at_ 31 (bankNo bk) ||| at_ 27 (coreOf bk % 16) |||
    at_ 15 b.hid ||| w64 b.job

/-- MASKW (R97). -/
def Bank.maskw (b : Bank) : W64 := at_ 16 b.maskOn.toNat ||| w64 b.maskLeft

/-- The value of a CSR; none where the map lists no such address (R91). -/
def State.csr (s : State) (a : Nat) : Option W64 :=
  let b := s.b
  match a with
  | 0x800 => some b.chki | 0x801 => some b.aflags | 0x802 => some b.rndm | 0x803 => some b.vcfg | 0x804 => some b.lglen
  | 0x805 => some b.lgact | 0x806 => some s.sqstat | 0x807 => some s.dqstat | 0x808 => some b.maskw | 0x809 => some b.vstr
  | 0xC00 => some (w64 (s.cycleOf (coreOf s.cur))) | 0xC01 => some (w64 s.time) | 0xCC0 => some b.msg.m.h0 | 0xCC1 => some b.msg.m.h1
  | 0xCC2 => some (actid s.cur b) | 0x5C0 => some b.tcause | 0x5C1 => some b.tval | 0x5C2 => some b.tepc | 0x5C3 => some b.tstat
  | 0x5C4 => some b.tvec | _ => none

/-- The ways a CSR instruction writes (R89). -/
inductive CsrOp where
  | rw | rs | rc
  deriving DecidableEq, Repr

/-- The new value of a read/write field. -/
def CsrOp.new (o : CsrOp) (old src : W64) : W64 :=
  match o with | .rw => src | .rs => old ||| src | .rc => old &&& ~~~src
/-- The bits of a write-one-to-clear field that the write clears (R89). -/
def CsrOp.w1c (o : CsrOp) (src : W64) : W64 := match o with | .rs => 0 | _ => src

/-- Whether EW, FT and LGS name a defined combination (R93). -/
def vcfgOk (v : W64) : Bool :=
  let ew := fld v 0 2; let ft := fld v 2 2
  !(ew == 3 || (ft == 2 && ew == 0) || (ft == 3 && ew != 1) || fld v 6 2 == 3)

/-- VCFG after a write (R93): a write of an undefined combination changes SATM alone. -/
def vcfgWrite (old new : W64) : W64 := if vcfgOk new then new &&& 0xEF else (old &&& 0xCF) ||| (new &&& 0x20)

/-- CHKI after PSN and CHK are cleared by a mask: ORIGIN reads zero while both are zero (R92). -/
def chkiClear (c m : W64) : W64 := if c &&& ~~~(m &&& 3) &&& 3 = 0 then 0 else c &&& ~~~(m &&& 3)

/-- A CSR write under the field access types (R8, R89); a write of a read-only field is ignored. TCAUSE.CAUSE takes any 8 bits: the spec does not
say that a code outside 0x01 to 0x0F is a value without an encoding (DESIGN CHOICE, log entry 59). -/
def State.csrWrite (s : State) (a : Nat) (o : CsrOp) (src : W64) : State :=
  let n := o.new ((s.csr a).getD 0) src
  match a with
  | 0x800 => s.modB fun b => { b with chki := chkiClear b.chki (o.w1c src) }
  | 0x801 => s.modB fun b => { b with aflags := n &&& 0xFF }
  | 0x802 => s.modB fun b => { b with rndm := if fld n 0 3 ≤ 4 then n &&& 7 else b.rndm }
  | 0x803 => s.modB fun b => { b with vcfg := vcfgWrite b.vcfg n }
  | 0x804 => s.modB fun b => { b with lglen := n }
  | 0x805 => s.modB fun b => { b with lgact := (n &&& 0xF) ||| (b.lgact &&& ~~~(o.w1c src) &&& 0xF0) }
  | 0x806 => s.modB fun b => { b with sqtraps := BitVec.ofNat 16 (fld n 48 16) }
  | 0x807 =>
    let k := coreOf s.cur
    s.putCore k { s.coreAt k with taken := BitVec.ofNat 16 (fld n 24 16), given := BitVec.ofNat 16 (fld n 8 16) }
  | 0x809 => s.modB fun b => { b with vstr := n &&& 0xFFFFFFFF }
  | 0x5C0 => s.modB fun b => { b with tcause := n &&& 0xFF }
  | 0x5C1 => s.modB fun b => { b with tval := n }
  | 0x5C2 => s.modB fun b => { b with tepc := n &&& ~~~3#64 }
  | 0x5C3 => s.modB fun b => { b with tstat := (b.tstat &&& 0x1E) ||| (n &&& 0x21) }
  | 0x5C4 => s.modB fun b => { b with tvec := n &&& ~~~3#64 }
  | _ => s

/-- Whether an access to a CSR raises ILLEGAL (R29): not in the map, a write to a read-only CSR, a service-mode CSR in handler mode. -/
def csrIllegal (s : State) (a : Nat) (wr : Bool) : Bool :=
  (s.csr a).isNone || (wr && a / 2 ^ 10 == 3) || (!s.b.service && decide (0x5C0 ≤ a ∧ a ≤ 0x5C4))

/-- A CSR instruction (R80, R89): `src` is the register or zimm, `from_` the register whose poison raises POISON. A read of CHKI waits for every
earlier load (R90). -/
def csrInstr (i : Instr) (o : CsrOp) (rd : Reg) (csr : BitVec 12) (wr : Bool) (src : W64) (from_ : List Reg) (s : State) : Out :=
  if csrIllegal s csr.toNat wr then .next (illegal s i)
  else if csr = 0x800 ∧ s.b.loads ≠ [] then finish (.hold s)
  else finish ((clean s (if wr then from_ else [])).bind fun s _ =>
    let old := (s.csr csr.toNat).getD 0
    let s := if wr then s.csrWrite csr.toNat o src else s
    .ok (s.writeX rd old false) ())

/-! ## vin and vector operands (R180, R34) -/

/-- The doubleword of a payload. -/
def Msg.word (m : Msg) (i : Nat) : W64 := m.pay.getD i 0
def Msg.poisoned (m : Msg) (i : Nat) : Bool := m.pois.getD i false

/-- Four doublewords as a vector register. -/
def vecOf (a b c d : W64) : V256 := d ++ c ++ b ++ a
/-- Doubleword k of a vector. -/
def dwOf (v : V256) (k : Nat) : W64 := v.extractLsb' (64 * k) 64
/-- The poison of the eight words of a vector whose four doublewords have these poison bits. -/
def lanesOf (a b c d : Bool) : BitVec 8 :=
  BitVec.ofNat 8 (3 * a.toNat + 12 * b.toNat + 48 * c.toNat + 192 * d.toNat)

/-- The next 32 bytes of vin (R180): the cursor moves, and a poisoned word sets CHKI.PSN with ORIGIN 0x0A. -/
def Bank.popVin (b : Bank) : Bank × V256 × BitVec 8 :=
  let m := b.msg.m
  let c := b.cursor
  let p := lanesOf (m.poisoned c) (m.poisoned (c + 1)) (m.poisoned (c + 2)) (m.poisoned (c + 3))
  ({ b with cursor := min (c + 4) 32 }.psnIf (p != 0) 10, vecOf (m.word c) (m.word (c + 1)) (m.word (c + 2)) (m.word (c + 3)), p)

/-- A vector source: a register, or 15, which reads vin (R34). -/
def Bank.readV (b : Bank) (r : VReg) : Bank × V256 × BitVec 8 :=
  if r = 15 then b.popVin else (b, b.getV r, b.poisV r)

end Sys2Proof.Machine
end

