-- ==== Sys2Proof/Machine/Atomic.lean ====
section
/-! DEFINITION. The atomics (R127 to R130) and the commutative updates (R131 to R133). -/

namespace Sys2Proof.Machine

/-- The new value of a location of n bytes (R128); none where nothing is written. -/
def atomNew (op : AtomOp) (n old s c : Nat) : Option Nat :=
  let w := 8 * n
  match op with
  | .add => some ((old + s) % 2 ^ w)
  | .swap => some s
  | .xor => some (old ^^^ s)
  | .or => some (old ||| s)
  | .and => some (old &&& s)
  | .min => some (if sextNat w s < sextNat w old then s else old)
  | .max => some (if sextNat w old < sextNat w s then s else old)
  | .minu => some (if s < old then s else old)
  | .maxu => some (if old < s then s else old)
  | .cas => if old = c then some s else none
  | .fadd => some (fadd32 (BitVec.ofNat 32 old) (BitVec.ofNat 32 s)).toNat

/-- An operation of an activation performed at a node or HA as one step (R127): the line merged first; a poisoned location is not written (R129).
It reads the newest bytes. -/
def State.atomAt (s : State) (act loc n : Nat) (op : AtomOp) (v c : Nat) : State × Got :=
  let r := s.readNow loc n
  let t := r.1.pass act true fun x => x.meets loc n
  if r.2.p then (t, r.2)
  else match atomNew op n r.2.v v c with
    | none => (t, r.2)
    | some new => (t.poke loc (leBytes n new) false, r.2)

/-- Whether a place is in the executing cluster's own scratchpad (R130). -/
def State.ownSpad (s : State) (loc : Nat) : Bool := isSpad loc && spadCk loc == s.ck

/-- The low n bytes of a register. -/
def lowX (b : Bank) (r : Reg) (n : Nat) : Nat := (b.getX r).toNat % 2 ^ (8 * n)

/-- A posted atomic or remote commutative update, buffered until ENDH (R130). -/
def State.postAtomic (s : State) (rl : Bool) (va : W64) (op : AtomOp) (n v c : Nat) : Res Unit :=
  (needEntry s (s.sqFreeTo s.cur) va).bind fun s _ => .ok (s.buffer (.atomic ⟨s.actKey, rl, s.jid, va.toNat, op, n, w64 v, w64 c⟩)) ()

/-- An immediate atomic (R130): performed, or outstanding while its place stalls or, as a release, while an earlier access is (R122, R142). -/
def State.amoAt (s : State) (aq rl : Bool) (rd : Reg) (va loc n : Nat) (op : AtomOp) (v c : Nat) : Res Unit :=
  if s.full n [loc] then .hold s
  else if s.stalled loc n || s.behind rl then .ok (s.owe (.x rd true) n aq rl (fun _ => .atom op v c) [((0, loc, va), none)]) ()
  else let r := s.atomAt s.actKey loc n op v c; .ok (r.1.modB fun b => b.loaded rd (extend true n r.2.v) r.2.p) ()

/-- An atomic (R128 to R130): posted where rd is x0 and the address lies outside the own scratchpad, else performed at issue. -/
def amo (op : AtomOp) (n : Nat) (aq rl : Bool) (rd rs1 rs2 : Reg) (s : State) : Out :=
  finish ((clean s (if op = .cas then [rs1, rs2, rd] else [rs1, rs2])).bind fun s _ => (checked s).bind fun s _ =>
    let va := s.b.getX rs1
    let v := lowX s.b rs2 n
    let c := lowX s.b rd n
    (s.locate .both va n 0 rd (Nat.log2 n)).bind fun s loc =>
      if rd = 0 ∧ s.ownSpad loc = false then s.postAtomic rl va op n v c else s.amoAt aq rl rd va.toNat loc n op v c)

/-- The eight doublewords of an empty partial. -/
def zeroLine : List W64 := List.replicate 8 0

/-- One element added into a line of partials at a byte offset. -/
def addAt (int64 : Bool) (l : List W64) (off : Nat) (v : W64) : List W64 :=
  let i := off / 8
  let x := l.getD i 0
  let new := if int64 then x + v
    else if off % 8 = 0 then (x.extractLsb' 32 32) ++ fadd32 (x.extractLsb' 0 32) (v.setWidth 32)
    else fadd32 (x.extractLsb' 32 32) (v.setWidth 32) ++ (x.extractLsb' 0 32)
  l.set i new

/-- A commutative update to a translated place (R131): the line takes the state of its type, merged first if it has the other, and
the operand is added into the cluster's partial. -/
def State.commAdd (s : State) (ck loc : Nat) (int64 : Bool) (v : W64) : State :=
  let line := lineOf loc
  let s := match s.comm.find? (fun c => c.loc == line) with
    | some c => if c.int64 = int64 then s else s.mergeLine loc
    | none => s
  let old := (s.comm.find? fun c => c.loc == line).getD ⟨line, int64, [], [], false⟩
  let part := addAt int64 (old.cls.get zeroLine ck) (loc - line) v
  { s with comm := (s.comm.filter fun c => c.loc != line) ++ [{ old with cls := FMap.insert (old.cls.erase ck) ck part }] }

/-- CUADD and CUADDI (R131): at the node for the own scratchpad, posted for another, into the cluster's partial for T1 and T2. One whose place stalls
does not issue yet. -/
def comm (int64 : Bool) (rs1 rs2 : Reg) (s : State) : Out :=
  let n := if int64 then 8 else 4
  let op := if int64 then AtomOp.add else AtomOp.fadd
  finish ((clean s [rs1, rs2]).bind fun s _ => (checked s).bind fun s _ =>
    let va := s.b.getX rs1
    let v := lowX s.b rs2 n
    (s.locate .both va n 0 0 (Nat.log2 n)).bind fun s loc =>
      if isSpad loc ∧ s.ownSpad loc = false then s.postAtomic false va op n v 0
      else if s.stalled loc n || s.full n [loc] then .hold s
      else if isSpad loc then .ok (s.atomAt s.actKey loc n op v 0).1 ()
      else .ok (s.commAdd s.ck loc int64 (w64 v)) ())

/-- AADD_W (R128). -/
def execAaddW (rd rs1 rs2 : Reg) (aq rl : Bool) (s : State) : Out := amo .add 4 aq rl rd rs1 rs2 s
/-- AADD_D (R128). -/
def execAaddD (rd rs1 rs2 : Reg) (aq rl : Bool) (s : State) : Out := amo .add 8 aq rl rd rs1 rs2 s
/-- ASWAP_W (R128). -/
def execAswapW (rd rs1 rs2 : Reg) (aq rl : Bool) (s : State) : Out := amo .swap 4 aq rl rd rs1 rs2 s
/-- ASWAP_D (R128). -/
def execAswapD (rd rs1 rs2 : Reg) (aq rl : Bool) (s : State) : Out := amo .swap 8 aq rl rd rs1 rs2 s
/-- AXOR_W (R128). -/
def execAxorW (rd rs1 rs2 : Reg) (aq rl : Bool) (s : State) : Out := amo .xor 4 aq rl rd rs1 rs2 s
/-- AXOR_D (R128). -/
def execAxorD (rd rs1 rs2 : Reg) (aq rl : Bool) (s : State) : Out := amo .xor 8 aq rl rd rs1 rs2 s
/-- ACAS_W (R128). -/
def execAcasW (rd rs1 rs2 : Reg) (aq rl : Bool) (s : State) : Out := amo .cas 4 aq rl rd rs1 rs2 s
/-- ACAS_D (R128). -/
def execAcasD (rd rs1 rs2 : Reg) (aq rl : Bool) (s : State) : Out := amo .cas 8 aq rl rd rs1 rs2 s
/-- AFADD_W (R128). -/
def execAfaddW (rd rs1 rs2 : Reg) (aq rl : Bool) (s : State) : Out := amo .fadd 4 aq rl rd rs1 rs2 s
/-- AOR_W (R128). -/
def execAorW (rd rs1 rs2 : Reg) (aq rl : Bool) (s : State) : Out := amo .or 4 aq rl rd rs1 rs2 s
/-- AOR_D (R128). -/
def execAorD (rd rs1 rs2 : Reg) (aq rl : Bool) (s : State) : Out := amo .or 8 aq rl rd rs1 rs2 s
/-- AAND_W (R128). -/
def execAandW (rd rs1 rs2 : Reg) (aq rl : Bool) (s : State) : Out := amo .and 4 aq rl rd rs1 rs2 s
/-- AAND_D (R128). -/
def execAandD (rd rs1 rs2 : Reg) (aq rl : Bool) (s : State) : Out := amo .and 8 aq rl rd rs1 rs2 s
/-- AMIN_W (R128). -/
def execAminW (rd rs1 rs2 : Reg) (aq rl : Bool) (s : State) : Out := amo .min 4 aq rl rd rs1 rs2 s
/-- AMIN_D (R128). -/
def execAminD (rd rs1 rs2 : Reg) (aq rl : Bool) (s : State) : Out := amo .min 8 aq rl rd rs1 rs2 s
/-- AMAX_W (R128). -/
def execAmaxW (rd rs1 rs2 : Reg) (aq rl : Bool) (s : State) : Out := amo .max 4 aq rl rd rs1 rs2 s
/-- AMAX_D (R128). -/
def execAmaxD (rd rs1 rs2 : Reg) (aq rl : Bool) (s : State) : Out := amo .max 8 aq rl rd rs1 rs2 s
/-- AMINU_W (R128). -/
def execAminuW (rd rs1 rs2 : Reg) (aq rl : Bool) (s : State) : Out := amo .minu 4 aq rl rd rs1 rs2 s
/-- AMINU_D (R128). -/
def execAminuD (rd rs1 rs2 : Reg) (aq rl : Bool) (s : State) : Out := amo .minu 8 aq rl rd rs1 rs2 s
/-- AMAXU_W (R128). -/
def execAmaxuW (rd rs1 rs2 : Reg) (aq rl : Bool) (s : State) : Out := amo .maxu 4 aq rl rd rs1 rs2 s
/-- AMAXU_D (R128). -/
def execAmaxuD (rd rs1 rs2 : Reg) (aq rl : Bool) (s : State) : Out := amo .maxu 8 aq rl rd rs1 rs2 s
/-- CUADD (R131). -/
def execCuadd (rs1 rs2 : Reg) (s : State) : Out := comm false rs1 rs2 s
/-- CUADDI (R131). -/
def execCuaddi (rs1 rs2 : Reg) (s : State) : Out := comm true rs1 rs2 s

end Sys2Proof.Machine
end

