-- ==== Sys2Proof/Machine/Convert.lean ====
section
/-! DEFINITION. The conversion instructions (R70 to R78), shared-exponent blocks (R58 to R60) and row codes (R61), and the write of
vector elements with their poison (R200). -/

namespace Sys2Proof.Machine

/-! ## Elements of a vector register -/

/-- Element j of w bits. -/
def elem (v : V256) (w j : Nat) : Nat := v.toNat / 2 ^ (w * j) % 2 ^ w
/-- Whether element j is poisoned: the word that holds it is (R200). -/
def elemPois (p : BitVec 8) (w j : Nat) : Bool := p.getLsbD (w * j / 32)

/-- Elements packed, the first lowest. -/
def pack (w : Nat) : List Nat → Nat
  | [] => 0
  | x :: t => x % 2 ^ w + 2 ^ w * pack w t

/-- The new poison of a 32-bit word from its elements: written (with poison) or not (R200). -/
def wordPois (old : Bool) (es : List (Option Bool)) : Bool :=
  if es.all Option.isSome then es.any (· == some true) else if es.all Option.isNone then old else old || es.any (· == some true)

/-- A vector with some elements written: `els` gives, for each element, its new value and poison, or nothing. -/
def putEls (w : Nat) (v : V256) (p : BitVec 8) (els : List (Option (Nat × Bool))) : V256 × BitVec 8 :=
  let vals := els.zipIdx.map fun e => match e.1 with | some x => x.1 | none => elem v w e.2
  let per := 32 / w
  let words := (List.range 8).map fun i => wordPois (p.getLsbD i) (((els.drop (per * i)).take per).map fun e => e.map Prod.snd)
  (BitVec.ofNat 256 (pack w vals), BitVec.ofNat 8 (pack 1 (words.map Bool.toNat)))

/-- An element to write: its bits, its flags, its poison. -/
structure El where
  bits : Nat
  fl : Flags
  p : Bool
  deriving DecidableEq, Repr

/-- The element that a mismatch of nature that re-firing does not correct strikes: that of one of the lanes that compute one (R200). -/
def struck (m : Mishap) (lanes : List Nat) : Option Nat :=
  match m with | .bad l => lanes[l % lanes.length]? | _ => none

/-- The end of a vector instruction whose lanes compute the elements `lanes`: elements written with their poison, flags, and what an unrecovered mismatch of
one lane leaves (R200): that of its first firing, which is taken as the right result (DESIGN CHOICE, log entry 58), poisoned. -/
def State.commitLanes (s : State) (b : Bank) (vd : Nat) (w : Nat) (lanes : List Nat) (els : List (Option El)) : Out :=
  let hit := struck s.mishap lanes
  let s := if lanes = [] then s else s.takeMishap
  let els' : List (Option El) := match hit with
    | some j => els.modify j (Option.map fun x => { x with p := true })
    | none => els
  let r := putEls w (b.getV vd) (b.poisV vd) (els'.map fun e => e.map fun x => (x.bits, x.p))
  let b := (b.setV vd r.1 r.2).orFlags (els'.foldl (fun f e => match e with | some x => f ||| x.fl | none => f) 0)
  .next (s.putB (if hit.isSome then b.markChk 2 else b).advance)

/-- The elements that are written. -/
def written (els : List (Option El)) : List Nat := (els.zipIdx.filter fun e => e.1.isSome).map Prod.snd

/-- The end of a vector instruction of which a lane computes each element written. -/
def State.commit (s : State) (b : Bank) (vd : Nat) (w : Nat) (els : List (Option El)) : Out := s.commitLanes b vd w (written els) els

/-! ## The data of loads that arrives (R121, R350) -/

/-- The x_k of service mode or of handler mode written, whichever mode the bank is in: x1 to x7 of the other mode are held apart (R338). -/
def Bank.setModeX (svc : Bool) (b : Bank) (r : Nat) (v : W64) (p : Bool) : Bank :=
  if b.service ≠ svc ∧ 0 < r ∧ r < 8 then { b with svc := b.svc.set 0 r v, svcp := b.svcp.set false r p } else b.setX (Fin.ofNat 32 r) v p

/-- The pieces of a load that do not stall, read in order (R121). -/
def State.readParts (s : State) (n : Nat) : List LoadPiece → State × List (LoadPiece × Option Got)
  | [] => (s, [])
  | x :: t =>
    let r : State × Option Got := if s.stalled x.2.1 n then (s, none) else let q := s.loadNow s.actKey x.2.1 n; (q.1, some q.2)
    let q := r.1.readParts n t
    (q.1, (x, r.2) :: q.2)

/-- Words put into the payload of a buffered send. -/
def Buffered.fill (gs : List (Nat × Nat × Bool)) (e : Buffered) : Buffered :=
  match e.eff with
  | .send m slot =>
    { e with eff := .send { m with pay := gs.foldl (fun l g => l.set g.1 (w64 g.2.1)) m.pay, pois := gs.foldl (fun l g => l.set g.1 g.2.2) m.pois } slot }
  | _ => e

/-- The data of a load put into the bank that issued it, each piece with its element or 0, its number and its poison: vector elements, x_rd of the
mode that issued it, or the payload of a send; poisoned data of a load sets CHKI.PSN. -/
def Bank.arrived (dest : LoadDest) (svc : Bool) (n : Nat) (gs : List (Nat × Nat × Bool)) (b : Bank) : Bank :=
  match dest with
  | .x r sx =>
    match gs with
    | (_, v, p) :: _ => (b.setModeX svc r (extend sx n v) p).psnIf p 9
    | [] => b
  | .v r w els =>
    let per := 8 * n / w
    let new := (List.range (256 / w)).map fun j =>
      if els.has j then (gs.find? fun g => g.1 == j / per).map fun g => (g.2.1 / 2 ^ (w * (j % per)) % 2 ^ w, g.2.2) else none
    let v := putEls w (b.getV r) (b.poisV r) new
    (b.setV r v.1 v.2).psnIf (gs.any fun g => g.2.2) 9
  | .pay k => { b with buf := b.buf.modify k (Buffered.fill gs) }

/-- A load of several pieces (R121, R122, R217): its data at once, or, while a piece stalls, outstanding. `pre` is what the instruction does to its bank
beside. -/
def State.loadPieces (s : State) (dest : LoadDest) (n : Nat) (pre : Bank → Bank) (ps : List LoadPiece) : Res Unit :=
  let late := ps.any fun q => s.stalled q.2.1 n
  if s.full n (ps.map fun q => q.2.1) then .hold s
  else
    let r := (s.modB pre).readParts n ps
    if late then .ok (r.1.owe dest n false false .load r.2) ()
    else .ok (r.1.modB (Bank.arrived dest s.b.service n (r.2.map fun q => (q.1.1, (q.2.getD ⟨0, false⟩).v, (q.2.getD ⟨0, false⟩).p)))) ()

/-! ## Conversion of one element (R70) -/

/-- The floating-point format of a storage format, none for integers. -/
def fmtFF : Fmt → Option FF
  | .fp32 => some FF.fp32 | .bf16 => some FF.bf16 | .fp16 => some FF.fp16 | .e4m3 => some FF.e4m3 | .e5m2 => some FF.e5m2 | _ => none

/-- Bits of a storage format. -/
def fmtWidth : Fmt → Nat
  | .fp32 => 32 | .int32 => 32 | .bf16 => 16 | .fp16 => 16 | .int16 => 16 | _ => 8

/-- The value of a code of a storage format. -/
def fmtValue (f : Fmt) (c : Nat) : Val :=
  match fmtFF f with
  | some g => g.value c
  | none => Val.ofInt (sextNat (fmtWidth f) c)

/-- A value converted to a storage format. -/
def fmtOf (f : Fmt) (mode : RM) (v : Val) : Nat × Flags :=
  match fmtFF f with
  | some g => g.ofVal mode v
  | none => let r := intOfVal mode (fmtWidth f) v; (lowBits (fmtWidth f) r.1, r.2)

/-- The mode of a rounding code (R32). -/
def rcMode (c : RCode) (b : Bank) : RM :=
  match c with | .rndm => b.mode | .rne => .rne | .rtz => .rtz | .rdn => .rdn | .rup => .rup | .rna => .rna

/-- VCVT and VCVTSR (R74): `mode` and `rp` give the rounding and the poison of the random bits for each element. -/
def convert (dst src : Fmt) (mode : Nat → RM) (rp : Nat → Bool) (vs : V256 × BitVec 8) (b : Bank) (vd : VReg) (s : State) : Out :=
  let ws := (fmtWidth src)
  let wd := (fmtWidth dst)
  let n := 256 / max ws wd
  s.commitLanes b vd wd (List.range n) ((List.range (256 / wd)).map fun j =>
    if j < n then
      let r := fmtOf dst (mode j) (fmtValue src (elem vs.1 ws j))
      some ⟨r.1, r.2, elemPois vs.2 ws j || rp j⟩
    else some ⟨0, 0, false⟩)

/-- VCVT (R74). -/
def execVcvt (dst src : Fmt) (rm : RCode) (vs vd : VReg) (s : State) : Out :=
  let r := s.b.readV vs
  convert dst src (fun _ => rcMode rm s.b) (fun _ => false) r.2 r.1 vd s

/-- VCVTSR (R74, R71). -/
def execVcvtsr (dst src : Fmt) (vr vs vd : VReg) (s : State) : Out :=
  let r := s.b.readV vs
  let q := r.1.readV vr
  let n := 256 / max (fmtWidth src) (fmtWidth dst)
  let k := 256 / n
  convert dst src (fun j => .sr (elem q.2.1 k j) k) (fun j => elemPois q.2.2 k j) r.2 q.1 vd s

/-! ## Shared-exponent blocks (R58 to R60) -/

/-- The element width of a block type. -/
def sxK : Sx → Nat | .sx2 => 2 | .sx4 => 4 | .sx7 => 7

/-- A block: exponent, micro-exponents, magnitudes and signs. -/
structure Block where
  e : Nat
  me : List Bool
  els : List (Nat × Bool)
  deriving DecidableEq, Repr

/-- A block with an exponent and zero everywhere else. -/
def Block.blank (e : Nat) : Block := ⟨e, List.replicate 8 false, List.replicate 16 (0, false)⟩

def Val.mag : Val → Mag | .fin _ n d => .rat n d | _ => .rat 0 1

/-- The place value of an element at (E, me). -/
def sxScale (k : Nat) (e : Int) (me : Bool) : Int := e - (if me then 1 else 0) - 127 - (k - 1)

/-- The magnitude of q(v, E, me). -/
def sxQuot (k : Nat) (mode : RM) (e : Int) (me : Bool) (v : Val) : Nat := roundAt mode v.neg v.mag (sxScale k e me)

/-- Whether a magnitude equals u units of 2^q. -/
def Mag.isUnits (m : Mag) (u : Nat) (q : Int) : Bool := m.exactAt q && m.floorAt q == u

/-- Quantisation of 16 values (R60); `mode` gives the rounding of each element. -/
def quantise (k : Nat) (mode : Nat → RM) (a : List Val) : Block × Flags :=
  let lim := 2 ^ k - 1
  if a.any (fun v => !v.isFin) then (Block.blank 255, fQNTF)
  else if a.all Val.isZero then (Block.blank 0, 0)
  else
    let top := (a.filter fun v => !v.isZero).foldl (fun (m : Int) v => if m < v.mag.log2 then v.mag.log2 else m) (-100000)
    let e0 : Int := top + 127
    let e1 := if a.zipIdx.any fun v => decide (lim < sxQuot k (mode v.2) e0 false v.1) then e0 + 1 else e0
    let sat := decide (254 < e1)
    let e : Int := if sat then 254 else e1
    if e < 1 then (Block.blank 0, fUFL ||| fINX)
    else
      let fits (j : Nat) (v : Val) : Bool := decide (sxQuot k (mode j) e true v ≤ lim)
      let me := (List.range 8).map fun i => fits (2 * i) (a.getD (2 * i) .nan) && fits (2 * i + 1) (a.getD (2 * i + 1) .nan)
      let ts := a.zipIdx.map fun v => (v.1, sxQuot k (mode v.2) e (me.getD (v.2 / 2) false) v.1, sxScale k e (me.getD (v.2 / 2) false))
      let fl := ts.foldl (fun (f : Flags) t =>
        f ||| flagIf (decide (lim < t.2.1)) fSAT ||| flagIf (!t.1.mag.isUnits (min t.2.1 lim) t.2.2) fINX) (flagIf sat fSAT)
      (⟨e.toNat, me, ts.map fun t => (min t.2.1 lim, t.1.neg)⟩, fl)

/-- A block as bits: byte 0 E, byte 1 the micro-exponents, then the elements (R58). -/
def Block.bits (k : Nat) (b : Block) : Nat :=
  b.e + 256 * pack 1 (b.me.map Bool.toNat) + 65536 * pack (k + 1) (b.els.map fun e => e.1 + e.2.toNat * 2 ^ k)

/-- Element j of the block that bits hold (R59). -/
def blockVal (k bits j : Nat) : Val :=
  let e := bits % 256
  if e = 0 then .fin false 0 1
  else if e = 255 then .nan
  else
    let x := bits / 65536 / 2 ^ ((k + 1) * j) % 2 ^ (k + 1)
    .dyad (x / 2 ^ k == 1) (x % 2 ^ k) (sxScale k e (bits / 2 ^ (8 + j / 2) % 2 == 1))

/-- The bytes of a block. -/
def sxBytes (k : Nat) : Nat := 2 + 2 * (k + 1)

/-- A destination written whole from its eight words: each word's bits and poison. -/
def whole (bits : Nat) (fl : Flags) (p : Nat → Bool) : List (Option El) :=
  (List.range 8).map fun i => some ⟨bits / 2 ^ (32 * i) % 2 ^ 32, if i = 0 then fl else 0, p i⟩

/-- VQSX (R75, R72): a poisoned source lane poisons the whole block; so does a mismatch (R200). -/
def execVqsx (k : Sx) (rm : RCode) (vs vd : VReg) (s : State) : Out :=
  let r := s.b.readV vs
  let q := quantise (sxK k) (fun _ => rcMode rm s.b) ((List.range 16).map fun j => FF.bf16.value (elem r.2.1 16 j))
  let hit := match s.mishap with | .bad _ => true | _ => false
  let s := s.takeMishap
  let n := (sxBytes (sxK k) + 3) / 4
  let b := if hit then r.1.markChk 2 else r.1
  s.commit b vd 32 (whole (q.1.bits (sxK k)) q.2 fun i => decide (i < n) && (hit || r.2.2 != 0))

/-- VDQSX (R76, R72): an element is poisoned by word 0, which holds E and the micro-exponents, and by the words of its own bits. -/
def execVdqsx (k : Sx) (_rm : RCode) (vs vd : VReg) (s : State) : Out :=
  let r := s.b.readV vs
  let lo (j : Nat) : Nat := (16 + ((sxK k) + 1) * j) / 32
  let hi (j : Nat) : Nat := (16 + ((sxK k) + 1) * j + (sxK k)) / 32
  s.commit r.1 vd 16 ((List.range 16).map fun j =>
    some ⟨(FF.bf16.ofVal .rne (blockVal (sxK k) r.2.1.toNat j)).1, 0, r.2.2.getLsbD 0 || r.2.2.getLsbD (lo j) || r.2.2.getLsbD (hi j)⟩)

/-! ## Row codes (R61, R77, R78) -/

/-- One column of VQROW: the code and its flags. -/
def rowCode (mode : RM) (lim : Nat) (sg om x : Val) : Nat × Flags :=
  let bad := !sg.isFin || sg.isZero || sg.neg || !om.isFin
  if bad || x.isNan then (0, fINV)
  else
    match (x.add .rne om.negate).div sg with
    | .fin neg n d =>
      let t := roundInt mode neg (.rat n d)
      let c := if t < 0 then 0 else if (lim : Int) < t then lim else t.toNat
      let back := (Val.mul sg (Val.ofInt c)).add .rne om
      (c, flagIf (decide (t < 0 ∨ (lim : Int) < t)) fSAT ||| flagIf (back.cmp x != 0) fINX)
    | v => (if v.neg then 0 else lim, fSAT ||| fINX)

/-- VQROW (R77): the header of vd stays; a poisoned header poisons every destination lane, which are here the words that hold a code: the spec does
not say whether the zero words above the codes are destination lanes (R72; DESIGN CHOICE, log entry 61). A lane computes a code (R200). -/
def execVqrow (four : Bool) (rm : RCode) (vs vd : VReg) (s : State) : Out :=
  let r := s.b.readV vs
  let h := (s.b.getV vd).toNat
  let w := if four then 4 else 8
  let q := (List.range 8).map fun j =>
    rowCode (rcMode rm s.b) (2 ^ w - 1) (FF.fp16.value (h % 65536)) (FF.fp16.value (h / 65536 % 65536)) (FF.fp32.value (elem r.2.1 32 j))
  let bits := h % 2 ^ 32 + 2 ^ 32 * pack w (q.map Prod.fst)
  let hp := (s.b.poisV vd).getLsbD 0
  let per := 32 / w
  let word (i : Nat) : Bool :=
    if i = 0 then hp
    else decide (i ≤ 8 / per) && (hp || (List.range per).any fun k => r.2.2.getLsbD (per * (i - 1) + k))
  s.commitLanes r.1 vd 32 ((List.range 8).map fun j => 1 + j / per) (whole bits (q.foldl (fun f x => f ||| x.2) 0) word)

/-- VDQROW (R78): σ · q + ω with one rounding. -/
def execVdqrow (four : Bool) (rm : RCode) (vs vd : VReg) (s : State) : Out :=
  let r := s.b.readV vs
  let v := r.2.1.toNat
  let w := if four then 4 else 8
  let sg := FF.fp16.value (v % 65536)
  let om := FF.fp16.value (v / 65536 % 65536)
  s.commit r.1 vd 32 ((List.range 8).map fun j =>
    let q := Val.ofInt (v / 2 ^ (32 + w * j) % 2 ^ w)
    let c := FF.fp32.result (rcMode rm s.b) (sg.fma (rcMode rm s.b) q om) [sg, q, om]
    some ⟨c.1, c.2, r.2.2.getLsbD 0 || r.2.2.getLsbD (1 + w * j / 32)⟩)

end Sys2Proof.Machine
end

