-- ==== Sys2Proof/Machine/Tcw.lean ====
section
/-! DEFINITION. Tile control words (R36 to R38): the operand tables of the six engine classes (R224, R239 to R244, R259, R290, R301, R311,
R317, R332), the checks made when a TCW is pushed, in their order, and the words of a command. -/

namespace Sys2Proof.Machine

/-! ## Fields -/

/-- Whether only the fields listed, as (bit, width), have set bits. -/
def only (w : W64) (fs : List (Nat × Nat)) : Bool := w.toNat == fs.foldl (fun a f => a + fld w f.1 f.2 * 2 ^ f.1) 0

/-- The ranges that R104 marks None. -/
def noneRanges : List (Nat × Nat) :=
  [(0, 0x100000), (0x140000, 0x400000), (0x800000, 0x1000000), (0x80000000, 0x100000000), (2 ^ 56, 2 ^ 64)]

/-- Whether bytes lo to hi−1 lie wholly in a range that R104 marks None. -/
def inNone (lo hi : Nat) : Bool := noneRanges.any fun r => decide (r.1 ≤ lo ∧ hi ≤ r.2)

/-- The bits of a W36, W64 or word from a number. -/
def codeOf (b : Bool) (i : Nat) : Nat := b.toNat * 2 ^ i

/-! ## Formats of class 0 and 1 (R222, R242, R259) -/

def opFmtCode : OpFmt → Nat
  | .fp32 => 0 | .bf16 => 1 | .fp16 => 2 | .e4m3 => 3 | .e5m2 => 4 | .int8 => 5 | .packed => 6
def opFmtOf : Nat → OpFmt
  | 0 => .fp32 | 1 => .bf16 | 2 => .fp16 | 3 => .e4m3 | 4 => .e5m2 | 5 => .int8 | _ => .packed
/-- The storage format of an operand format; a prepacked operand has none. -/
def opFmtStore : OpFmt → Option Fmt
  | .fp32 => some .fp32 | .bf16 => some .bf16 | .fp16 => some .fp16 | .e4m3 => some .e4m3 | .e5m2 => some .e5m2 | .int8 => some .int8
  | .packed => none
/-- The element size z of an operand format; the alignment unit of a prepacked operand is 2 (R224). -/
def opFmtSize : OpFmt → Nat
  | .fp32 => 4 | .bf16 => 2 | .fp16 => 2 | .e4m3 => 1 | .e5m2 => 1 | .int8 => 1 | .packed => 2
def drainCode : DrainFmt → Nat | .w36 => 0 | .fp32 => 1 | .bf16 => 2 | .fp16 => 3
def drainOf : Nat → DrainFmt | 0 => .w36 | 1 => .fp32 | 2 => .bf16 | _ => .fp16
/-- The element size of a drain format (R242). -/
def drainSize : DrainFmt → Nat | .w36 => 8 | .fp32 => 4 | .bf16 => 2 | .fp16 => 2
def sxCode : Sx → Nat | .sx2 => 0 | .sx4 => 1 | .sx7 => 2
def sxOf : Nat → Sx | 0 => .sx2 | 1 => .sx4 | _ => .sx7

/-! ## Cell programs (R240, R241) -/

/-- The micro-op i of a cell program: OP, D, X, Y and the low bits. -/
structure MicroOp where
  op : Nat
  d : Nat
  x : Nat
  y : Nat
  low : Nat
  deriving DecidableEq, Repr

def microOp (p : W64) (i : Nat) : MicroOp :=
  let m := fld p (16 * i) 16
  ⟨m / 4096, m / 1024 % 4, m / 256 % 4, m / 64 % 4, m % 64⟩

/-- Whether a micro-op keeps the table of R240. -/
def MicroOp.ok (m : MicroOp) : Bool := decide (m.op ≤ 8 ∧ m.d ≤ 1 ∧ m.low = 0) && !((m.op == 6 || m.op == 7) && m.y != 0)

/-- The check of ACCFG on a cell program (R241): after END every micro-op is zero, and the first is not END. -/
def progOk (p : W64) : Bool :=
  let ms := (List.range 4).map (microOp p)
  ms.all MicroOp.ok && (microOp p 0).op != 0 &&
    (List.range 4).all fun i => (microOp p i).op != 0 || (List.range 4).all fun j => decide (j ≤ i) || fld p (16 * j) 16 == 0

/-! ## What the operand table of a command says -/

/-- A TCW read by its command's entry: the instruction, the CMDF bits that the entry defines, the alignment checks (0x06) and the limit
checks (0x07). -/
structure Form where
  i : Instr
  cmdf : Nat
  aligned : Bool
  inside : Bool
  deriving DecidableEq, Repr

/-- Rows and columns of the projected tile that the command names (R224). -/
structure Dims where
  rows : Nat
  cols : Nat
  deriving DecidableEq, Repr

/-- The bytes that operand A or B spans from its base (R222). -/
def spanA (o : OpaOperand) (sx : Sx) (kb : Nat) (d : Dims) : Nat :=
  (d.rows - 1) * o.str + (if o.fmt = .packed then kb * sxBytes (sxK sx) else 16 * kb * opFmtSize o.fmt)
def spanB (o : OpaOperand) (sx : Sx) (kb : Nat) (d : Dims) : Nat :=
  if o.fmt = .packed then (d.cols - 1) * o.str + kb * sxBytes (sxK sx) else (16 * kb - 1) * o.str + d.cols * opFmtSize o.fmt

/-- The stride check of R224. -/
def strideOk (b : Bool) (o : OpaOperand) (sx : Sx) (kb : Nat) (d : Dims) : Bool :=
  if o.fmt = .packed then decide (kb * sxBytes (sxK sx) ≤ o.str)
  else if b then decide (d.cols * opFmtSize o.fmt ≤ o.str) else decide (16 * kb * opFmtSize o.fmt ≤ o.str)

def rangeOk (lo n : Nat) : Bool := decide (lo + n ≤ 2 ^ 56) && !inNone lo (lo + n)

/-- MMA and CELLP (R224, R239, R240). An operand of the reserved format 111 is held to an alignment of 2 bytes, which decides between 0x07 and 0x06 and
which R224 does not give (DESIGN CHOICE, log entry 79). -/
def formMma (mma : Bool) (f : Nat) (w1 w2 w3 : W64) (d : Dims) : Form :=
  let sx := sxOf (f / 4)
  let a : OpaOperand := ⟨opFmtOf (fld w1 61 3), fld w1 0 56, fld w3 20 20⟩
  let b : OpaOperand := ⟨opFmtOf (fld w2 61 3), fld w2 0 56, fld w3 0 20⟩
  let kb := fld w3 52 12
  let ks := fld w3 40 12
  let t := Fin.ofNat 4 f
  let fmts := fld w1 61 3 != 7 && fld w2 61 3 != 7 && (mma || (fld w1 61 3 != 6 && fld w2 61 3 != 6))
  ⟨if mma then .mma t sx a b kb ks else .cellp t a b kb ks, if mma then 15 else 3,
   decide (a.base % opFmtSize a.fmt = 0 ∧ a.str % opFmtSize a.fmt = 0 ∧ b.base % opFmtSize b.fmt = 0 ∧ b.str % opFmtSize b.fmt = 0),
   only w1 [(0, 56), (61, 3)] && only w2 [(0, 56), (61, 3)] && fmts && decide (1 ≤ kb ∧ ks < kb) && !(mma && f / 4 == 3) &&
     strideOk false a sx kb d && strideOk true b sx kb d && rangeOk a.base (spanA a sx kb d) && rangeOk b.base (spanB b sx kb d)⟩

/-- Class 0 (R239 to R244). -/
def formOpa (cmd f : Nat) (w1 w2 w3 : W64) (d : Dims) : Option Form :=
  let t := Fin.ofNat 4 f
  let base := fld w1 0 56
  let str := fld w2 0 20
  match cmd with
  | 1 => some (formMma true f w1 w2 w3 d)
  | 2 => some (formMma false f w1 w2 w3 d)
  | 3 => some ⟨.aczero t (f / 8 == 1) (Fin.ofNat 3 (fld w1 0 2)), 11, true, only w1 [(0, 2)] && fld w1 0 2 != 3 && w2 == 0 && w3 == 0⟩
  | 4 =>
    let df := drainOf (fld w1 61 3)
    some ⟨.acdrain t (f / 8 == 1) (f / 4 % 2 == 1) df base str, 15, decide (base % 8 = 0 ∧ str % 8 = 0),
      only w1 [(0, 56), (61, 3)] && only w2 [(0, 20)] && w3 == 0 && decide (fld w1 61 3 < 4 ∧ d.cols * drainSize df ≤ str) && f / 4 != 2⟩
  | 5 =>
    some ⟨.acload t (fld w1 61 3 == 0) base str, 3, decide (base % 8 = 0 ∧ str % 8 = 0),
      only w1 [(0, 56), (61, 3)] && only w2 [(0, 20)] && w3 == 0 &&
        decide (fld w1 61 3 < 2 ∧ d.cols * (if fld w1 61 3 = 0 then 8 else 4) ≤ str)⟩
  | 6 =>
    let rec_ := fld w1 16 2 == 1
    some ⟨.accfg t (f / 4 % 2 == 1) rec_ (Fin.ofNat 128 (fld w1 8 7)) (Fin.ofNat 128 (fld w1 0 7)) w2, 7, true,
      only w1 [(0, 7), (8, 7), (16, 2)] && decide (fld w1 16 2 < 2) && w3 == 0 && (if rec_ then progOk w2 else w2 == 0)⟩
  | 7 => some ⟨.acstat t base, 3, decide (base % 8 = 0), only w1 [(0, 56)] && w2 == 0 && w3 == 0⟩
  | _ => none

/-- Width and number of the groups that PART gives (R246). -/
def partGroups (p : Nat) : Nat := if p = 0 then 1 else if p = 1 then 2 else 4
def partWidth (p : Nat) : Nat := 32 / partGroups p

/-- The set that TSEL gives a group. -/
def tselOf (tsel q : Nat) : Nat := tsel / 4 ^ q % 4
def bitOf (n i : Nat) : Bool := n / 2 ^ i % 2 == 1

/-- The limits of ROT.CFG (R259). -/
def cfgOk (part act tsel : Nat) (nc : List Nat) : Bool :=
  let on := (List.range 4).filter (bitOf act)
  decide (part < 3) && on.all (fun q => decide (q < partGroups part)) &&
    on.all (fun q => on.all fun r => decide (q = r) || tselOf tsel q != tselOf tsel r) &&
    (List.range 4).all fun q => let n := nc.getD q 0; if bitOf act q then decide (1 ≤ n ∧ n ≤ partWidth part) else n == 0

/-- Class 1 (R259). -/
def formRta (cmd f : Nat) (w1 w2 w3 : W64) : Option Form :=
  let set := Fin.ofNat 4 (f / 4)
  let base := fld w1 0 56
  let z23 := w2 == 0 && w3 == 0
  match cmd with
  | 1 =>
    let nc := (List.range 4).map fun q => fld w2 (6 * q) 6
    some ⟨.rotCfg (f / 2 % 2 == 1) (f % 2 == 1) (Fin.ofNat 3 (fld w1 0 2)) (fld w1 4 4) (fld w1 8 8) nc, 3, true,
      only w1 [(0, 2), (4, 4), (8, 8)] && only w2 [(0, 24)] && w3 == 0 && cfgOk (fld w1 0 2) (fld w1 4 4) (fld w1 8 8) nc && f % 4 != 2⟩
  | 2 =>
    match f % 4 with
    | 0 => some ⟨.rotTriStream base, 15, decide (base % 16 = 0), only w1 [(0, 56)] && z23 && f / 4 == 0⟩
    | 1 => some ⟨.rotTriAuto base (fld w2 0 4) (fld w3 0 32), 15, decide (base % 32 = 0),
        only w1 [(0, 56)] && only w2 [(0, 4)] && only w3 [(0, 32)] && f / 4 == 0 && fld w3 0 32 != 0⟩
    | 2 => some ⟨.rotTriLoad set base, 15, decide (base % 8 = 0), only w1 [(0, 56)] && z23⟩
    | _ => some ⟨.rotTriLoad set base, 15, true, false⟩
  | 3 => some ⟨.rotApply (f % 2 == 1) (Fin.ofNat 3 (fld w1 61 3)) base (fld w2 0 56) (fld w3 0 56), 1, decide (fld w3 0 56 % 8 = 0),
      only w1 [(0, 56), (61, 3)] && only w2 [(0, 56)] && only w3 [(0, 56)] && decide (fld w1 61 3 < 3)⟩
  | 4 => some ⟨.rotSolve set base, 12, decide (base % 4 = 0), only w1 [(0, 56)] && z23⟩
  | 5 =>
    match f % 4 with
    | 0 => some ⟨.rotReadFp32 set base (fld w2 0 20), 15, decide (base % 4 = 0 ∧ fld w2 0 20 % 4 = 0), only w1 [(0, 56)] && only w2 [(0, 20)] && w3 == 0⟩
    | 1 => some ⟨.rotReadRaw set base, 15, decide (base % 8 = 0), only w1 [(0, 56)] && z23⟩
    | 2 => some ⟨.rotReadStat base, 15, decide (base % 8 = 0), only w1 [(0, 56)] && z23 && f / 4 == 0⟩
    | _ => some ⟨.rotReadStat base, 15, true, false⟩
  | 6 => some ⟨.rotGain set (w1.setWidth 32), 12, true, only w1 [(0, 32)] && z23⟩
  | 7 =>
    let d := fld w2 0 56
    let n := fld w3 0 24
    some ⟨if f % 2 = 0 then .rotAngToSig32 base d n else .rotAngToBam32 base d n, 1, decide (base % 4 = 0 ∧ d % 4 = 0),
      only w1 [(0, 56)] && only w2 [(0, 56)] && only w3 [(0, 24)] && n != 0⟩
  | _ => none

/-- Class 2 (R290). -/
def formFr (cmd f : Nat) (w1 w2 w3 : W64) : Option Form :=
  let slot := Fin.ofNat 4 f
  let base := fld w1 0 56
  match cmd with
  | 1 => some ⟨.fload slot base, 3, decide (base % 64 = 0), only w1 [(0, 56)] && w2 == 0 && w3 == 0⟩
  | 2 => some ⟨.fsel slot (fld w1 0 16), 3, true, only w1 [(0, 16)] && w2 == 0 && w3 == 0⟩
  | 3 => some ⟨.farg slot base (fld w2 0 11), 3, decide (base % 8 = 0),
      only w1 [(0, 56)] && only w2 [(0, 11)] && w3 == 0 && decide (1 ≤ fld w2 0 11 ∧ fld w2 0 11 ≤ 1024)⟩
  | 4 => some ⟨.fseed slot w1 w2, 3, true, f % 4 != 0 && (w1 != 0) == bitOf f 0 && (w2 != 0) == bitOf f 1 && w3 == 0⟩
  | 5 => some ⟨.fdrain slot (f / 4 % 2 == 1) base, 7, decide (base % 64 = 0), only w1 [(0, 56)] && w2 == 0 && w3 == 0⟩
  | 6 => some ⟨.fstat (f % 2 == 1) base, 1, decide (base % 8 = 0), only w1 [(0, 56)] && w2 == 0 && w3 == 0⟩
  | _ => none

/-- The scratchpad windows (R104). -/
def inLocal (a : Nat) : Bool := decide (0x400000 ≤ a ∧ a < 0x800000)
def inRemote (a : Nat) : Bool := decide (0x40000000 ≤ a ∧ a < 0x80000000)

/-- An operand whose first byte a range of R104 marks None, or that ends above 2⁵⁶, is refused (R301; log entry 22). -/
def operandOk (lo n : Nat) : Bool := !inNone lo (lo + 1) && decide (lo + n ≤ 2 ^ 56)

/-- CP.GET and CP.PUT (R301, R302). -/
def formCopy (get : Bool) (cv : Bool) (f : Nat) (w1 w2 w3 : W64) : Form :=
  let rows := fld w1 56 8 + 1
  let src := fld w1 0 56
  let dst := fld w2 0 56
  let ch := fld w2 60 4
  let chv := fld w2 59 1 == 1
  let len := fld w3 44 20
  let ss := fld w3 24 20
  let ds := fld w3 4 20
  let rcv := f % 2 == 1
  ⟨if get then .cpGet rows src (if chv then some (Fin.ofNat 16 ch) else none) dst len ss ds else .cpPut rcv rows src dst len ss ds,
   if get then 0 else 1, decide (src % 8 = 0 ∧ dst % 8 = 0 ∧ ss % 8 = 0 ∧ ds % 8 = 0),
   (if get then only w2 [(0, 56), (59, 1), (60, 4)] && (chv || ch == 0) else only w2 [(0, 56)]) && only w3 [(4, 20), (24, 20), (44, 20)] &&
     decide (len % 8 = 0 ∧ 8 ≤ len) && (if rows = 1 then ss == 0 && ds == 0 else decide (len ≤ ss ∧ len ≤ ds)) &&
     (if get then !chv || inLocal dst else inLocal src && (!rcv || (cv && (inLocal dst || inRemote dst)))) &&
     operandOk src ((rows - 1) * ss + len) && operandOk dst ((rows - 1) * ds + len)⟩

/-- Class 3 (R301). -/
def formStr (cv : Bool) (cmd f : Nat) (w1 w2 w3 : W64) : Option Form :=
  let base := fld w1 0 56
  match cmd with
  | 1 => some (formCopy true cv f w1 w2 w3)
  | 2 => some (formCopy false cv f w1 w2 w3)
  | 3 =>
    let mb := fld w2 0 56
    let nt := fld w3 40 24
    let tl := fld w3 20 20
    let ts := fld w3 0 20
    some ⟨.cpMc base mb nt tl ts, 0, decide (base % 8 = 0 ∧ mb % 64 = 0 ∧ ts % 8 = 0),
      only w1 [(0, 56)] && only w2 [(0, 56)] && decide (tl % 8 = 0 ∧ 8 ≤ tl ∧ 1 ≤ nt) && (nt == 1 || decide (tl ≤ ts)) &&
        operandOk base ((nt - 1) * ts + tl) && operandOk mb 64⟩
  | 4 =>
    let ch := Fin.ofNat 16 (fld w1 60 4)
    let len := fld w2 0 21
    let sb := fld w3 0 56
    match f % 4 with
    | 0 => some ⟨.cpWmArm ch base len, 3, decide (base % 64 = 0),
        only w1 [(0, 56), (60, 4)] && only w2 [(0, 21)] && w3 == 0 && decide (len % 64 = 0 ∧ 64 ≤ len ∧ len ≤ 2 ^ 20) && operandOk base len⟩
    | 1 => some ⟨.cpWmDisarm ch, 3, true, only w1 [(60, 4)] && w2 == 0 && w3 == 0⟩
    | 2 => some ⟨.cpWmRead ch sb, 3, decide (sb % 16 = 0), only w1 [(60, 4)] && w2 == 0 && only w3 [(0, 56)] && operandOk sb 16⟩
    | _ => some ⟨.cpWmDisarm ch, 3, true, false⟩
  | 5 =>
    let len := fld w2 32 24
    let pub := f % 2 == 1
    some ⟨.cpShd pub base (fld w2 56 8) len (fld w2 0 32) (fld w3 0 48), 1, decide (base % 8 = 0),
      only w1 [(0, 56)] && (if pub then only w3 [(0, 48)] else w3 == 0) && decide (len % 8 = 0 ∧ 8 ≤ len ∧ fld w2 0 32 % 8 = 0) && operandOk base len⟩
  | _ => none

/-- Class 4 (R311, R314 to R317). -/
def formPfu (cmd f : Nat) (w1 w2 w3 : W64) : Option Form :=
  let d := w1.toNat
  let r := w2.toNat
  let al := decide (d % 64 = 0 ∧ r % 32 = 0)
  match cmd with
  | 1 => some ⟨.gRows (f / 2 % 2 == 1) (f % 2 == 1) d r, 3, al, w3 == 0 && f % 4 != 3⟩
  | 2 => some ⟨.gEmb (f % 2 == 1) (f / 2 % 2 == 1) (f / 4 % 2 == 1) d r, 7, al, w3 == 0⟩
  | 3 => match f % 4 with
    | 0 => some ⟨.gScatFadd d r, 3, al, w3 == 0⟩
    | 1 => some ⟨.gScatIadd d r, 3, al, w3 == 0⟩
    | 2 => some ⟨.gScatOverwrite d r, 3, al, w3 == 0⟩
    | _ => some ⟨.gScatOverwrite d r, 3, al, false⟩
  | 4 => some ⟨.gKern (Fin.ofNat 4 f) d (fld w2 0 7), 3, decide (d % 4 = 0),
      only w2 [(0, 7)] && w3 == 0 && decide (1 ≤ fld w2 0 7 ∧ fld w2 0 7 ≤ 64)⟩
  | _ => none

/-- CMDF of the NE commands (R331). -/
def neFlags (f : Nat) : NeFlags := ⟨512 * 2 ^ (f / 4 % 4), f / 2 % 2 == 1, f % 2 == 1⟩
def neCode (f : NeFlags) : Nat := (Nat.log2 f.psize - 9) * 4 + codeOf f.ackl 1 + codeOf f.rod 0

/-- Class 5 (R332). -/
def formNe (cmd f : Nat) (w1 w2 w3 : W64) : Option Form :=
  let fl := neFlags f
  let base := fld w1 0 56
  let dst : NeDst := ⟨fld w2 0 16, fld w2 16 2, fld w2 18 6⟩
  let far := fld w3 0 56
  let up (a : Nat) : Bool := !inNone a (a + 1)
  match cmd with
  | 1 =>
    let len := fld w3 0 32
    some ⟨.neSend fl base dst (fld w2 24 8) len (w32 (fld w3 32 32)), 15, decide (base % 8 = 0),
      only w1 [(0, 56)] && only w2 [(0, 32)] && decide (1 ≤ len ∧ len ≤ 2 ^ 30 ∧ dst.die ≠ 3) && up base⟩
  | 2 =>
    some ⟨.nePost base (fld w2 0 32) far (fld w3 56 8), 0, decide (base % 8 = 0 ∧ far % 16 = 0),
      only w1 [(0, 56)] && only w2 [(0, 32)] && fld w2 0 32 != 0 && up base && up far⟩
  | 3 =>
    let len := fld w2 38 26
    let rcv := fld w2 24 1 == 1
    some ⟨.neWrite fl base dst (if rcv then some (fld w2 25 12) else none) len far, 15, decide (base % 8 = 0 ∧ far % 8 = 0),
      only w1 [(0, 56)] && only w2 [(0, 37), (38, 26)] && only w3 [(0, 56)] && decide (1 ≤ len ∧ dst.die ≠ 3) && (rcv || fld w2 25 12 == 0) &&
        up base && up far⟩
  | 4 =>
    let len := fld w2 38 26
    some ⟨.neRead fl base (fld w2 0 16) len far, 15, decide (base % 8 = 0 ∧ far % 8 = 0),
      only w1 [(0, 56)] && only w2 [(0, 16), (38, 26)] && only w3 [(0, 56)] && decide (1 ≤ len) && up base && up far⟩
  | 5 =>
    let x := fld w2 0 56
    let len := fld w3 0 17
    some ⟨.neXsend fl base x len, 15, decide (base % 8 = 0 ∧ x % 64 = 0),
      only w1 [(0, 56)] && only w2 [(0, 56)] && only w3 [(0, 17)] && decide (1 ≤ len ∧ len ≤ 65536) && !fl.rod && up base && up x⟩
  | _ => none

/-! ## Word 0 and the order of the checks (R36, R38) -/

def tcwClass (w0 : W64) : Nat := fld w0 0 4
def tcwCmd (w0 : W64) : Nat := fld w0 4 8
def tcwCtr (w0 : W64) : Nat := fld w0 12 12
def tcwCv (w0 : W64) : Bool := fld w0 24 1 == 1
def tcwErrc (w0 : W64) : Bool := fld w0 25 1 == 1
def tcwCmdf (w0 : W64) : Nat := fld w0 28 4
def tcwTag (w0 : W64) : Nat := fld w0 32 16

/-- A TCW read by the entry of its class and command; none where the command is reserved. -/
def formOf (w0 w1 w2 w3 : W64) (d : Dims) : Option Form :=
  let cmd := tcwCmd w0
  let f := tcwCmdf w0
  match tcwClass w0 with
  | 0 => formOpa cmd f w1 w2 w3 d
  | 1 => formRta cmd f w1 w2 w3
  | 2 => formFr cmd f w1 w2 w3
  | 3 => formStr (tcwCv w0) cmd f w1 w2 w3
  | 4 => formPfu cmd f w1 w2 w3
  | 5 => formNe cmd f w1 w2 w3
  | _ => none

/-- The subcode of the first check of R38 that a TCW fails, or none: `allot` is the job's counter allotment, `serves` says that an
engine of the class remains in service. -/
def tcwError (allot : Nat) (serves : Bool) (d : Dims) (w0 w1 w2 w3 : W64) : Option Nat :=
  if 5 < tcwClass w0 then some 1
  else match formOf w0 w1 w2 w3 d with
    | none => some 2
    | some f =>
      if fld w0 48 16 ≠ 0 ∨ fld w0 26 2 ≠ 0 ∨ tcwCmdf w0 &&& (15 - f.cmdf) ≠ 0 then some 3
      else if tcwCv w0 = false ∧ tcwCtr w0 ≠ 0 then some 4
      else if tcwCv w0 ∧ allot ≤ tcwCtr w0 then some 7
      else if serves = false then some 5
      else if f.aligned = false then some 6
      else if f.inside = false then some 7
      else none

/-- The TVAL of ENGFAULT (R38). -/
def engTval (w0 : W64) (sub : Nat) : W64 := w64 (tcwTag w0 * 2 ^ 20 + tcwCmd w0 * 2 ^ 12 + tcwClass w0 * 2 ^ 8 + sub)

/-- The instruction of a TCW; its checks have passed. -/
def tcwInstr (w0 w1 w2 w3 : W64) (d : Dims) : Option Instr := (formOf w0 w1 w2 w3 d).map Form.i

/-! ## The words of a command -/

/-- Class, command, CMDF and words 1 to 3 of a command. -/
structure TcwBody where
  cls : Nat
  cmd : Nat
  cmdf : Nat
  w1 : Nat
  w2 : Nat
  w3 : Nat
  deriving DecidableEq, Repr

def mmaBody (cmd f : Nat) (a b : OpaOperand) (kb ks : Nat) : TcwBody :=
  ⟨0, cmd, f, opFmtCode a.fmt * 2 ^ 61 + a.base, opFmtCode b.fmt * 2 ^ 61 + b.base, kb * 2 ^ 52 + ks * 2 ^ 40 + a.str * 2 ^ 20 + b.str⟩

/-- The body of a command's TCW; none for what is no command. -/
def tcwBody : Instr → Option TcwBody
  | .mma t sx a b kb ks => some (mmaBody 1 (sxCode sx * 4 + t.val) a b kb ks)
  | .cellp t a b kb ks => some (mmaBody 2 t.val a b kb ks)
  | .aczero t rel fill => some ⟨0, 3, codeOf rel 3 + t.val, fill.val, 0, 0⟩
  | .acdrain t rel z f b r => some ⟨0, 4, codeOf rel 3 + codeOf z 2 + t.val, drainCode f * 2 ^ 61 + b, r, 0⟩
  | .acload t w36 b r => some ⟨0, 5, t.val, codeOf (!w36) 61 + b, r, 0⟩
  | .accfg t z r c o p => some ⟨0, 6, codeOf z 2 + t.val, codeOf r 16 + c.val * 2 ^ 8 + o.val, p.toNat, 0⟩
  | .acstat t b => some ⟨0, 7, t.val, b, 0, 0⟩
  | .rotCfg rel z p act ts nc =>
    some ⟨1, 1, codeOf rel 1 + codeOf z 0, ts * 2 ^ 8 + act * 2 ^ 4 + p.val, nc.getD 0 0 + nc.getD 1 0 * 2 ^ 6 + nc.getD 2 0 * 2 ^ 12 + nc.getD 3 0 * 2 ^ 18, 0⟩
  | .rotTriStream b => some ⟨1, 2, 0, b, 0, 0⟩
  | .rotTriAuto b q m => some ⟨1, 2, 1, b, q, m⟩
  | .rotTriLoad t b => some ⟨1, 2, t.val * 4 + 2, b, 0, 0⟩
  | .rotApply y f v o h => some ⟨1, 3, codeOf y 0, f.val * 2 ^ 61 + v, o, h⟩
  | .rotSolve t b => some ⟨1, 4, t.val * 4, b, 0, 0⟩
  | .rotReadFp32 t b r => some ⟨1, 5, t.val * 4, b, r, 0⟩
  | .rotReadRaw t b => some ⟨1, 5, t.val * 4 + 1, b, 0, 0⟩
  | .rotReadStat b => some ⟨1, 5, 2, b, 0, 0⟩
  | .rotGain t m => some ⟨1, 6, t.val * 4, m.toNat, 0, 0⟩
  | .rotAngToSig32 a b n => some ⟨1, 7, 0, a, b, n⟩
  | .rotAngToBam32 a b n => some ⟨1, 7, 1, a, b, n⟩
  | .fload t b => some ⟨2, 1, t.val, b, 0, 0⟩
  | .fsel t m => some ⟨2, 2, t.val, m, 0, 0⟩
  | .farg t b n => some ⟨2, 3, t.val, b, n, 0⟩
  | .fseed g a b => some ⟨2, 4, g.val, a.toNat, b.toNat, 0⟩
  | .fdrain t rel b => some ⟨2, 5, codeOf rel 2 + t.val, b, 0, 0⟩
  | .fstat c b => some ⟨2, 6, codeOf c 0, b, 0, 0⟩
  | .cpGet n a ch b l r t =>
    some ⟨3, 1, 0, (n - 1) * 2 ^ 56 + a, (match ch with | some c => c.val * 2 ^ 60 + 2 ^ 59 | none => 0) + b, l * 2 ^ 44 + r * 2 ^ 24 + t * 2 ^ 4⟩
  | .cpPut v n a b l r t => some ⟨3, 2, codeOf v 0, (n - 1) * 2 ^ 56 + a, b, l * 2 ^ 44 + r * 2 ^ 24 + t * 2 ^ 4⟩
  | .cpMc a b n l t => some ⟨3, 3, 0, a, b, n * 2 ^ 40 + l * 2 ^ 20 + t⟩
  | .cpWmArm c b l => some ⟨3, 4, 0, c.val * 2 ^ 60 + b, l, 0⟩
  | .cpWmDisarm c => some ⟨3, 4, 1, c.val * 2 ^ 60, 0, 0⟩
  | .cpWmRead c b => some ⟨3, 4, 2, c.val * 2 ^ 60, 0, b⟩
  | .cpShd p a g l o e => some ⟨3, 5, codeOf p 0, a, g * 2 ^ 56 + l * 2 ^ 32 + o, e⟩
  | .gRows p z d r => some ⟨4, 1, codeOf p 1 + codeOf z 0, d, r, 0⟩
  | .gEmb q b z d r => some ⟨4, 2, codeOf z 2 + codeOf b 1 + codeOf q 0, d, r, 0⟩
  | .gScatFadd d r => some ⟨4, 3, 0, d, r, 0⟩
  | .gScatIadd d r => some ⟨4, 3, 1, d, r, 0⟩
  | .gScatOverwrite d r => some ⟨4, 3, 2, d, r, 0⟩
  | .gKern t b n => some ⟨4, 4, t.val, b, n, 0⟩
  | .neSend f a d q l m => some ⟨5, 1, neCode f, a, q * 2 ^ 24 + d.cl * 2 ^ 18 + d.die * 2 ^ 16 + d.mod, m.toNat * 2 ^ 32 + l⟩
  | .nePost a l c q => some ⟨5, 2, 0, a, l, q * 2 ^ 56 + c⟩
  | .neWrite f a d c l e =>
    some ⟨5, 3, neCode f, a, l * 2 ^ 38 + (match c with | some n => n * 2 ^ 25 + 2 ^ 24 | none => 0) + d.cl * 2 ^ 18 + d.die * 2 ^ 16 + d.mod, e⟩
  | .neRead f a d l e => some ⟨5, 4, neCode f, a, l * 2 ^ 38 + d, e⟩
  | .neXsend f a x l => some ⟨5, 5, neCode f, a, x, l⟩
  | _ => none

/-- Word 0 of a TCW (R36). -/
def tcwWord0 (b : TcwBody) (tag ctr : Nat) (cv errc : Bool) : W64 :=
  w64 (tag * 2 ^ 32 + b.cmdf * 2 ^ 28 + codeOf errc 25 + codeOf cv 24 + ctr * 2 ^ 12 + b.cmd * 2 ^ 4 + b.cls)

end Sys2Proof.Machine
end

