-- ==== Sys2Proof/Machine/Scalar.lean ====
section
/-! DEFINITION. The scalar family: RV64I and M (R82 to R86), the departures of R87, and the CSR instructions (R89). -/

namespace Sys2Proof.Machine

/-! ## Shared operations -/

/-- A result computed from registers by the scalar pipe (R81, R82). -/
def alu (rd : Reg) (srcs : List Reg) (v : W64) (s : State) : Out :=
  .next ((s.writeX rd v (srcs.any s.b.poisX)).modB Bank.advance)

def alu2 (f : W64 → W64 → W64) (rd rs1 rs2 : Reg) (s : State) : Out := alu rd [rs1, rs2] (f (s.b.getX rs1) (s.b.getX rs2)) s
def alu1 (f : W64 → W64) (rd rs1 : Reg) (s : State) : Out := alu rd [rs1] (f (s.b.getX rs1)) s

/-- The low word of a register. -/
def lo32 (v : W64) : W32 := v.setWidth 32
/-- A W result (R82). -/
def sx32 (v : W32) : W64 := v.signExtend 64
/-- A W form of an operation on 32-bit words. -/
def wform (f : W32 → W32 → W32) (a b : W64) : W64 := sx32 (f (lo32 a) (lo32 b))

/-- 1 where a condition holds. -/
def one (c : Bool) : W64 := if c then 1 else 0

/-- Division and remainder (R84). -/
def divS {n : Nat} (a b : BitVec n) : BitVec n := if b = 0 then BitVec.allOnes n else a.sdiv b
def divU {n : Nat} (a b : BitVec n) : BitVec n := if b = 0 then BitVec.allOnes n else a / b
def remS {n : Nat} (a b : BitVec n) : BitVec n := if b = 0 then a else a.srem b
def remU {n : Nat} (a b : BitVec n) : BitVec n := if b = 0 then a else a % b

/-- Bits [127:64] of a product of two 128-bit operands. -/
def hi64 (a b : BitVec 128) : W64 := (a * b).extractLsb' 64 64

/-- Whether an address lies in the code of the executing activation (R85); service-mode code is the runtime's own. -/
def State.inCode (s : State) (t : W64) : Bool :=
  s.b.service || decide (0x100000 ≤ t.toNat ∧ t.toNat < 0x100000 + 4 * (s.jobAt s.jid).img.code.length)

/-- A jump (R85): a misaligned target raises MISALIGN, one outside the code ACCESS; then rd is linked and the pc set. -/
def jump (s : State) (t : W64) (link : State → State) : Res Unit :=
  (check s (t.toNat % 4 == 0) 2 t).bind fun s _ => (check s (s.inCode t) 4 t).bind fun s _ => .ok ((link s).modB fun b => { b with pc := t }) ()

/-- Of the two results of JAL and JALR, whether the next mismatch of nature strikes the link and not the target (R22, R80). -/
def State.onLink (s : State) : Bool := match s.mishap with | .bad l => l % 2 == 1 | .fixed l => l % 2 == 1 | .none => false

/-- JAL and JALR to a target (R80, R85): the target is checked, then the link written. -/
def jumpLink (rd : Reg) (t : W64) (s : State) : Res Unit :=
  if s.onLink then jump s t fun s => s.writeX rd (s.b.pc + 4) false
  else (checked s).bind fun s _ => jump s t fun s => s.modB fun b => b.setX rd (b.pc + 4) false

/-- A branch (R82, R85, R391). -/
def branch (cond : W64 → W64 → Bool) (rs1 rs2 : Reg) (off : BitVec 12) (s : State) : Out :=
  finishAt ((clean s [rs1, rs2]).bind fun s _ => (checked s).bind fun s _ =>
    if cond (s.b.getX rs1) (s.b.getX rs2) then jump s (s.b.pc + offB off) id else .ok (s.modB Bank.advance) ())

/-- A base load (R82, R86). -/
def loadInstr (n : Nat) (sx : Bool) (rd rs1 : Reg) (imm : BitVec 12) (s : State) : Out :=
  finish ((clean s [rs1]).bind fun s _ => (checked s).bind fun s _ => s.load false rd (s.b.getX rs1 + imm12 imm) n sx)

/-- A base store (R82, R86): poisoned data is written poisoned. -/
def storeInstr (n : Nat) (rs1 rs2 : Reg) (imm : BitVec 12) (s : State) : Out :=
  finish ((clean s [rs1]).bind fun s _ => (checked s).bind fun s _ =>
    s.write false (s.b.getX rs1 + imm12 imm) n (s.b.getX rs2).toNat (s.b.poisX rs2) rs2)

/-- Whether a packet places bytes in memory (R333, R335). -/
def placesBytes : Body → Bool
  | .send .. => true | .write .. => true | .xsend .. => true | .readData .. => true | _ => false

/-- Whether what a fence of an activation of a job waits for is over (R145, R154): every access that it issued is performed, and for scope dom
every packet that places bytes for its job here is answered. -/
def State.fenceDone (s : State) (act job : Nat) (dom : Bool) : Bool :=
  !(s.pend.any fun p => p.act == act) &&
    !(dom && s.flight.any fun f => match f with | .pkt _ p _ _ => p.job == job && placesBytes p.body | _ => false)

/-- FENCE.S (R154): the bank waits until the condition of R145 holds; scope act orders the activation's own accesses alone. Behind it, what the
activation has read is performed with respect to every agent (log entry 57). -/
def fenceOp (sc : Scope) (s : State) : Out :=
  let dom := sc == .dom
  finish (if sc = .act then .ok s () else if s.fenceDone s.actKey s.jid dom then .ok (s.fenced s.actKey) () else .wait s (.fence dom))

/-! ## Upper immediates and jumps -/

/-- LUI (R82). -/
def execLui (rd : Reg) (imm : BitVec 20) (s : State) : Out := alu rd [] (immU imm) s
/-- AUIPC (R82). -/
def execAuipc (rd : Reg) (imm : BitVec 20) (s : State) : Out := alu rd [] (s.b.pc + immU imm) s
/-- JAL (R82, R85). -/
def execJal (rd : Reg) (off : BitVec 20) (s : State) : Out :=
  finishAt (jumpLink rd (s.b.pc + offJ off) s)
/-- JALR (R82, R85): a poisoned base raises POISON. -/
def execJalr (rd rs1 : Reg) (imm : BitVec 12) (s : State) : Out :=
  finishAt ((clean s [rs1]).bind fun s _ => jumpLink rd ((s.b.getX rs1 + imm12 imm) &&& ~~~1#64) s)

/-! ## Branches -/

/-- BEQ (R82). -/
def execBeq (rs1 rs2 : Reg) (off : BitVec 12) (s : State) : Out := branch (fun a b => a == b) rs1 rs2 off s
/-- BNE (R82). -/
def execBne (rs1 rs2 : Reg) (off : BitVec 12) (s : State) : Out := branch (fun a b => a != b) rs1 rs2 off s
/-- BLT (R82). -/
def execBlt (rs1 rs2 : Reg) (off : BitVec 12) (s : State) : Out := branch (BitVec.slt) rs1 rs2 off s
/-- BGE (R82). -/
def execBge (rs1 rs2 : Reg) (off : BitVec 12) (s : State) : Out := branch (fun a b => !a.slt b) rs1 rs2 off s
/-- BLTU (R82). -/
def execBltu (rs1 rs2 : Reg) (off : BitVec 12) (s : State) : Out := branch (BitVec.ult) rs1 rs2 off s
/-- BGEU (R82). -/
def execBgeu (rs1 rs2 : Reg) (off : BitVec 12) (s : State) : Out := branch (fun a b => !a.ult b) rs1 rs2 off s

/-! ## Loads and stores -/

/-- LB (R82). -/
def execLb (rd rs1 : Reg) (imm : BitVec 12) (s : State) : Out := loadInstr 1 true rd rs1 imm s
/-- LH (R82). -/
def execLh (rd rs1 : Reg) (imm : BitVec 12) (s : State) : Out := loadInstr 2 true rd rs1 imm s
/-- LW (R82). -/
def execLw (rd rs1 : Reg) (imm : BitVec 12) (s : State) : Out := loadInstr 4 true rd rs1 imm s
/-- LD (R82). -/
def execLd (rd rs1 : Reg) (imm : BitVec 12) (s : State) : Out := loadInstr 8 true rd rs1 imm s
/-- LBU (R82). -/
def execLbu (rd rs1 : Reg) (imm : BitVec 12) (s : State) : Out := loadInstr 1 false rd rs1 imm s
/-- LHU (R82). -/
def execLhu (rd rs1 : Reg) (imm : BitVec 12) (s : State) : Out := loadInstr 2 false rd rs1 imm s
/-- LWU (R82). -/
def execLwu (rd rs1 : Reg) (imm : BitVec 12) (s : State) : Out := loadInstr 4 false rd rs1 imm s
/-- SB (R82). -/
def execSb (rs1 rs2 : Reg) (imm : BitVec 12) (s : State) : Out := storeInstr 1 rs1 rs2 imm s
/-- SH (R82). -/
def execSh (rs1 rs2 : Reg) (imm : BitVec 12) (s : State) : Out := storeInstr 2 rs1 rs2 imm s
/-- SW (R82). -/
def execSw (rs1 rs2 : Reg) (imm : BitVec 12) (s : State) : Out := storeInstr 4 rs1 rs2 imm s
/-- SD (R82). -/
def execSd (rs1 rs2 : Reg) (imm : BitVec 12) (s : State) : Out := storeInstr 8 rs1 rs2 imm s

/-! ## Arithmetic with an immediate -/

/-- ADDI (R82). -/
def execAddi (rd rs1 : Reg) (imm : BitVec 12) (s : State) : Out := alu1 (fun a => a + imm12 imm) rd rs1 s
/-- SLTI (R82). -/
def execSlti (rd rs1 : Reg) (imm : BitVec 12) (s : State) : Out := alu1 (fun a => one (a.slt (imm12 imm))) rd rs1 s
/-- SLTIU (R82). -/
def execSltiu (rd rs1 : Reg) (imm : BitVec 12) (s : State) : Out := alu1 (fun a => one (a.ult (imm12 imm))) rd rs1 s
/-- XORI (R82). -/
def execXori (rd rs1 : Reg) (imm : BitVec 12) (s : State) : Out := alu1 (fun a => a ^^^ imm12 imm) rd rs1 s
/-- ORI (R82). -/
def execOri (rd rs1 : Reg) (imm : BitVec 12) (s : State) : Out := alu1 (fun a => a ||| imm12 imm) rd rs1 s
/-- ANDI (R82). -/
def execAndi (rd rs1 : Reg) (imm : BitVec 12) (s : State) : Out := alu1 (fun a => a &&& imm12 imm) rd rs1 s
/-- ADDIW (R82). -/
def execAddiw (rd rs1 : Reg) (imm : BitVec 12) (s : State) : Out := alu1 (fun a => sx32 (lo32 (a + imm12 imm))) rd rs1 s
/-- SLLI (R82). -/
def execSlli (rd rs1 : Reg) (sh : BitVec 6) (s : State) : Out := alu1 (fun a => a <<< sh.toNat) rd rs1 s
/-- SRLI (R82). -/
def execSrli (rd rs1 : Reg) (sh : BitVec 6) (s : State) : Out := alu1 (fun a => a >>> sh.toNat) rd rs1 s
/-- SRAI (R82). -/
def execSrai (rd rs1 : Reg) (sh : BitVec 6) (s : State) : Out := alu1 (fun a => a.sshiftRight sh.toNat) rd rs1 s
/-- SLLIW (R82). -/
def execSlliw (rd rs1 : Reg) (sh : BitVec 5) (s : State) : Out := alu1 (fun a => sx32 (lo32 a <<< sh.toNat)) rd rs1 s
/-- SRLIW (R82). -/
def execSrliw (rd rs1 : Reg) (sh : BitVec 5) (s : State) : Out := alu1 (fun a => sx32 (lo32 a >>> sh.toNat)) rd rs1 s
/-- SRAIW (R82). -/
def execSraiw (rd rs1 : Reg) (sh : BitVec 5) (s : State) : Out := alu1 (fun a => sx32 ((lo32 a).sshiftRight sh.toNat)) rd rs1 s

/-! ## Arithmetic on registers -/

/-- ADD (R82). -/
def execAdd (rd rs1 rs2 : Reg) (s : State) : Out := alu2 (fun a b => a + b) rd rs1 rs2 s
/-- SUB (R82). -/
def execSub (rd rs1 rs2 : Reg) (s : State) : Out := alu2 (fun a b => a - b) rd rs1 rs2 s
/-- SLL (R82). -/
def execSll (rd rs1 rs2 : Reg) (s : State) : Out := alu2 (fun a b => a <<< fld b 0 6) rd rs1 rs2 s
/-- SLT (R82). -/
def execSlt (rd rs1 rs2 : Reg) (s : State) : Out := alu2 (fun a b => one (a.slt b)) rd rs1 rs2 s
/-- SLTU (R82). -/
def execSltu (rd rs1 rs2 : Reg) (s : State) : Out := alu2 (fun a b => one (a.ult b)) rd rs1 rs2 s
/-- XOR (R82). -/
def execXor (rd rs1 rs2 : Reg) (s : State) : Out := alu2 (fun a b => a ^^^ b) rd rs1 rs2 s
/-- SRL (R82). -/
def execSrl (rd rs1 rs2 : Reg) (s : State) : Out := alu2 (fun a b => a >>> fld b 0 6) rd rs1 rs2 s
/-- SRA (R82). -/
def execSra (rd rs1 rs2 : Reg) (s : State) : Out := alu2 (fun a b => a.sshiftRight (fld b 0 6)) rd rs1 rs2 s
/-- OR (R82). -/
def execOr_ (rd rs1 rs2 : Reg) (s : State) : Out := alu2 (fun a b => a ||| b) rd rs1 rs2 s
/-- AND (R82). -/
def execAnd_ (rd rs1 rs2 : Reg) (s : State) : Out := alu2 (fun a b => a &&& b) rd rs1 rs2 s
/-- MUL (R82). -/
def execMul (rd rs1 rs2 : Reg) (s : State) : Out := alu2 (fun a b => a * b) rd rs1 rs2 s
/-- MULH (R82). -/
def execMulh (rd rs1 rs2 : Reg) (s : State) : Out := alu2 (fun a b => hi64 (a.signExtend 128) (b.signExtend 128)) rd rs1 rs2 s
/-- MULHSU (R82). -/
def execMulhsu (rd rs1 rs2 : Reg) (s : State) : Out := alu2 (fun a b => hi64 (a.signExtend 128) (b.setWidth 128)) rd rs1 rs2 s
/-- MULHU (R82). -/
def execMulhu (rd rs1 rs2 : Reg) (s : State) : Out := alu2 (fun a b => hi64 (a.setWidth 128) (b.setWidth 128)) rd rs1 rs2 s
/-- DIV (R84). -/
def execDiv (rd rs1 rs2 : Reg) (s : State) : Out := alu2 (divS) rd rs1 rs2 s
/-- DIVU (R84). -/
def execDivu (rd rs1 rs2 : Reg) (s : State) : Out := alu2 (divU) rd rs1 rs2 s
/-- REM (R84). -/
def execRem (rd rs1 rs2 : Reg) (s : State) : Out := alu2 (remS) rd rs1 rs2 s
/-- REMU (R84). -/
def execRemu (rd rs1 rs2 : Reg) (s : State) : Out := alu2 (remU) rd rs1 rs2 s
/-- ADDW (R82). -/
def execAddw (rd rs1 rs2 : Reg) (s : State) : Out := alu2 (wform (fun a b => a + b)) rd rs1 rs2 s
/-- SUBW (R82). -/
def execSubw (rd rs1 rs2 : Reg) (s : State) : Out := alu2 (wform (fun a b => a - b)) rd rs1 rs2 s
/-- SLLW (R82). -/
def execSllw (rd rs1 rs2 : Reg) (s : State) : Out := alu2 (fun a b => sx32 (lo32 a <<< fld b 0 5)) rd rs1 rs2 s
/-- SRLW (R82). -/
def execSrlw (rd rs1 rs2 : Reg) (s : State) : Out := alu2 (fun a b => sx32 (lo32 a >>> fld b 0 5)) rd rs1 rs2 s
/-- SRAW (R82). -/
def execSraw (rd rs1 rs2 : Reg) (s : State) : Out := alu2 (fun a b => sx32 ((lo32 a).sshiftRight (fld b 0 5))) rd rs1 rs2 s
/-- MULW (R82). -/
def execMulw (rd rs1 rs2 : Reg) (s : State) : Out := alu2 (wform (fun a b => a * b)) rd rs1 rs2 s
/-- DIVW (R84). -/
def execDivw (rd rs1 rs2 : Reg) (s : State) : Out := alu2 (wform divS) rd rs1 rs2 s
/-- DIVUW (R84). -/
def execDivuw (rd rs1 rs2 : Reg) (s : State) : Out := alu2 (wform divU) rd rs1 rs2 s
/-- REMW (R84). -/
def execRemw (rd rs1 rs2 : Reg) (s : State) : Out := alu2 (wform remS) rd rs1 rs2 s
/-- REMUW (R84). -/
def execRemuw (rd rs1 rs2 : Reg) (s : State) : Out := alu2 (wform remU) rd rs1 rs2 s

/-! ## Departures (R87) -/

/-- FENCE: FENCE.S at module scope, whatever its fields hold. -/
def execFence (_flags : FenceFields) (s : State) : Out := fenceOp .mod s
/-- ECALL: TRAP with code 0 (R343). -/
def execEcall (s : State) : Out := .next (s.trap 0x0A 0)
/-- EBREAK: DEBUG. -/
def execEbreak (s : State) : Out := .next (s.trap 0x0F 0)

/-! ## CSR instructions (R89) -/

/-- CSRRW (R89). -/
def execCsrrw (rd rs1 : Reg) (csr : BitVec 12) (s : State) : Out :=
  csrInstr (.csrrw rd rs1 csr) .rw rd csr (true) (s.b.getX rs1) [rs1] s
/-- CSRRWI (R89). -/
def execCsrrwi (rd : Reg) (zimm : BitVec 5) (csr : BitVec 12) (s : State) : Out :=
  csrInstr (.csrrwi rd zimm csr) .rw rd csr (true) (zimm.setWidth 64) [] s
/-- CSRRS (R89). -/
def execCsrrs (rd rs1 : Reg) (csr : BitVec 12) (s : State) : Out :=
  csrInstr (.csrrs rd rs1 csr) .rs rd csr (decide (rs1 ≠ 0)) (s.b.getX rs1) [rs1] s
/-- CSRRSI (R89). -/
def execCsrrsi (rd : Reg) (zimm : BitVec 5) (csr : BitVec 12) (s : State) : Out :=
  csrInstr (.csrrsi rd zimm csr) .rs rd csr (decide (zimm ≠ 0)) (zimm.setWidth 64) [] s
/-- CSRRC (R89). -/
def execCsrrc (rd rs1 : Reg) (csr : BitVec 12) (s : State) : Out :=
  csrInstr (.csrrc rd rs1 csr) .rc rd csr (decide (rs1 ≠ 0)) (s.b.getX rs1) [rs1] s
/-- CSRRCI (R89). -/
def execCsrrci (rd : Reg) (zimm : BitVec 5) (csr : BitVec 12) (s : State) : Out :=
  csrInstr (.csrrci rd zimm csr) .rc rd csr (decide (zimm ≠ 0)) (zimm.setWidth 64) [] s

end Sys2Proof.Machine
end

