-- ==== Sys2Proof/Machine/MemClass.lean ====
section
/-! DEFINITION. Layout records (R134 to R137), load-acquire and store-release (R153), fences (R154, R155), and leaf turns (R156, R157). -/

namespace Sys2Proof.Machine

/-! ## Layout records -/

/-- A field of a 256-bit record. -/
def vfld (v : V256) (i n : Nat) : Nat := v.toNat / 2 ^ i % 2 ^ n

/-- The fields of a layout record (R134). -/
def recBase (v : V256) : Nat := vfld v 0 64
def recRows (v : V256) : Nat := vfld v 64 32
def recCols (v : V256) : Nat := vfld v 96 32
def recOfft (v : V256) : Nat := vfld v 128 64
def recSx (v : V256) : Bool := vfld v 203 1 == 1
def recWr (v : V256) : Bool := vfld v 204 1 == 1
def recRag (v : V256) : Bool := vfld v 205 1 == 1
def recEsz (v : V256) : Nat := vfld v 206 2
def recSv (v : V256) : Bool := vfld v 223 1 == 1
def recStride (v : V256) : Nat := vfld v 224 32

/-- The subcode of the first check of SHAPE that a record fails (R135). -/
def shapeError (v : V256) : Option Nat :=
  if vfld v 192 11 ≠ 0 ∨ vfld v 208 15 ≠ 0 ∨ (if recRag v then recStride v ≠ 0 ∨ recCols v ≠ 0 else recOfft v ≠ 0) then some 2
  else if recRows v = 0 ∨ (recRag v = false ∧ recStride v < recCols v) then some 3
  else if recBase v % 2 ^ recEsz v ≠ 0 then some 4
  else if recOfft v % 4 ≠ 0 then some 5
  else if 2 ^ 56 ≤ (if recRag v then recOfft v + 4 * (recRows v + 1) else recBase v + recRows v * recStride v * 2 ^ recEsz v) then some 6
  else none

/-- SHAPE (R135): poisoned record data is written, poisoned, without a check (DEDUCED, log entry 15), and with SV set, which R135 leaves open (DESIGN
CHOICE, log entry 15). -/
def execShape (vd : VReg) (rs1 : Reg) (s : State) : Out :=
  if vd = 15 then .next (illegal s (.shape vd rs1))
  else finish ((clean s [rs1]).bind fun s _ => (checked s).bind fun s _ =>
    (s.read (s.b.getX rs1) 32 0 (32 + vd)).bind fun s g =>
      let v := BitVec.ofNat 256 g.v
      let v := v ||| (1#256 <<< 223)
      if g.p then .ok (s.modB fun b => (b.setV vd v 0xFF).markPsn 9) ()
      else match shapeError v with
        | some c => .trap s 0x0D (w64 c)
        | none => .ok (s.modB fun b => b.setV vd v 0) ())

/-- The checks that LDG and STG share (R136, R137), in order, and the element's address, record, and whether a word of the table was poisoned: poison,
SV, WR, rows, then the table or the columns. A poisoned table word is used as it reads, and poisons nothing but CHKI.PSN (DESIGN CHOICE, log entry
63). -/
def element (stg : Bool) (vs : VReg) (rs2 : Reg) (s : State) : Res (W64 × V256 × Bool) :=
  let v := s.b.getV vs
  let x := s.b.getX rs2
  let row := fld x 32 32
  let col := fld x 0 32
  (check s (s.b.poisV vs == 0) 0x0E (w64 (32 + vs))).bind fun s _ => (clean s [rs2]).bind fun s _ =>
  (check s (recSv v) 0x0D 1).bind fun s _ => (check s (!(stg && !recWr v)) 0x0D 7).bind fun s _ =>
  (check s (decide (row < recRows v)) 5 x).bind fun s _ =>
  let addr (e : Nat) : W64 := w64 (recBase v + e * 2 ^ recEsz v)
  (checked s).bind fun s _ =>
  if recRag v then
    (s.read (w64 (recOfft v + 4 * row)) 4 0 0).bind fun s o0 => (s.read (w64 (recOfft v + 4 * row + 4)) 4 0 0).bind fun s o1 =>
      (check s (decide (o0.v ≤ o1.v ∧ col < o1.v - o0.v)) 5 x).bind fun s _ => .ok s (addr (o0.v + col), v, o0.p || o1.p)
  else (check s (decide (col < recCols v)) 5 x).bind fun s _ => .ok s (addr (row * recStride v + col), v, false)

/-- The access of LDG or STG behind its checks; CHKI.PSN for the table once no trap is left (R118). Where a word of the table was poisoned, a context
does not tell a parked access whole. -/
def elementDone (p : Bool) (r : Res Unit) : Res Unit :=
  match r with
  | .wait s (.parked pg die va kind reg size) => .wait s (.parked pg die va (if p then 0 else kind) reg size)
  | r => r.bind fun s _ => .ok (s.modB fun b => b.psnIf p 9) ()

/-- LDG (R136, R137). -/
def execLdg (rd : Reg) (vs : VReg) (rs2 : Reg) (s : State) : Out :=
  if vs = 15 then .next (illegal s (.ldg rd vs rs2))
  else finish ((element false vs rs2 s).bind fun s e => elementDone e.2.2 (s.load false rd e.1 (2 ^ recEsz e.2.1) (recSx e.2.1)))

/-- STG (R136, R137): a poisoned data register writes poisoned data. -/
def execStg (rs : Reg) (vs : VReg) (rs2 : Reg) (s : State) : Out :=
  if vs = 15 then .next (illegal s (.stg rs vs rs2))
  else finish ((element true vs rs2 s).bind fun s e =>
    elementDone e.2.2 (s.write false e.1 (2 ^ recEsz e.2.1) (s.b.getX rs).toNat (s.b.poisX rs) rs))

/-! ## Ordering -/

/-- LDA (R153): nothing of the activation issues while it is outstanding. -/
def execLda (rd rs1 : Reg) (wd : MemW) (_sc : Scope) (s : State) : Out :=
  finish ((clean s [rs1]).bind fun s _ => (checked s).bind fun s _ => s.load true rd (s.b.getX rs1) (2 ^ wd.code) true)

/-- STL (R153): it waits for the earlier accesses of the activation, and the bank goes on. -/
def execStl (rs1 rs2 : Reg) (wd : MemW) (_sc : Scope) (s : State) : Out :=
  finish ((clean s [rs1]).bind fun s _ => (checked s).bind fun s _ =>
    s.write true (s.b.getX rs1) (2 ^ wd.code) (s.b.getX rs2).toNat (s.b.poisX rs2) rs2)

/-- FENCE.S (R154). -/
def execFenceS (sc : Scope) (s : State) : Out := fenceOp sc s

/-- XFENCE (R155): no copy older than an asynchronous write reaches the activation any more. -/
def execXfence (s : State) : Out := finish (.ok ((s.pass s.actKey false fun _ => true).passGroups s.actKey) ())

/-- A region of the executing job's table, which has at most 256 (R156). -/
def State.region (s : State) (g : Nat) : Option Region :=
  if 256 ≤ g then none
  else match (s.jobAt s.jid).regions[g]? with
    | some r => if r.len = 0 then none else some r
    | none => none

/-- MASKOVER raised in place of an instruction that may not stand in a masked window (R164); in service mode the window closes and the trap is due
at TRET, and the instruction executes (R338). -/
def noWindow (s : State) : Res Unit :=
  if s.b.maskOn = false then .ok s ()
  else if s.b.service then .ok (s.modB fun b => { b with maskOn := false, maskLeft := 256, maskDue := 3 }) ()
  else .trap s 9 3

/-- The checks that PUBLISH and PUBWAIT share (R156, R157). -/
def regionChecks (rs1 rs2 : Reg) (s : State) : Res Region :=
  (clean s [rs1, rs2]).bind fun s _ =>
    match s.region (s.b.getX rs1).toNat with
    | some r => .ok s r
    | none => .trap s 5 (s.b.getX rs1)

/-- PUBLISH (R156). -/
def execPublish (rd rs1 rs2 : Reg) (s : State) : Out :=
  finish ((regionChecks rs1 rs2 s).bind fun s r =>
    let g := (s.b.getX rs1).toNat
    let tgt := if r.tgt = fld (s.b.getX rs2) 0 48 then (r.tgt + 1) % 2 ^ 48 else r.tgt
    let s := s.modJob s.jid fun j => { j with regions := j.regions.set g { r with tgt := tgt } }
    .ok (s.modB fun b => b.setX rd (w64 tgt) false) ())

/-- Whether GEN has reached w (R157). -/
def genReached (gen w : Nat) : Bool := decide ((gen + 2 ^ 48 - w) % 2 ^ 48 < 2 ^ 47)

/-- PUBWAIT (R157). -/
def execPubwait (rd rs1 rs2 : Reg) (s : State) : Out :=
  finish ((clean s [rs1, rs2]).bind fun s _ => (noWindow s).bind fun s _ => (regionChecks rs1 rs2 s).bind fun s r =>
    let w := fld (s.b.getX rs2) 0 48
    if genReached r.gen w then .ok (s.modB fun b => b.setX rd (w64 r.gen) false) ()
    else .wait s (.pub rd (s.b.getX rs1).toNat w))

end Sys2Proof.Machine
end

