-- ==== Sys2Proof/Machine/Hqm.lean ====
section
/-! DEFINITION. The handler queue manager: where messages go (R178 to R191), dispatch and its order (R158 to R165), the release of
buffered effects (R162), the reply debt (R185), the abort (R344 to R346). -/

namespace Sys2Proof.Machine

/-! ## Header fields (R179, R99) -/

def hMod (h : W64) : Nat := fld h 0 16
def hDie (h : W64) : Nat := fld h 16 2
def hCl (h : W64) : Nat := fld h 18 6
def hCore (h : W64) : Nat := fld h 24 4
def hJob (h : W64) : Nat := fld h 28 15
def hHid (h : W64) : Nat := fld h 43 12
def hUrg (h : W64) : Bool := fld h 55 1 == 1
def hVn (h : W64) : Bool := fld h 56 1 == 1
def hWords (h : W64) : Nat := fld h 57 6
/-- The cluster key that a handle names. -/
def hCk (h : W64) : Nat := hDie h * 64 + hCl h

/-- A destination handle. -/
def mkHandle (words : Nat) (vn urg : Bool) (hid job core cl die mod : Nat) : W64 :=
  w64 (words % 64 * 2 ^ 57 + vn.toNat * 2 ^ 56 + urg.toNat * 2 ^ 55 + hid % 4096 * 2 ^ 43 + job % 32768 * 2 ^ 28 + core % 16 * 2 ^ 24 + cl % 64 * 2 ^ 18 +
    die % 4 * 2 ^ 16 + mod % 65536)

def mRx (h : W64) : Bool := fld h 52 1 == 1
def mSlot (h : W64) : Nat := fld h 48 4
def mDbank (h : W64) : Nat := fld h 53 3
def mTry (h : W64) : Nat := fld h 32 3
def mSbank (h : W64) : Nat := fld h 28 3
def mSmod (h : W64) : Nat := fld h 0 16

/-- The sender fields of a bank (R99). -/
def senderOf (modid bk : Nat) : Nat :=
  bankNo bk * 2 ^ 28 + coreOf bk % 16 * 2 ^ 24 + ckOf bk % 64 * 2 ^ 18 + dieOf (ckOf bk) % 4 * 2 ^ 16 + modid % 65536

/-- A reply to a message from a replying bank (R196): `hid` 0xFFF makes it a null reply. R196 does not name the JOB field of its handle: the model
writes the replying activation's job there (DESIGN CHOICE, log entry 67); the queue it lands in is that of the job that reserved the slot. -/
def mkReply (modid bk job : Nat) (req : W64) (hid : Nat) (urg : Bool) (pay : List W64) (pois : List Bool) : Msg :=
  ⟨mkHandle pay.length true urg hid job (hCore req) (hCl req) (hDie req) (hMod req),
   w64 (mSbank req * 2 ^ 53 + mSlot req * 2 ^ 48 + senderOf modid bk), pay, pois⟩

/-! ## Leaving the cluster -/

/-- A message for another module handed to the die's NE (R334): a one-packet message that waits to be sent. -/
def State.neSubmit (s : State) (ck job : Nat) (m : Msg) (slot : Option (Nat × Nat)) : State :=
  s.modDie (dieOf ck) fun d =>
    let mid := 4 * d.txNext + dieOf ck
    { d with txNext := d.txNext + 1,
             tx := d.tx ++ [{ mid := mid, ck := ck, job := job, dmod := hMod m.h0, dck := hCk m.h0, cmd := none, grp := mid, body := .handler m.h0 m.h1,
                              psize := 512, rod := false, ackl := false, len := 8 * m.pay.length, src := 0,
                              copy := some (m.pay.zipIdx.flatMap fun e => (leBytes 8 e.1.toNat).map fun b => (b, m.pois.getD e.2 false)),
                              crcs := [], sent := 0, acked := [], resends := [], timers := [], asked := [], waitRoom := true, lcmp := true, err := 0,
                              started := 0, notReady := none, slot := slot, parked := none, port := none }] }

/-- A reply put on its way: on VN-P, or to the NE of the die (R196, R334). `src` orders replies of one core; `act` is the activation whose
release it is (R142), 0 where there is none. -/
def State.sendReply (s : State) (ck src act job : Nat) (m : Msg) : State :=
  if hMod m.h0 = s.modid.toNat then { s with flight := s.flight ++ [.reply src act m] } else s.neSubmit ck job m none

/-- A null reply for a message that held a reply slot (R185), sent from cluster `ck`. One that the HQM makes for a message that no activation held names
bank 0 of core 0 as its sender, which the spec leaves open (DESIGN CHOICE, log entry 75). -/
def State.nullReply (s : State) (ck : Nat) (m : Msg) : State :=
  if mRx m.h1 then s.sendReply ck (1000000 + ck) 0 (hJob m.h0) (mkReply s.modid.toNat (ck * 80) (hJob m.h0) m.h1 0xFFF false [] []) else s

/-! ## Arrival of a message (R186 to R190) -/

/-- Whether an activation of a bank holds an entry of a queue space. -/
def Bank.holds (b : Bank) (job : Nat) (urg : Bool) : Bool := b.st != .free && b.msg.entry && b.msg.job == job && b.msg.urg == urg

/-- Entries of a job's queue space in use: queued messages, activations that run, wait or are saved, and aborted messages whose redelivery the
host has yet to decide (R186). -/
def State.spaceUsed (s : State) (ck job : Nat) (urg : Bool) : Nat :=
  let c := s.clusterAt ck
  (c.queue.filter fun q => q.entry && q.job == job && q.urg == urg).length +
  (s.banks.filter fun e => ckOf e.1 == ck && e.2.holds job urg).length +
  (c.saved.filter fun x => x.bank.msg.entry && x.bank.msg.job == job && x.bank.msg.urg == urg).length +
  ((s.jobAt job).holds.filter fun h => h.ck == ck && h.q.entry && h.q.urg == urg).length

/-- The depth of a queue space: the job's for normal messages, 32 for urgent ones (R186). -/
def spaceDepth (j : Job) (urg : Bool) : Nat := if urg then 32 else j.depth

/-- The entries of one section of a carafe: 0 normal, 1 urgent, 2 posts. -/
def Job.section (j : Job) (ck sec : Nat) : List CarEnt := j.carafe.filter fun e => e.ck == ck && e.sec == sec

/-- The 64 KiB pages that a job's carafe grows in: its pool, or in host-assisted mode its reserve (R189, R366). -/
def State.carPagesOf (s : State) (j : Job) : List Nat :=
  if s.assisted 2 then j.carRes else (List.range j.carPages).map fun k => j.carPool + 65536 * k

/-- The place of the next entry of a job's carafe: the lowest that is free of the 128 of each page (log entry 35). -/
def State.carSlot (s : State) (j : Job) : Option Nat :=
  ((s.carPagesOf j).flatMap fun p => (List.range 128).map fun k => p + 512 * k).find? fun a => !j.carafe.any fun e => e.loc == a

/-- The 512 bytes of a carafe entry (R189): the header, the payload from byte 16, and zeros; a record stands where a payload does. -/
def carBytes (h0 h1 : W64) (pay : List W64) : List Byte :=
  let bs := (h0 :: h1 :: pay).flatMap fun (w : W64) => leBytes 8 w.toNat
  bs ++ List.replicate (512 - bs.length) 0

/-- The lines of a carafe entry merged, as an access to them does (R132). -/
def State.mergeEntry (s : State) (loc : Nat) : State := (List.range 8).foldl (fun s k => s.mergeLine (loc + 64 * k)) s

/-- An entry of a carafe section: its bytes written to its place in T1, and the entry appended. -/
def State.carPut (s : State) (job loc : Nat) (e : CarEnt) : State :=
  let s := s.mergeEntry loc
  let s := s.poke loc (carBytes e.q.m.h0 e.q.m.h1 (if e.sec = 2 then e.words else e.q.m.pay)) false
  s.modJob job fun j => { j with carafe := j.carafe ++ [e], carFull := false }

/-- An entry put into a carafe section, or dropped with the pool empty: CARAFEDROP counts it, CARAFEFULL is posted once an episode,
and a reply slot gets its null reply (R189). -/
def State.spill (s : State) (ck sec job : Nat) (q : QMsg) (words : List W64) : State :=
  let j := s.jobAt job
  match s.carSlot j with
  | some loc => s.carPut job loc ⟨ck, sec, q, words, loc⟩
  | none =>
    let s := s.putJob job { j with carDrop := j.carDrop + 1, carFull := true }
    let s := if j.carFull then s else s.post 5 job (dieOf ck) 0 0 0
    if sec = 2 then s else s.nullReply ck q.m

/-- The message that a carafe entry holds: its words as T1 holds them, as many as were spilled (a counter message names none in its header), poisoned where
they were or where their line is (R189, R194, R120). -/
def State.carMsg (s : State) (e : CarEnt) : QMsg :=
  let n := e.q.m.pay.length
  let at_ (k : Nat) : Nat := e.loc + 16 + 8 * k
  { e.q with m := ⟨s.dwAt e.loc, s.dwAt (e.loc + 8), (List.range n).map fun k => s.dwAt (at_ k),
                   (List.range n).map fun k => e.q.m.poisoned k || s.poisAt (at_ k) 8⟩ }

/-- The record that a carafe entry holds (R233). -/
def State.carRec (s : State) (e : CarEnt) : List W64 := (List.range e.words.length).map fun k => s.dwAt (e.loc + 16 + 8 * k)

/-- A cluster takes a job's messages when the job is placed there (R190). -/
def Job.placedOn (j : Job) (ck : Nat) : Bool := j.placed.has ck

/-- A message placed in its handler queue, or in the carafe when its queue space is full or the section is not empty (R187, R190); at a
retired cluster it is discarded and counted (R361). -/
def State.enqueue (s : State) (ck : Nat) (q : QMsg) : State :=
  let j := s.jobAt q.job
  if (s.unitAt (unitOf 9 ck 0)).st = .retired then (s.putJob q.job { j with late := j.late + 1 }).nullReply ck q.m
  else if j.placedOn ck ∧ (j.section ck q.urg.toNat) = [] ∧ s.spaceUsed ck q.job q.urg < spaceDepth j q.urg then
    s.modCluster ck fun c => { c with queue := c.queue ++ [q] }
  else s.spill ck q.urg.toNat q.job q []

/-- Whether a job has exited or been removed (R190). -/
def Job.gone (j : Job) : Bool := (j.jstate == 0 && j.once) || j.jstate == 3

/-- Whether the sender of a message is on another module. -/
def State.remoteSender (s : State) (m : Msg) : Bool := mSmod m.h1 != s.modid.toNat

/-- A message of a job discarded: counted in LATE; its null reply leaves, of a removed job's messages only to another module, since the slots of its own
banks went with it (R378). -/
def State.lateMsg (s : State) (ck job : Nat) (m : Msg) (removed : Bool) : State :=
  let s := s.modJob job fun j => { j with late := j.late + 1 }
  if removed ∧ s.remoteSender m = false then s else s.nullReply ck m

/-- A message that has reached the HQM of a cluster (R187, R190). A reply does not come here. `remote` says that it came from
another module. -/
def State.deliver (s : State) (ck : Nat) (m : Msg) (urg remote : Bool) (core : Option Nat) : State :=
  let job := hJob m.h0
  let j := s.jobAt job
  if j.gone then s.lateMsg ck job m true
  else if j.jstate = 0 ∨ (remote ∧ (j.handler (hHid m.h0)).isNone) then
    (s.modDie (dieOf ck) fun d => { d with misdir := d.misdir + 1 }).nullReply ck m
  else s.enqueue ck ⟨job, hHid m.h0, urg, core, true, none, m⟩

/-- The core that a request's handle names: 0xF names none (R160, R179). -/
def coreField (h : W64) : Option Nat := if hCore h = 15 then none else some (hCore h)

/-- Refill of a section starts at half the depth, and moves messages until the space is full (R188); reading an entry merges its lines (R132). -/
def State.refillSome (s : State) (ck job : Nat) (urg : Bool) : Nat → State
  | 0 => s
  | n + 1 =>
    let j := s.jobAt job
    match j.section ck urg.toNat with
    | [] => s
    | e :: _ =>
      if s.spaceUsed ck job urg < spaceDepth j urg then
        let s := s.mergeEntry e.loc
        let q := s.carMsg e
        let s := s.putJob job { j with carafe := j.carafe.erase e, carFull := false }
        (s.modCluster ck fun c => { c with queue := c.queue ++ [q] }).refillSome ck job urg n
      else s

/-- Whether refill of a section may start (R188): the urgent section of a cluster first. -/
def State.refillDue (s : State) (ck job : Nat) (urg : Bool) : Bool :=
  let j := s.jobAt job
  j.placedOn ck && (j.section ck urg.toNat) != [] && decide (s.spaceUsed ck job urg ≤ spaceDepth j urg / 2)

/-! ## Choice of a core and of what to dispatch (R159, R160, R165) -/

/-- The lowest-numbered free bank of a kind on a core (R384). -/
def State.freeBank (s : State) (core : Nat) (urg : Bool) : Option Nat :=
  let ks := if urg then [4] else [0, 1, 2, 3]
  (ks.map fun k => core * 5 + k).find? fun bk => (s.bankAt bk).st == .free

/-- Whether a bank of the core has a masked window open. -/
def State.coreMasked (s : State) (core : Nat) : Bool := [0, 1, 2, 3, 4].any fun k => (s.bankAt (core * 5 + k)).maskOn

/-- Activations in Running or Waiting on a core. -/
def State.coreLoad (s : State) (core : Nat) : Nat := ([0, 1, 2, 3, 4].filter fun k => (s.bankAt (core * 5 + k)).st != .free).length

/-- Whether a core takes dispatches: it is neither withdrawn nor retired (R358, R361). -/
def State.coreServes (s : State) (core : Nat) : Bool := (s.unitAt (coreUnit core)).serving
def State.coreRetired (s : State) (core : Nat) : Bool := (s.unitAt (coreUnit core)).st == .retired

/-- The bank in which a message or a saved activation can start: on the core it names, or on the core with the fewest activations
among those with a free bank and no open window (R160, R164). -/
def State.chooseBank (s : State) (ck : Nat) (urg : Bool) (named : Option Nat) : Option Nat :=
  let pick (core : Nat) : Option Nat := if s.coreServes core && !(urg && s.coreMasked core) then s.freeBank core urg else none
  match named.bind fun c => if s.coreRetired (ck * 16 + c) then none else some c with
  | some c => pick (ck * 16 + c)
  | none =>
    let cores := ((List.range 16).map fun c => ck * 16 + c).filter fun c => (pick c).isSome && !s.coreMasked c
    (cores.foldl (fun best c => match best with
      | none => some c
      | some x => if s.coreLoad c < s.coreLoad x then some c else some x) none).bind pick

/-- A source of step 3 of R165: a handler queue, or the saved activations that are ready. -/
inductive Pick where
  | msg (q : QMsg) (bk : Nat)
  | saved (i : Nat) (bk : Nat)
  deriving DecidableEq, Repr

/-- The head of a handler queue. -/
def Cluster.head (c : Cluster) (job hid : Nat) (urg : Bool) : Option QMsg :=
  c.queue.find? fun q => q.job == job && q.hid == hid && q.urg == urg

/-- What a source offers: source 4096 is the list of saved activations ready to resume. -/
def State.offer (s : State) (ck job : Nat) (urg : Bool) (src : Nat) : Option Pick :=
  let c := s.clusterAt ck
  if src = 4096 then
    (c.saved.find? fun x => x.ready && x.bank.job == job && x.urg == urg).bind fun x => (s.chooseBank ck urg none).map fun bk => .saved x.idx bk
  else (c.head job src urg).bind fun q => (s.chooseBank ck urg q.core).map fun bk => .msg q bk

/-- The sources of a job that hold something, in increasing handler id, then the saved list. -/
def Cluster.sources (c : Cluster) (job : Nat) (urg : Bool) : List Nat :=
  let hs := (c.queue.filter fun q => q.job == job && q.urg == urg).foldl (fun (l : NSet) q => l.add q.hid) []
  hs ++ (if c.saved.any fun x => x.ready && x.bank.job == job && x.urg == urg then [4096] else [])

/-- The first source after `last`, in rotation, that offers something. -/
def State.nextSource (s : State) (ck job : Nat) (urg : Bool) (last : Nat) : Option (Nat × Pick) :=
  let src := (s.clusterAt ck).sources job urg
  ((src.filter fun x => decide (last ≤ x)) ++ src.filter fun x => decide (x < last)).findSome? fun x => (s.offer ck job urg x).map fun p => (x, p)

/-- The jobs of a cluster that hold something of a kind. -/
def Cluster.jobsWith (c : Cluster) (urg : Bool) : List Nat :=
  let a := (c.queue.filter fun q => q.urg == urg).foldl (fun (l : NSet) q => l.add q.job) []
  (c.saved.filter fun x => x.ready && x.urg == urg).foldl (fun (l : NSet) x => l.add x.bank.job) a

/-- Step 2 of R165: the job visited last while its share lasts, then the next job in increasing id that has something dispatchable. -/
def State.nextPick (s : State) (ck : Nat) (urg : Bool) (r : Rr) : Option (Rr × Pick) :=
  let jobs := ((s.clusterAt ck).jobsWith urg).filter fun j => (s.jobAt j).placedOn ck
  let order := (if 0 < r.left ∧ r.job ∈ jobs then [r.job] else []) ++ (jobs.filter fun j => decide (r.job < j)) ++ jobs.filter fun j => decide (j ≤ r.job)
  order.zipIdx.findSome? fun (j, i) => (s.nextSource ck j urg (r.src.get 0 j)).map fun (x, p) =>
    let left := if i = 0 ∧ 0 < r.left ∧ j = r.job then r.left - 1 else (s.jobAt j).share - 1
    ({ job := j, left := left, src := r.src.set 0 j (x + 1) }, p)

/-- What the HQM dispatches or resumes next, and its state after (R165): urgent before normal, but after 64 consecutive urgent dispatches made
while a normal one was possible, one normal. An urgent dispatch made while no normal one is possible ends such a run, as a normal one does
(DESIGN CHOICE, log entry 50). -/
def State.choice (s : State) (ck : Nat) : Option (Cluster × Pick) :=
  let c := s.clusterAt ck
  let u := s.nextPick ck true c.rrU
  let n := s.nextPick ck false c.rrN
  match u, n with
  | some (r, p), none => some ({ c with rrU := r, urgRun := 0 }, p)
  | none, some (r, p) => some ({ c with rrN := r, urgRun := 0 }, p)
  | some (r, p), some (r', p') =>
    if 64 ≤ c.urgRun then some ({ c with rrN := r', urgRun := 0 }, p') else some ({ c with rrU := r, urgRun := c.urgRun + 1 }, p)
  | none, none => none

/-! ## Dispatch (R161) -/

/-- x10 to x17 at dispatch: the first eight payload words and their poison (R180). -/
def Bank.takePayload (b : Bank) (m : Msg) : Bank :=
  (List.range 8).foldl (fun b i => (b.setX (Fin.ofNat 32 (10 + i)) (m.word i) (m.poisoned i)).psnIf (m.poisoned i) 10) b

/-- The bank as R161 sets it up; what belongs to the bank itself stays: reply slots, service registers, service CSRs. -/
def Bank.begin (old : Bank) (q : QMsg) (entry seq now : Nat) : Bank :=
  { Bank.init with
      svc := old.svc, svcp := old.svcp, tcause := old.tcause, tval := old.tval, tepc := old.tepc, tstat := old.tstat, tvec := old.tvec,
      slots := old.slots, slotJob := old.slotJob, pc := w64 entry, st := .running, job := q.job, hid := q.hid, msg := q, cursor := 8, seq := seq, since := now }.takePayload q.m

/-- The bank left free by an activation that ended; the service registers stay with the bank. -/
def Bank.freed (b : Bank) : Bank :=
  let b := if b.service then b.swapService else b
  { Bank.init with
      svc := b.svc, svcp := b.svcp, tcause := b.tcause, tval := b.tval, tepc := b.tepc, tstat := b.tstat, tvec := b.tvec, slots := b.slots, slotJob := b.slotJob }

/-- A message dispatched to a bank. A message whose handler is not in the table starts nothing and is dropped, uncounted: R190 speaks of messages from
another module alone (DESIGN CHOICE, log entry 75). -/
def State.start (s : State) (ck bk : Nat) (q : QMsg) : State :=
  let s := s.modCluster ck fun c => { c with queue := c.queue.erase q }
  match (s.jobAt q.job).handler q.hid with
  | none => s.nullReply ck q.m
  | some h =>
    let n := (s.clusterAt ck).seq + 1
    let s := s.modCluster ck fun c => { c with seq := n }
    s.modBank bk fun b => b.begin q (0x100000 + h.off) n s.cycles

/-! ## Units in flight (R181, R142) -/

/-- Where a posted update goes (R105, R130, R131): to the cluster of a scratchpad address; to the home of its line for a translated one (log entry 20). -/
def Posted.dest (p : Posted) : Nat :=
  if 0x40000000 ≤ p.va ∧ p.va < 0x80000000 then p.va / 2 ^ 28 % 4 * 64 + p.va / 2 ^ 22 % 64 else 2 ^ 20 + p.va / 64

/-- What orders a unit on VN-Q: the core that sent it and where it goes (R181, R183). -/
def Flight.queueKey : Flight → Option (Nat × Nat)
  | .msg src dst _ _ => some (src, dst)
  | .cnt src ck .. => some (src, ck)
  | .record src ck .. => some (src, ck)
  | .stealReq bk _ _ victim => some (coreOf bk, victim / 16)
  | .atomic src _ p _ => some (src, p.dest)
  | .contrib ck _ c => some (2 ^ 26 + 256 * ck + coreOf c.bk % 16, c.job * 256 + c.g)
  | .token src a dst b _ _ => some (2 ^ 24 + 8 * src + a, 8 * dst + b)
  | _ => none

/-- What orders a reply or a steal answer on VN-P. -/
def Flight.replyKey : Flight → Option (Nat × Nat)
  | .reply src _ m => some (src, hCk m.h0)
  | .stealAns bk _ _ _ => some (10000000 + coreOf bk, 0)
  | _ => none

/-- The activation of which a unit is a release (R142, edges 1, 4, 5 and 6), and the one whose posted update it carries (R130). -/
def Flight.releases : Flight → Option Nat
  | .msg _ _ act _ => some act
  | .reply _ act _ => some act
  | .cnt _ _ act _ _ _ => some act
  | .record _ _ act _ _ => some act
  | .contrib _ act _ => some act
  | .atomic _ _ p _ => if p.rl then some p.act else none
  | _ => none
def Flight.updates : Flight → Option Nat
  | .atomic _ _ p _ => some p.act
  | _ => none

/-- Whether a unit waits for an earlier one: of its order, or a posted update of the activation of which it is a release. -/
def Flight.behind (f g : Flight) : Bool :=
  (f.queueKey.isSome && g.queueKey == f.queueKey) || (f.replyKey.isSome && g.replyKey == f.replyKey) || (f.releases.isSome && g.updates == f.releases)

/-- Whether entry k of the units in flight may arrive: no earlier unit that it waits for is still on its way. -/
def mayArrive (fl : List Flight) (k : Nat) : Bool :=
  match fl[k]? with
  | none => false
  | some f => !((fl.take k).any fun g => f.behind g)

/-- The unit at entry k, when it may arrive, and the state without it. -/
def State.takeFlight (s : State) (k : Nat) : Option (Flight × State) :=
  if mayArrive s.flight k then (s.flight[k]?).map fun f => (f, { s with flight := s.flight.eraseIdx k }) else none

/-! ## The end of an activation (R162, R171, R184) -/

/-- A reply slot of a bank freed (R184). -/
def State.freeSlotOf (s : State) (sl : Option (Nat × Nat)) : State :=
  match sl with
  | none => s
  | some (bk, k) => s.modBank bk fun b => { b with slots := b.slots.del k, slotJob := b.slotJob.erase k }
/-- A reply slot reserved for a job (R184). -/
def Bank.reserve (b : Bank) (k job : Nat) : Bank := { b with slots := b.slots.add k, slotJob := FMap.insert (b.slotJob.erase k) k job }

/-- The reply slots that a removed job reserved, freed (R378). -/
def State.freeSlots (s : State) (job : Nat) : State :=
  (s.banks.map Prod.fst).foldl (fun s bk => s.modBank bk fun b =>
    let gone := (b.slotJob.filter fun x => x.2 == job).map Prod.fst
    { b with slots := gone.foldl NSet.del b.slots, slotJob := gone.foldl FMap.erase b.slotJob }) s

/-- One buffered effect released by an activation of bank `bk` (R162). -/
def State.release1 (s : State) (bk : Nat) (e : Buffered) : State :=
  let core := e.sq.getD (coreOf bk)
  let act := ckOf bk * 2 ^ 32 + (s.bankAt bk).seq
  match e.eff with
  | .send m slot =>
    if hMod m.h0 = s.modid.toNat then { s with flight := s.flight ++ [.msg core (hCk m.h0) act m] }
    else s.neSubmit (ckOf bk) (hJob m.h0) m slot
  | .cnt ck job c op => { s with flight := s.flight ++ [.cnt core ck act job c op] }
  | .atomic p => { s with flight := s.flight ++ [.atomic core (ckOf bk) p none] }
  | .record ck words => { s with flight := s.flight ++ [.record core ck act (s.bankAt bk).job words] }
  | .contrib g vals pois => { s with flight := s.flight ++ [.contrib (ckOf bk) act ⟨(s.bankAt bk).job, g, bk, vals, pois⟩] }

/-- ENDH of an activation without poison (R171): its effects leave in the order they were taken, its reply or a null reply leaves, the
slot of the reply that started it is freed, and so is the bank. -/
def State.endBank (s : State) (bk : Nat) : State :=
  let b := s.bankAt bk
  let s := b.buf.foldl (fun s e => s.release1 bk e) s
  let s := match b.reply with
    | some m => s.sendReply (ckOf bk) (coreOf bk) (ckOf bk * 2 ^ 32 + b.seq) b.job m
    | none => s.nullReply (ckOf bk) b.msg.m
  (s.freeSlotOf b.msg.slot).modBank bk Bank.freed

/-! ## The abort (R344 to R346) -/

/-- A dropped request frees the reply slot it reserved (R344). -/
def State.dropEffect (s : State) (e : Buffered) : State :=
  match e.eff with
  | .send _ slot => s.freeSlotOf slot
  | _ => s

/-- A header with its TRY field set. -/
def setTry (h : W64) (t : Nat) : W64 := (h &&& ~~~(7#64 <<< 32)) ||| w64 (t % 8 * 2 ^ 32)

/-- The abort word (R346). -/
def abortWord (off hid : Nat) (trunc : Bool) (try_ ucode cause : Nat) : W64 :=
  w64 (off % 2 ^ 32 * 2 ^ 32 + hid * 2 ^ 20 + trunc.toNat * 2 ^ 19 + try_ * 2 ^ 16 + ucode * 2 ^ 8 + cause)

/-- A message placed again at the head of its handler queue with TRY one higher (R186, R344). -/
def State.redeliver (s : State) (ck : Nat) (q : QMsg) : State :=
  s.modCluster ck fun c => { c with queue := { q with m := { q.m with h1 := setTry q.m.h1 (mTry q.m.h1 + 1) } } :: c.queue }

/-- A message passed to the job's error handler (R346): dropped and counted where there is none, or where the aborted activation is
itself one of the error handler. -/
def State.toErrorHandler (s : State) (ck : Nat) (q : QMsg) (word tval : W64) : State :=
  let j := s.jobAt q.job
  let s := s.freeSlotOf q.slot
  if j.errh = 0xFFF ∨ q.hid = j.errh then (s.putJob q.job { j with errDrop := j.errDrop + 1 }).nullReply ck q.m
  else
    let pay := word :: tval :: q.m.h0 :: q.m.pay.take 29
    let pois := false :: false :: false :: q.m.pois.take 29
    let h0 := mkHandle pay.length false q.urg j.errh q.job 15 (ck % 64) (dieOf ck) s.modid.toNat
    s.deliver ck ⟨h0, q.m.h1, pay, pois⟩ q.urg false none

/-- The outstanding loads of an activation discarded (R344). -/
def State.dropLoads (s : State) (act : Nat) : State :=
  { s with pend := s.pend.filter fun p => !(p.act == act && match p.op with | .load _ => true | _ => false) }

/-- A waiter on a page gone. -/
def State.leaveWait (s : State) : Wait → State
  | .parked pg die .. => s.dropWaiter die pg
  | _ => s
/-- A bank's activation that waits on a page, or did when it was pre-empted, is no waiter of it any more (R344). -/
def State.leavePage (s : State) (b : Bank) : State := (s.leaveWait b.wait).leaveWait b.owed

/-- The activation of a bank aborts (R344): its effects and outstanding loads are dropped, a parked waiter leaves, the bank is freed, and its message is
redelivered under the retry limit, or passed to the error handler. With REDLV host-assisted the host decides. -/
def State.abortBank (s : State) (bk : Nat) (again : Bool) (cause ucode : Nat) (at_ tval : W64) : State :=
  let b := s.bankAt bk
  let ck := ckOf bk
  let s := (b.buf.foldl State.dropEffect s).dropLoads (ck * 2 ^ 32 + b.seq)
  let s := s.leavePage b
  let word := abortWord (at_.toNat + 2 ^ 32 - 0x100000) b.hid (decide (29 < b.msg.m.pay.length)) (mTry b.msg.m.h1) ucode cause
  let s := s.modBank bk Bank.freed
  if s.assisted 8 then
    let s := s.post 0xC b.job (dieOf ck) word tval 0
    s.modJob b.job fun j => { j with holds := j.holds ++ [⟨s.eseq, ck, b.msg, word, tval⟩] }
  else if again ∧ mTry b.msg.m.h1 < (s.jobAt b.job).retry then s.redeliver ck b.msg
  else s.toErrorHandler ck b.msg word tval

end Sys2Proof.Machine
end

