-- ==== Sys2Proof/Machine/Runtime.lean ====
section
/-! DEFINITION. What Isenha's runtime does after a trap (R339 to R342, R348): the trap routine, the return of SWTRAP 0, the abort, the
save of a context (R351) and its load. The runtime acts as one step of the bank that trapped (log entry 5). -/

namespace Sys2Proof.Machine

/-! ## The saved context (R351) -/

/-- n little-endian bytes. -/
def dw (n : Nat) : List Byte := leBytes 8 n

/-- A vector register of 32 bytes. -/
def vecBytes (v : V256) : List Byte := leBytes 32 v.toNat

/-- Bits gathered from a predicate, bit k for k = 0, 1, …, n−1. -/
def bitsWhere (f : Nat → Bool) (n : Nat) : Nat := (List.range n).foldl (fun a k => a + (f k).toNat * 2 ^ k) 0

/-- The handler's x_k: x1 to x7 are held in the service registers while the bank is in service mode (R338). -/
def Bank.handX (b : Bank) (k : Nat) : W64 := if b.service ∧ k < 8 then b.svc.get 0 k else b.x.get 0 k
def Bank.handP (b : Bank) (k : Nat) : Bool := if b.service ∧ k < 8 then b.svcp.get false k else b.xp.get false k

/-- An access as a context tells it whole (R351): a scalar load, or a store from a scalar register, of up to 8 bytes. The instruction of any other
parked access stands at the resume address and is executed anew (log entry 49). -/
def redoOf (va kind reg size : Nat) : Option Redo := if (kind = 1 ∨ kind = 3) ∧ reg < 32 ∧ size % 8 < 4 then some ⟨va, kind, reg, size⟩ else none
/-- The access that a waiting bank leaves to reissue when it is pre-empted (R350). -/
def Wait.redo (w : Wait) : Option Redo :=
  match w with | .parked _ _ va kind reg size => redoOf va kind reg size | _ => Option.none

/-- A parked access as two doublewords (R351): [63] PV, [62:56] register, [55:0] address; [3:0] kind, [7:4] size code. -/
def accessWords (va kind reg size : Nat) : Nat × Nat :=
  if kind = 0 then (0, 0) else (2 ^ 63 + reg % 128 * 2 ^ 56 + va % 2 ^ 56, size % 16 * 16 + kind)
/-- The parked access of an activation as a context holds it. -/
def Bank.parkedWords (b : Bank) : Nat × Nat :=
  match b.redo, b.owed with
  | some r, _ => accessWords r.va r.kind r.reg r.size
  | none, .parked _ _ va kind reg size => accessWords va kind reg size
  | none, _ => (0, 0)
/-- The access that a context leaves to reissue, from those words. -/
def redoOfWords (w0 w1 : W64) : Option Redo := if fld w0 63 1 = 1 then redoOf (fld w0 0 56) (fld w1 0 4) (fld w0 56 7) (fld w1 4 4) else none

/-- An access left to reissue given back to its instruction, the one before the next: a trap stands there. -/
def Bank.unRedo (b : Bank) : Bank := if b.redo.isSome then { b with redo := none, pc := b.pc - 4 } else b

/-- The 1,024 bytes of a context. -/
def ctxImage (urg : Bool) (b : Bank) (resume : W64) : List Byte :=
  dw (2 ^ 63 + urg.toNat * 2 ^ 60 + b.hid * 2 ^ 48 + b.job * 2 ^ 33 + b.seq % 2 ^ 16) ++
  (List.range 31).flatMap (fun k => dw (b.handX (k + 1)).toNat) ++
  (List.range 15).flatMap (fun k => vecBytes (b.getV k)) ++
  dw b.cursor ++
  (List.range 7).flatMap (fun k => leBytes 4 (b.p.get 0 (k + 1)).toNat) ++ leBytes 4 0 ++
  [b.chki, b.aflags, b.rndm, b.vcfg, b.lglen, b.lgact].flatMap (fun (v : W64) => dw v.toNat) ++
  dw (b.sqtraps.toNat * 2 ^ 48) ++ dw (b.maskw).toNat ++ dw b.vstr.toNat ++ dw resume.toNat ++
  dw (bitsWhere (fun k => k != 0 && b.handP k) 32) ++
  leBytes 16 ((List.range 15).foldl (fun a k => a + (b.poisV k).toNat * 2 ^ (8 * k)) 0) ++
  dw (match b.deadline with | some d => 2 ^ 63 + d % 2 ^ 48 | none => 0) ++
  dw b.parkedWords.1 ++ dw b.parkedWords.2 ++
  dw b.msg.m.h0.toNat ++ dw b.msg.m.h1.toNat ++ List.replicate 104 0

/-- The free entries of a context region (R163). -/
def Cluster.freeCtx (c : Cluster) : Nat := 256 - c.saved.length
/-- The lowest free entry. -/
def Cluster.ctxSlot (c : Cluster) : Option Nat := (List.range 256).find? fun i => !c.saved.any fun x => x.idx == i

/-- A saved bank as the record beside its image keeps it: what the image holds is cleared. -/
def Bank.stripped (b : Bank) : Bank :=
  { b with x := [], xp := [], svc := [], svcp := [], v := [], vp := [], p := [], chki := 0, aflags := 0, rndm := 0, vcfg := 2, lglen := 0,
           lgact := 0, sqtraps := 0, vstr := 0, cursor := 0, deadline := none, slots := [], slotJob := [], tcause := 0, tval := 0, tepc := 0, tstat := 0, tvec := 0,
           pc := 0, service := false, maskOn := false, maskLeft := 256, maskDue := 0, preempt := none, redo := none, st := .waiting, wait := .none }

/-- The activation of a bank saved to entry `i` (R348, R350, R352): the image written, a parked waiter gone, the bank free. It is ready unless its
wait goes on, or a load is outstanding. -/
def State.saveCtx (s : State) (bk i : Nat) (resume : W64) (waits : Bool) : State :=
  let b := s.bankAt bk
  let ck := ckOf bk
  let urg := bankNo bk == 4
  let s := s.poke (ctxLoc ck (1024 * i)) (ctxImage urg b resume) false
  let s := match b.owed with | .parked pg die .. => s.dropWaiter die pg | _ => s
  let s := s.modCluster ck fun c => { c with saved := c.saved ++ [⟨i, urg, !waits && b.loads == [], waits, b.stripped⟩] }
  s.modBank bk Bank.freed

/-- The doubleword of an image. -/
def State.ctxDw (s : State) (ck i off : Nat) : W64 := s.dwAt (ctxLoc ck (1024 * i + off))

/-- The handler state of an image put into a bank: x1 to x7 into the service registers where the bank is in service mode. -/
def State.fromImage (s : State) (ck i : Nat) (b : Bank) : Bank :=
  let g (off : Nat) : W64 := s.ctxDw ck i off
  let pp := (g 0x358).toNat
  let vpp := s.numAt (ctxLoc ck (1024 * i + 0x360)) 16
  let xs : FMap W64 := (List.range 31).foldl (fun m k => m.set 0 (k + 1) (g (8 + 8 * k))) []
  let xps : FMap Bool := (List.range 31).foldl (fun m k => m.set false (k + 1) (pp / 2 ^ (k + 1) % 2 == 1)) []
  let vs : FMap V256 := (List.range 15).foldl (fun m k => m.set 0 k (BitVec.ofNat 256 (s.numAt (ctxLoc ck (1024 * i + 0x100 + 32 * k)) 32))) []
  let vps : FMap (BitVec 8) := (List.range 15).foldl (fun m k => m.set 0 k (BitVec.ofNat 8 (vpp / 2 ^ (8 * k)))) []
  let ps : FMap W32 := (List.range 7).foldl (fun m k => m.set 0 (k + 1) (BitVec.ofNat 32 (s.numAt (ctxLoc ck (1024 * i + 0x2E8 + 4 * k)) 4))) []
  let b := { b with
    v := vs, vp := vps, p := ps, cursor := (g 0x2E0).toNat, chki := g 0x308, aflags := g 0x310, rndm := g 0x318, vcfg := g 0x320,
    lglen := g 0x328, lgact := g 0x330, sqtraps := BitVec.ofNat 16 (fld (g 0x338) 48 16), vstr := g 0x348,
    hid := fld (g 0) 48 12, job := fld (g 0) 33 15, seq := fld (g 0) 0 16,
    maskOn := fld (g 0x340) 16 1 == 1, maskLeft := fld (g 0x340) 0 16,
    deadline := (if fld (g 0x370) 63 1 = 1 then some (fld (g 0x370) 0 48) else none), redo := redoOfWords (g 0x378) (g 0x380),
    msg := { b.msg with m := { b.msg.m with h0 := g 0x388, h1 := g 0x390 } } }
  if b.service then
    { b with svc := xs.filter (fun e => decide (e.1 < 8)), svcp := xps.filter (fun e => decide (e.1 < 8)),
             x := b.x.filter (fun e => decide (e.1 < 8)) ++ xs.filter (fun e => decide (8 ≤ e.1)),
             xp := b.xp.filter (fun e => decide (e.1 < 8)) ++ xps.filter (fun e => decide (8 ≤ e.1)) }
  else { b with x := xs, xp := xps }

/-- What a saved activation keeps beside its image, put into the bank that takes it up; the bank's own state stays, a pre-emption that waits on its
service mode among it (R353). -/
def Bank.adopt (old x : Bank) : Bank :=
  { x with svc := old.svc, svcp := old.svcp, x := old.x, xp := old.xp, tcause := old.tcause, tval := old.tval, tepc := old.tepc,
           tstat := old.tstat, tvec := old.tvec, slots := old.slots, slotJob := old.slotJob, service := old.service, pc := old.pc,
           preempt := old.preempt, st := .running, wait := .none, owed := .none }

/-- An entry of the context region emptied: VALID := 0, and the record gone. -/
def State.dropCtx (s : State) (ck i : Nat) : State :=
  let s := s.poke (ctxLoc ck (1024 * i)) (dw (fld (s.ctxDw ck i 0) 0 63)) false
  s.modCluster ck fun c => { c with saved := c.saved.filter fun x => x.idx != i }

/-- A saved activation resumed in a free bank (R348): CTXLD and TRET as one step, in handler mode. -/
def State.resumeCtx (s : State) (bk i : Nat) : State :=
  let ck := ckOf bk
  match (s.clusterAt ck).saved.find? fun x => x.idx == i with
  | none => s
  | some x =>
    let old := s.bankAt bk
    let nb := s.fromImage ck i { (old.adopt x.bank) with service := false }
    let nb := { nb with seq := x.bank.seq, svc := old.svc, svcp := old.svcp, pc := s.ctxDw ck i 0x350, since := s.cycles }
    (s.dropCtx ck i).putBank bk nb

/-! ## Dispositions (R340 to R342) -/

/-- The bank back in handler mode: the service registers swapped back. -/
def Bank.toHandler (b : Bank) : Bank := { b.swapService with service := false }

/-- The trap routine of the handler that trapped (R341). -/
def State.routine (s : State) (bk : Nat) : Option Nat :=
  let b := s.bankAt bk
  ((s.jobAt b.job).handler b.hid).bind HandlerEntry.trap

/-- n instructions of an open window counted; one too many closes it, and MASKOVER is then due (R164, R338, R339). -/
def Bank.countWindow (n : Nat) (b : Bank) : Bank :=
  if b.maskOn then (if b.maskLeft < n then { b with maskOn := false, maskLeft := 256, maskDue := 1 } else { b with maskLeft := b.maskLeft - n }) else b

/-- A register overwritten by the runtime: the data of a load that is outstanding for it goes nowhere. -/
def Bank.putOver (b : Bank) (r : Reg) (v : W64) : Bank :=
  { b.setX r v false with loads := b.loads.map fun o =>
      match o.dest with | .x k sx => if k = r.val ∧ (8 ≤ k ∨ o.svc = b.service) then { o with dest := .x 0 sx } else o | _ => o }

/-- Entry into a trap routine (R341): x5 the cause, x6 TVAL, x7 the address of the trapping instruction; it counts as one instruction of an
open window, which one too many closes, MASKOVER being taken at the entry. -/
def Bank.enterRoutine (b : Bank) (off : Nat) : Bank :=
  let c := b.tcause; let v := b.tval; let e := b.tepc
  let h := (((b.toHandler.putOver 5 c).putOver 6 v).putOver 7 e).countWindow 1
  { h with pc := w64 (0x100000 + off), entries := b.entries + 1 }

/-- The unit that the abort of an activation is attributed to (R360): by CHKI.ORIGIN its core, or its cluster's OPA, RTA or FR. -/
def blamed (bk : Nat) (chki : W64) : Option Nat :=
  match fld chki 8 8 with
  | 1 => some (coreUnit (coreOf bk)) | 2 => some (coreUnit (coreOf bk))
  | 3 => some (unitOf 2 (ckOf bk) 0) | 4 => some (unitOf 3 (ckOf bk) 0) | 5 => some (unitOf 4 (ckOf bk) 0)
  | _ => none

/-- The runtime's abort (R340, R344): where it is attributed to a unit the runtime charges it first (R360). -/
def State.runtimeAbort (s : State) (again : Bool) : State :=
  let b := s.b
  let s := match blamed s.cur b.chki with | some u => s.charge u 32 | none => s
  s.abortBank s.cur again b.tcause.toNat 0 b.tepc b.tval

/-- The trap routine where there is one and its limit is not passed; else the error handler, or, with `again`, redelivery (R340, R341). -/
def State.toRoutine (s : State) (again : Bool) : State :=
  let b := s.b
  match s.routine s.cur with
  | some off => if b.entries < 64 then s.putB (b.enterRoutine off) else s.runtimeAbort false
  | none => s.runtimeAbort again

/-- SWTRAP code 0 returns to the next instruction, in the mode that raised it (R353), with x10 and x11 (R342); the runtime's instructions, its TRET among
them, count against an open window (R339), how many the spec does not say. -/
def State.swtrap0 (s : State) : State :=
  let j := s.jobAt s.jid
  let e := s.b.tepc
  let n := 1 + Config.runtimeCount s.freeN % 192
  let s := if s.b.maskOn then { s with freeN := s.freeN + 1 } else s
  s.modB fun b =>
    let b := (((if fld b.tstat 0 1 = 1 then b else b.toHandler).putOver 10 (s.modid.setWidth 64)).putOver 11 (w64 (j.errh * 2 ^ 16 + j.caph * 2 ^ 4 + j.retry))).countWindow n
    { b with pc := e + 4 }

/-- Whether the wait of an activation goes on when it is saved: a steal answer is owed, or a long-wait release waits for its condition (R163,
R350). -/
def waitsOn (reason : Nat) (owed : Wait) : Bool :=
  match owed with
  | .steal .. => true
  | .none => false
  | _ => reason == 3

/-- PREEMPT: the context saved to a free entry (R348); with none free the bank stays in service mode. -/
def State.savePreempted (s : State) : State :=
  match (s.clusterAt s.ck).ctxSlot with
  | none => s
  | some i => s.saveCtx s.cur i s.b.tepc (waitsOn s.b.tval.toNat s.b.owed)

/-- Whether a load that service mode issued is outstanding. -/
def Bank.owesService (b : Bank) : Bool := b.loads.any Outst.svc

/-- The runtime's act for the trap that the executing bank took, when the runtime's own code is not given (R340), once its own loads have returned. -/
def State.runtimeAct (s : State) : Out :=
  let b := s.b
  if b.owesService then .next s
  else
  match b.tcause.toNat with
  | 0x06 => .next (s.toRoutine true)
  | 0x0A => .next (if b.tval = 0 then s.swtrap0 else s.toRoutine false)
  | 0x0B => .next (s.runtimeAbort true)
  | 0x0C => .next s.savePreempted
  | 0x0E => .next (s.runtimeAbort true)
  | 0x0F =>
    if (s.jobAt b.job).debug then
      .next ((s.post 0xF b.job (dieOf s.ck) b.tepc (w64 (bankNo s.cur)) 0).modB fun b => { b with st := .waiting, wait := .debug })
    else .next (s.toRoutine false)
  | _ => .next (s.toRoutine false)

/-! ## Pre-emption (R348 to R350) -/

/-- The number of a pre-emption reason (R340). -/
def reasonNo : PreReason → Nat
  | .lease => 1 | .gang => 2 | .longWait => 3 | .yield => 4

/-- Where a pre-empted activation resumes (R350): behind a steal that is outstanding, and behind an access that it leaves to reissue, else at the
instruction that waits, or that comes next. -/
def resumePc (b : Bank) : W64 :=
  match b.wait with
  | .steal .. => b.pc + 4
  | w => if b.redo.isNone && w.redo.isSome then b.pc + 4 else b.pc

/-- The PREEMPT trap of a bank, running or waiting (R348, R350). -/
def State.preemptBank (s : State) (bk : Nat) (r : PreReason) : State :=
  s.modBank bk fun b =>
    Bank.enterTrap (bankNo bk) 0x0C (w64 (reasonNo r)) { b with pc := resumePc b, owed := b.wait, redo := b.redo <|> b.wait.redo, preempt := none }

/-- The pending PREEMPT trap taken by the executing bank. -/
def State.takePreempt (s : State) (r : PreReason) : State := s.preemptBank s.cur r

end Sys2Proof.Machine
end

