-- ==== Sys2Proof/Machine/Handler.lean ====
section
/-! DEFINITION. The handler instructions: the end of an activation (R171), masked windows (R172), YIELD (R173), WAITC (R174), SLEEP (R175),
and the range deque (R169, R170, R176, R177). -/

namespace Sys2Proof.Machine

/-! ## The end of an activation -/

/-- The masked window closed (R164, R171). -/
def Bank.closeWindow (b : Bank) : Bank := { b with maskOn := false, maskLeft := 256 }

/-- ENDH (R171): once no load of the activation is outstanding; with CHKI.PSN or CHK set it raises CHECK, which the runtime answers with the abort
(R340; log entry 17). -/
def execEndh (s : State) : Out :=
  if s.b.loads ≠ [] then .next s
  else
    let s := s.modB Bank.closeWindow
    .next (if s.b.chki &&& 3 = 0 then s.endBank s.cur else s.trap 0x0B s.b.chki)

/-- ABORTH (R171, R346), once no load of the activation is outstanding: with v[0] = 1 redelivery, else the error handler at once; a poisoned xs1 reads
as v[0] = 1, code 0. -/
def execAborth (rs1 : Reg) (s : State) : Out :=
  let b := s.b
  if b.loads ≠ [] then .next s
  else
    let p := b.poisX rs1
    let v := if p then 0 else b.getX rs1
    .next (s.abortBank s.cur (p || fld v 0 1 == 1) 0 (fld v 8 8) b.pc v)

/-! ## Masked windows -/

/-- MASKU (R172): it waits while a pre-emption of the bank is pending. -/
def execMasku (s : State) : Out :=
  if s.b.preempt ≠ none ∧ s.b.maskOn = false then .next s
  else .next (s.modB fun b => (if b.maskOn then b else { b with maskOn := true, maskLeft := 256, maskStart := s.cycles }).advance)

/-- UNMASKU (R172). -/
def execUnmasku (s : State) : Out := .next (s.modB fun b => b.closeWindow.advance)

/-! ## YIELD -/

/-- Whether a dispatch or a resumption of a bank's kind is pending for a core (R163, R173; log entry 18); a message that names a retired core counts
as one for any core (R361). -/
def State.pendingFor (s : State) (core : Nat) (urg : Bool) : Bool :=
  let c := s.clusterAt (core / 16)
  (c.queue.any fun q => q.urg == urg && (match q.core with | none => true | some c => c == core % 16 || s.coreRetired (core / 16 * 16 + c)) && (s.jobAt q.job).placedOn (core / 16)) ||
  (c.saved.any fun x => x.ready && x.urg == urg && (s.jobAt x.bank.job).placedOn (core / 16))

/-- Whether a bank gives way to what is pending for its core (R163, R173). -/
def State.givesWay (s : State) (bk : Nat) : Bool :=
  let urg := bankNo bk == 4
  s.pendingFor (coreOf bk) urg && (s.freeBank (coreOf bk) urg).isNone && decide (64 < (s.clusterAt (ckOf bk)).freeCtx)

/-- YIELD (R173): where it saves, PREEMPT is taken with reason 4 at the next instruction (R340, R348). In service mode it saves nothing, which the spec
does not say (DESIGN CHOICE, log entry 66). -/
def yieldOp (s : State) : Out :=
  finish ((noWindow s).bind fun s _ =>
    if s.b.service = false ∧ s.givesWay s.cur then .trap (s.modB Bank.advance) 0x0C 4 else .ok s ())

/-- YIELD (R173). -/
def execYield (s : State) : Out := yieldOp s
/-- WFI executes as YIELD (R87). -/
def execWfi (s : State) : Out := yieldOp s

/-! ## WAITC and SLEEP -/

/-- The number of a counter of a job on a cluster among those of the module. -/
def cntKey (ck job c : Nat) : Nat := (ck * 32768 + job) * 4096 + c
def State.counterAt (s : State) (k : Nat) : Counter := s.counters.get Counter.init k

/-- WAITC (R174). -/
def execWaitc (rd rs1 rs2 : Reg) (s : State) : Out :=
  finish ((clean s [rs1, rs2]).bind fun s _ => (noWindow s).bind fun s _ =>
    let c := s.b.getX rs1
    let t := s.b.getX rs2
    (check s (decide (c.toNat < 4096 ∧ c.toNat < (s.jobAt s.jid).img.allot)) 5 c).bind fun s _ =>
      let n := (s.counterAt (cntKey s.ck s.jid c.toNat)).count
      if t.toNat ≤ n.toNat then .ok (s.modB fun b => b.setX rd (n.setWidth 64) false) ()
      else .wait s (.counter rd c.toNat t.toNat))

/-- TIME has reached a deadline, both modulo 2⁴⁸ (R351). -/
def State.reached (s : State) (d : Nat) : Bool := genReached (s.time % 2 ^ 48) (d % 2 ^ 48)

/-- SLEEP (R175): the deadline is kept while the activation is suspended. -/
def execSleep (rs1 : Reg) (s : State) : Out :=
  finish ((clean s [rs1]).bind fun s _ => (noWindow s).bind fun s _ =>
    let t := s.b.getX rs1
    (check s (decide (t.toNat < 2 ^ 32)) 5 t).bind fun s _ =>
      let d := s.b.deadline.getD (s.time + t.toNat)
      if s.reached d then .ok (s.modB fun b => { b with deadline := none }) ()
      else .wait (s.modB fun b => { b with deadline := some d }) .sleep)

/-! ## The range deque -/

/-- The top entry of a job's view, and the deque without it. -/
def popTop (job : Nat) : List Range → Option (Range × List Range)
  | [] => none
  | r :: t => match popTop job t with
    | some (x, t') => some (x, r :: t')
    | none => if r.job = job then some (r, t) else none

/-- A range as a register holds it (R169). -/
def Range.word (r : Range) : W64 := w64 (r.hi * 2 ^ 32 + r.lo)

/-- The deque of the issuing core. -/
def State.dq (s : State) : List Range := (s.coreAt (coreOf s.cur)).dq
def State.putDq (s : State) (q : List Range) : State := s.putCore (coreOf s.cur) { s.coreAt (coreOf s.cur) with dq := q }

/-- The result of a deque instruction. -/
def dqDone (rd : Reg) (v : W64) (s : State) : Res Unit := .ok (s.modB fun b => b.setX rd v false) ()

/-- DQPUSH (R176). -/
def execDqpush (rd rs1 rs2 : Reg) (s : State) : Out :=
  finish ((clean s [rs1, rs2]).bind fun s _ =>
    let r : Range := ⟨fld (s.b.getX rs1) 0 32, fld (s.b.getX rs2) 0 32, s.jid⟩
    (check s (decide (r.lo < r.hi)) 5 r.word).bind fun s _ =>
      if 64 ≤ s.dq.length then dqDone rd 0 s else dqDone rd 1 (s.putDq (s.dq ++ [r])))

/-- DQPOP (R176). -/
def execDqpop (rd : Reg) (s : State) : Out :=
  finish (match popTop s.jid s.dq with
    | none => dqDone rd 0 s
    | some (r, q) => dqDone rd r.word (s.putDq q))

/-- DQSPLIT (R176). -/
def execDqsplit (rd : Reg) (s : State) : Out :=
  finish (match popTop s.jid s.dq with
    | none => dqDone rd 0 s
    | some (r, q) =>
      if r.hi - r.lo < 2 ∨ 64 ≤ s.dq.length then dqDone rd 0 s
      else
        let m := r.lo + (r.hi - r.lo) / 2
        dqDone rd 1 (s.putDq (q ++ [⟨r.lo, m, r.job⟩, ⟨m, r.hi, r.job⟩])))

/-- DQLEN (R176). -/
def execDqlen (rd : Reg) (s : State) : Out := finish (dqDone rd (w64 (s.dq.filter fun r => r.job == s.jid).length) s)

/-- The victim's deque answers a steal (R177): the range taken, as a register holds it, and the deque after. -/
def stealFrom (job : Nat) : List Range → W64 × List Range
  | [] => (0, [])
  | r :: t =>
    if r.job = job then
      let m := r.lo + (r.hi - r.lo) / 2
      (Range.word ⟨m, r.hi, job⟩, if r.hi - r.lo = 1 then t else ⟨r.lo, m, r.job⟩ :: t)
    else let x := stealFrom job t; (x.1, r :: x.2)

/-- DQSTEAL (R177): the request leaves, and the bank waits for the answer. -/
def execDqsteal (rd rs1 : Reg) (s : State) : Out :=
  finish ((clean s [rs1]).bind fun s _ => (noWindow s).bind fun s _ =>
    let h := s.b.getX rs1
    (check s (fld h 28 36 == 0 && hMod h == s.modid.toNat) 5 h).bind fun s _ =>
    (check s (s.inPlace s.jid (hDie h) (hCl h)) 4 h).bind fun s _ =>
    (needEntry s (s.b.freeSlot.isSome && s.sqFreeTo s.cur) h).bind fun s _ =>
      let k := s.b.freeSlot.getD 0
      let s := s.modB fun b => b.reserve k s.jid
      .wait { s with flight := s.flight ++ [.stealReq s.cur k s.jid (hCk h * 16 + hCore h)] } (.steal rd s.cur k))

/-- A steal request at its victim's deque, as one step: the answer leaves (R170, R177). -/
def State.answerSteal (s : State) (bk slot job victim : Nat) : State :=
  let c := s.coreAt victim
  let r := stealFrom job c.dq
  let s := s.putCore victim { c with dq := r.2, given := if r.1 = 0 then c.given else c.given + 1 }
  { s with flight := s.flight ++ [.stealAns bk slot job r.1] }

/-- Whether a unit in flight is a steal request for the executing core. -/
def State.stealHere (s : State) (f : Flight) : Bool := match f with | .stealReq _ _ _ v => v == coreOf s.cur | _ => false

/-- One steal request that is on its way to the executing core may reach its deque. -/
def State.maybeSteal (s : State) : State :=
  let k := Config.between s.freeN
  let t := { s with freeN := s.freeN + 1 }
  match t.takeFlight k with
  | some (.stealReq bk slot job v, u) => if v = coreOf s.cur then u.answerSteal bk slot job v else t
  | _ => t

/-- The steals that fall between two pops of one VREFILL, which ones freely (R216; log entry 68). -/
def State.stealsBetween (s : State) : State := (s.flight.filter s.stealHere).foldl (fun s _ => s.maybeSteal) s

end Sys2Proof.Machine
end

