-- ==== Sys2Proof/Machine/Message.lean ====
section
/-! DEFINITION. The message instructions: SEND, SENDU, SENDV (R195), REPLY (R196), the counter updates (R197) and CNTRD (R198). -/

namespace Sys2Proof.Machine

/-! ## Payloads -/

/-- The places of n payload words of memory from an address, each an aligned doubleword, from word `i` on (R195). -/
def payPlaces (rs2 : Reg) : Nat → Nat → W64 → State → Res (List LoadPiece)
  | 0, _, _, s => .ok s []
  | n + 1, i, va, s => (s.locate .read va 8 4 rs2 3).bind fun s loc =>
    (payPlaces rs2 n (i + 1) (va + 8) s).bind fun s t => .ok s ((i, loc, va.toNat) :: t)

/-- Whether the doubleword k of a vector register is poisoned. -/
def dwPois (p : BitVec 8) (k : Nat) : Bool := p.toNat / 2 ^ (2 * k) % 4 != 0

/-- n payload words of the vector registers from vs2 on. -/
def Bank.vecPay (b : Bank) (vs2 : Nat) (n : Nat) : List (W64 × Bool) :=
  (List.range n).map fun i => (dwOf (b.getV (vs2 + i / 4)) (i % 4), dwPois (b.poisV (vs2 + i / 4)) (i % 4))

/-! ## Sends -/

/-- The sender doubleword of a request (R99). -/
def sendH1 (modid bk : Nat) (slot : Option Nat) : W64 :=
  w64 (slot.isSome.toNat * 2 ^ 52 + slot.getD 0 * 2 ^ 48 + senderOf modid bk)

/-- The checks of R195 on a handle, in order; `v` is the TVAL. -/
def handleChecks (s : State) (h v : W64) (mayUrg : Bool) (fits : Bool) : Res Unit :=
  (check s (!(fld h 63 1 == 1 || hVn h || decide (32 < hWords h) || (hUrg h && !mayUrg))) 5 v).bind fun s _ =>
  (check s fits 5 v).bind fun s _ =>
  if hMod h = s.modid.toNat then
    (check s (hJob h == s.jid && s.inPlace s.jid (hDie h) (hCl h)) 4 v).bind fun s _ =>
      check s (hHid h != 0xFFF && ((s.jobAt s.jid).handler (hHid h)).isSome) 5 v
  else .ok s ()

/-- The last part of a send: a slot and an entry, or SQFULL; rd; the message buffered. -/
def sendBuffer (s : State) (rd : Reg) (h : W64) (pay : List (W64 × Bool)) : Res Unit :=
  (needEntry s ((rd == 0 || s.b.freeSlot.isSome) && s.sqFreeTo s.cur) h).bind fun s _ =>
    let slot := if rd = 0 then none else s.b.freeSlot
    let m : Msg := ⟨h, sendH1 s.modid.toNat s.cur slot, pay.map Prod.fst, pay.map Prod.snd⟩
    let s := match slot with
      | none => s
      | some k => s.modB fun b => (b.setX rd (w64 k) false).reserve k s.jid
    .ok (s.buffer (.send m (slot.map fun k => (s.cur, k)))) ()

/-- A send of a payload in memory (R122, R195, R350): what stalls of it is outstanding, and goes into the buffered message when it arrives. -/
def sendPieces (rd : Reg) (h : W64) (ps : List LoadPiece) (s : State) : Res Unit :=
  let late := ps.any fun q => s.stalled q.2.1 8
  let r := s.readParts 8 ps
  (sendBuffer r.1 rd h (r.2.map fun q => match q.2 with | some g => (w64 g.v, g.p) | none => (0, false))).bind fun t _ =>
    if s.full 8 (ps.map fun q => q.2.1) then .hold s
    else .ok (if late then t.owe (.pay s.b.buf.length) 8 false false .load r.2 else t) ()

/-- SEND and SENDU (R195). -/
def sendMem (urg : Bool) (rd rs1 rs2 : Reg) (s : State) : Out :=
  let v := s.b.getX rs1
  let n := hWords v
  finish ((clean s (if 0 < n then [rs1, rs2] else [rs1])).bind fun s _ =>
    let h := if urg then v ||| (1#64 <<< 55) else v
    (handleChecks s h v urg true).bind fun s _ =>
    (if n = 0 then .ok s () else checked s).bind fun s _ =>
    (payPlaces rs2 n 0 (s.b.getX rs2) s).bind fun s ps => sendPieces rd h ps s)

/-- SEND (R195). -/
def execSend (rd rs1 rs2 : Reg) (s : State) : Out := sendMem false rd rs1 rs2 s
/-- SENDU (R195). -/
def execSendu (rd rs1 rs2 : Reg) (s : State) : Out := sendMem true rd rs1 rs2 s
/-- SENDV (R195). -/
def execSendv (rd rs1 : Reg) (vs2 : VReg) (s : State) : Out :=
  if vs2 = 15 then .next (illegal s (.sendv rd rs1 vs2))
  else
    let h := s.b.getX rs1
    let n := hWords h
    finish ((clean s [rs1]).bind fun s _ =>
      (handleChecks s h h true (decide (vs2.val + (n + 3) / 4 ≤ 15))).bind fun s _ => sendBuffer s rd h (s.b.vecPay vs2 n))

/-- REPLY (R196): the first one of the activation is kept, routed by MHDR1; it takes no send-queue entry and raises no trap. -/
def execReply (rs1 : Reg) (vs2 : VReg) (s : State) : Out :=
  if vs2 = 15 then .next (illegal s (.reply rs1 vs2))
  else
    let b := s.b
    let req := b.msg.m.h1
    if mRx req = false ∨ b.reply.isSome then .next (s.modB Bank.advance)
    else
      let t := b.getX rs1
      let n := min (min (hWords t) 32) (4 * (15 - vs2.val))
      let pay := b.vecPay vs2 n
      let m := if b.poisX rs1 ∨ hHid t = 0xFFF then mkReply s.modid.toNat s.cur b.job req 0xFFF false [] []
        else mkReply s.modid.toNat s.cur b.job req (hHid t) (hUrg t) (pay.map Prod.fst) (pay.map Prod.snd)
      .next (s.modB fun b => { b with reply := some m }.advance)

/-! ## Counters -/

/-- A counter update (R197): the checks in order, then the update buffered. `valid` is the check of CNTARM's threshold. -/
def cntUpdate (rs1 rs2 : Reg) (valid : W64 → Bool) (op : W64 → CntOp) (s : State) : Out :=
  finish ((clean s [rs1, rs2]).bind fun s _ =>
    let r := s.b.getX rs1
    let a := s.b.getX rs2
    let loc := fld r 20 1 == 1
    (check s (fld r 21 43 == 0 && decide (fld r 0 12 < (s.jobAt s.jid).img.allot)) 5 r).bind fun s _ =>
    (check s (loc || s.inPlace s.jid (fld r 18 2) (fld r 12 6)) 4 r).bind fun s _ =>
    (check s (valid a) 5 a).bind fun s _ =>
    (needEntry s (s.sqFreeTo s.cur) r).bind fun s _ =>
      .ok (s.buffer (.cnt (if loc then s.ck else fld r 18 2 * 64 + fld r 12 6) s.jid (fld r 0 12) (op a))) ())

/-- CNTADD (R197). -/
def execCntadd (rs1 rs2 : Reg) (s : State) : Out := cntUpdate rs1 rs2 (fun _ => true) (fun a => .add (a.setWidth 32)) s
/-- CNTSET (R197). -/
def execCntset (rs1 rs2 : Reg) (s : State) : Out := cntUpdate rs1 rs2 (fun _ => true) (fun a => .set (a.setWidth 32)) s
/-- CNTARM (R197). -/
def execCntarm (rs1 rs2 : Reg) (s : State) : Out :=
  cntUpdate rs1 rs2 (fun a => fld a 0 32 != 0) (fun a => .arm (a.setWidth 32) (fld a 32 1 == 1)) s

/-- The value of CNTRD (R198). -/
def Counter.read (c : Counter) (sel : Bool) : W64 :=
  if sel then w64 (c.fires.toNat * 2 ^ 32 + c.thresh.toNat)
  else w64 (c.armed.toNat * 2 ^ 63 + c.rearm.toNat * 2 ^ 62 + c.act.toNat * 2 ^ 60 + c.hid.toNat * 2 ^ 32 + c.count.toNat)

/-- CNTRD (R198). -/
def execCntrd (rd rs1 : Reg) (s : State) : Out :=
  finish ((clean s [rs1]).bind fun s _ =>
    let r := s.b.getX rs1
    (check s (fld r 13 51 == 0 && decide (fld r 0 12 < (s.jobAt s.jid).img.allot)) 5 r).bind fun s _ =>
      .ok (s.modB fun b => b.setX rd ((s.counterAt (cntKey s.ck s.jid (fld r 0 12))).read (fld r 12 1 == 1)) false) ())

end Sys2Proof.Machine
end

