-- ==== Sys2Proof/Machine/Wake.lean ====
section
/-! DEFINITION. The events of the handler queues: arrivals (R181 to R187), refill (R188), dispatch and resumption (R161, R348), the ends of
waits (R157, R174, R175, R177, R350), pre-emption (R163, R349), the masked window's bound (R164), counters (R193), posted
atomics (R130), and the eviction of partials (R131). -/

namespace Sys2Proof.Machine

/-! ## Arrivals of messages -/

/-- MESSAGE_ARRIVAL (R187). -/
def execMessageArrival (k : Nat) (s : State) : Out :=
  .next (match s.takeFlight k with
    | some (.msg _ dst _ m, s) => s.deliver dst m (hUrg m.h0) false (coreField m.h0)
    | _ => s)

/-- A message to a job that can take none: counted (R190, R361, R378). -/
def State.late (s : State) (job : Nat) : State := s.modJob job fun j => { j with late := j.late + 1 }

/-- A reply at the requester's HQM (R184): into the queue of the job that reserved its slot, restricted to its core, or nothing but its slot freed.
One to a removed job, whose slots went with it, or at a retired cluster is counted late (R190, R361). -/
def State.landReply (s : State) (m : Msg) : State :=
  let ck := hCk m.h0
  let bk := (ck * 16 + hCore m.h0) * 5 + mDbank m.h1
  let slot := (bk, mSlot m.h1)
  match (s.bankAt bk).slotJob.find? fun e => e.1 == mSlot m.h1 with
  | none => s.late (hJob m.h0)
  | some (_, job) =>
    if mSmod m.h1 = s.modid.toNat ∧ hJob m.h0 ≠ job then s.late (hJob m.h0)
    else if (s.jobAt job).gone ∨ (s.unitAt (unitOf 9 ck 0)).st = .retired then (s.late job).freeSlotOf (some slot)
    else if hHid m.h0 = 0xFFF ∨ ((s.jobAt job).handler (hHid m.h0)).isNone then s.freeSlotOf (some slot)
    else s.modCluster ck fun c => { c with queue := c.queue ++ [⟨job, hHid m.h0, hUrg m.h0, some (hCore m.h0), false, some slot, m⟩] }

/-- REPLY_ARRIVAL (R184, R196). -/
def execReplyArrival (k : Nat) (s : State) : Out :=
  .next (match s.takeFlight k with
    | some (.reply _ _ m, s) => s.landReply m
    | _ => s)

/-- CARAFE_REFILL (R188). -/
def execCarafeRefill (ck job : Nat) (urg : Bool) (s : State) : Out :=
  .next (if s.refillDue ck job urg ∧ (urg ∨ s.refillDue ck job true = false) then
      s.refillSome ck job urg ((s.jobAt job).section ck urg.toNat).length
    else s)

/-! ## Dispatch and resumption -/

/-- DISPATCH (R161, R165). -/
def execDispatch (ck : Nat) (s : State) : Out :=
  .next (match s.choice ck with
    | some (c, .msg q bk) => (s.putCluster ck c).start ck bk q
    | _ => s)

/-- RESUME (R348, R165). -/
def execResume (ck : Nat) (s : State) : Out :=
  .next (match s.choice ck with
    | some (c, .saved i bk) => (s.putCluster ck c).resumeCtx bk i
    | _ => s)

/-! ## The ends of waits -/

/-- A bank goes on at the next instruction. -/
def Bank.goOn (b : Bank) : Bank := { b with st := .running, wait := .none }.advance
/-- A bank issues its instruction again. -/
def Bank.again (b : Bank) : Bank := { b with st := .running, wait := .none }

/-- A saved activation changed: its record by `f`, its wait over or not. It is ready, and goes behind those that are (R165), once its wait is over and
no load of it is outstanding (R350). -/
def State.modSaved (s : State) (ck i : Nat) (ended : Bool) (f : Bank → Bank) : State :=
  s.modCluster ck fun c =>
    match c.saved.find? fun x => x.idx == i with
    | none => c
    | some x =>
      let w := x.waits && !ended
      let b := f x.bank
      let y : Saved := { x with waits := w, bank := b, ready := !w && b.loads == [] }
      { c with saved := if y.ready then c.saved.filter (fun z => z.idx != i) ++ [y] else c.saved.map fun z => if z.idx = i then y else z }

/-- The wait of a saved activation is over. -/
def State.wakeSaved (s : State) (ck i : Nat) : State := s.modSaved ck i true id

/-- What a saved activation waits for. -/
def State.savedWait (s : State) (ck i : Nat) : Wait :=
  match (s.clusterAt ck).saved.find? fun x => x.idx == i && x.waits with
  | some x => x.bank.owed
  | none => .none
/-- The job of a saved activation. -/
def State.savedJob (s : State) (ck i : Nat) : Nat :=
  match (s.clusterAt ck).saved.find? fun x => x.idx == i with
  | some x => x.bank.job
  | none => 0

/-- What a waiting bank waits for. -/
def Bank.waitsFor (b : Bank) : Wait := if b.st = .waiting then b.wait else .none

/-- WAITC_WAKE (R174): rd receives the count at the instant the condition held. -/
def execWaitcWake (h : Holder) (s : State) : Out :=
  .next (match h with
    | .bank bk =>
      match (s.bankAt bk).waitsFor with
      | .counter rd c t =>
        let n := (s.counterAt (cntKey (ckOf bk) (s.bankAt bk).job c)).count
        if t ≤ n.toNat then s.modBank bk fun b => (b.setX (Fin.ofNat 32 rd) (n.setWidth 64) false).goOn else s
      | _ => s
    | .saved ck i =>
      match s.savedWait ck i with
      | .counter _ c t => if t ≤ (s.counterAt (cntKey ck (s.savedJob ck i) c)).count.toNat then s.wakeSaved ck i else s
      | _ => s)

/-- SLEEP_EXPIRY (R175). -/
def execSleepExpiry (h : Holder) (s : State) : Out :=
  .next (match h with
    | .bank bk =>
      let b := s.bankAt bk
      if b.waitsFor = .sleep ∧ s.reached (b.deadline.getD 0) then s.modBank bk fun b => { b.goOn with deadline := none } else s
    | .saved ck i => if s.savedWait ck i = .sleep ∧ s.reached (fld (s.ctxDw ck i 0x370) 0 48) then s.wakeSaved ck i else s)

/-- The generation of a job's region. -/
def State.genOf (s : State) (job g : Nat) : Nat := match (s.jobAt job).regions[g]? with | some r => r.gen | none => 0

/-- PUBWAIT_WAKE (R157). -/
def execPubwaitWake (h : Holder) (s : State) : Out :=
  .next (match h with
    | .bank bk =>
      match (s.bankAt bk).waitsFor with
      | .pub rd g w =>
        let gen := s.genOf (s.bankAt bk).job g
        if genReached gen w then s.modBank bk fun b => (b.setX (Fin.ofNat 32 rd) (w64 gen) false).goOn else s
      | _ => s
    | .saved ck i =>
      match s.savedWait ck i with
      | .pub _ g w => if genReached (s.genOf (s.savedJob ck i) g) w then s.wakeSaved ck i else s
      | _ => s)

/-- FENCE_COMPLETE (R145, R154); a saved activation issues its fence anew (R350). -/
def execFenceComplete (h : Holder) (s : State) : Out :=
  .next (match h with
    | .bank bk =>
      let b := s.bankAt bk
      let act := ckOf bk * 2 ^ 32 + b.seq
      match b.waitsFor with
      | .fence dom => if s.fenceDone act b.job dom then (s.modBank bk Bank.goOn).fenced act else s
      | _ => s
    | .saved .. => s)

/-! ## Accesses that a stall held (R121, R122, R300, R350, R358) -/

/-- Data for a part of a load. -/
def Outst.give (part : Nat) (g : Got) (o : Outst) : Outst := { o with parts := o.parts.modify part fun q => { q with got := some (g.v, g.p) } }

/-- Data for part `part` of load `id` of an activation, wherever the activation is; that of an aborted one goes nowhere (R344). -/
def State.giveLoad (s : State) (act id part : Nat) (g : Got) : State :=
  let give (b : Bank) : Bank := { b with loads := b.loads.map fun o => if o.id = id then o.give part g else o }
  match s.banks.find? fun e => e.2.st != .free && ckOf e.1 * 2 ^ 32 + e.2.seq == act with
  | some (bk, _) => s.modBank bk give
  | none => s.modCluster (act / 2 ^ 32) fun c => { c with saved := c.saved.map fun x => if x.bank.seq = act % 2 ^ 32 then { x with bank := give x.bank } else x }

/-- An access that waited performed. -/
def State.perform (s : State) (p : Pend) : State :=
  match p.op with
  | .store bs pois => s.storeAt p.loc bs pois
  | .load part => let r := s.loadNow p.act p.loc p.n; r.1.giveLoad p.act p.id part r.2
  | .atom op v c => let r := s.atomAt p.act p.loc p.n op v c; r.1.giveLoad p.act p.id 0 r.2

/-- Whether an access goes on waiting: its place stalls, an earlier access that waits meets it, or it is a release behind one of its activation. -/
def State.keeps (s : State) (before : List Pend) (p : Pend) : Bool :=
  s.wmStall p.loc p.n || s.retStall p.loc || s.chanStall p.loc || before.any fun q => q.meets p.loc p.n || (p.rel && q.act == p.act)

/-- The accesses of a list performed that no longer wait, in order; `kept` are those before them that do. -/
def State.drainList (s : State) (kept : List Pend) : List Pend → State
  | [] => { s with pend := kept }
  | p :: t => if s.keeps kept p then s.drainList (kept ++ [p]) t else (s.perform p).drainList kept t

/-- The accesses that no longer wait, performed in the order in which they arrived (R358). -/
def State.drain (s : State) : State := s.drainList [] s.pend

/-! ## Loads that return (R121, R350) -/

/-- The data of an outstanding load put into a saved context, or into the payload of a send it has buffered. -/
def State.arrivedSaved (s : State) (ck i : Nat) (dest : LoadDest) (n : Nat) (gs : List (Nat × Nat × Bool)) : State :=
  match dest with
  | .pay _ => s.modSaved ck i false (Bank.arrived dest false n gs)
  | _ =>
    let b := (s.fromImage ck i { Bank.init with service := false }).arrived dest false n gs
    let img := ctxImage false b 0
    let part (off n : Nat) (s : State) : State := s.poke (ctxLoc ck (1024 * i + off)) ((img.drop off).take n) false
    part 0x360 16 (part 0x358 8 (part 0x308 8 (part 8 728 s)))

/-- The data of a load, once every part of it is there: element, number and poison of each. -/
def Outst.data (o : Outst) : Option (List (Nat × Nat × Bool)) :=
  if o.parts.all fun q => q.got.isSome then some (o.parts.map fun q => (q.el, q.got.getD (0, false))) else none

/-- LOAD_RETURN (R121, R350): a load of an activation whose data is there returns it. -/
def execLoadReturn (h : LoadRef) (s : State) : Out :=
  let k := h.k
  let drop (b : Bank) : Bank := { b with loads := b.loads.eraseIdx k }
  .next (match h.holder with
    | .bank bk =>
      match (s.bankAt bk).loads[k]? with
      | some o => match o.data with
        | some gs => s.modBank bk fun b => drop (b.arrived o.dest o.svc o.n gs)
        | none => s
      | none => s
    | .saved ck i =>
      match ((s.clusterAt ck).saved.find? fun x => x.idx == i).bind fun x => x.bank.loads[k]? with
      | some o => match o.data with
        | some gs => (s.arrivedSaved ck i o.dest o.n gs).modSaved ck i false drop
        | none => s
      | none => s)

/-! ## Steals (R177) -/

/-- STEAL_REQUEST_ARRIVAL (R170, R177): the victim's deque answers. -/
def execStealRequestArrival (k : Nat) (s : State) : Out :=
  .next (match s.takeFlight k with
    | some (.stealReq bk slot job victim, s) => s.answerSteal bk slot job victim
    | _ => s)

/-- TAKEN counts a range that arrived. -/
def State.taken (s : State) (core : Nat) (ans : W64) : State :=
  if ans = 0 then s else s.putCore core { s.coreAt core with taken := (s.coreAt core).taken + 1 }

/-- A steal answer with no activation to take it (R345): pushed onto the thief core's deque, or lost and counted. TAKEN does not count it, which the
spec leaves open (DESIGN CHOICE, log entry 62). -/
def State.strayRange (s : State) (core job : Nat) (ans : W64) : State :=
  let c := s.coreAt core
  if ans = 0 then s
  else if c.dq.length < 64 then s.putCore core { c with dq := c.dq ++ [⟨fld ans 0 32, fld ans 32 32, job⟩] }
  else s.modJob job fun j => { j with lostRange := j.lostRange + 1 }

/-- Whether a wait is that of a steal with this slot. -/
def Wait.isSteal (w : Wait) (bk slot : Nat) : Option Nat :=
  match w with | .steal rd b k => if b = bk ∧ k = slot then some rd else Option.none | _ => Option.none

/-- STEAL_ANSWER_ARRIVAL (R177, R184, R345). -/
def execStealAnswerArrival (k : Nat) (s : State) : Out :=
  .next (match s.takeFlight k with
    | some (.stealAns bk slot job ans, s) =>
      let s := s.freeSlotOf (some (bk, slot))
      let core := coreOf bk
      match (s.bankAt bk).waitsFor.isSteal bk slot, (s.bankAt bk).owed.isSteal bk slot with
      | some rd, _ => (s.modBank bk fun b => (b.setX (Fin.ofNat 32 rd) ans false).goOn).taken core ans
      | none, some rd => (s.modBank bk fun b => { b.setModeX false rd ans false with owed := .none }).taken core ans
      | none, none =>
        match (s.clusterAt (ckOf bk)).saved.find? fun x => (x.bank.owed.isSteal bk slot).isSome with
        | some x =>
          let rd := (x.bank.owed.isSteal bk slot).getD 0
          let s := s.arrivedSaved (ckOf bk) x.idx (.x rd true) 8 [(0, ans.toNat, false)]
          (s.modSaved (ckOf bk) x.idx true fun b => { b with owed := .none }).taken core ans
        | none => s.strayRange core job ans
    | _ => s)

/-! ## Pre-emption and the masked window -/

/-- Whether a bank's activation is Waiting (R158): a fence stalls its bank, and a halt for the debugger holds it. -/
def Bank.isWaiting (b : Bank) : Bool :=
  match b.waitsFor with | .none => false | .fence _ => false | .debug => false | _ => true

/-- LONG_WAIT_RELEASE (R163): a normal bank that has waited for 3,200 cycles gives way. -/
def execLongWaitRelease (bk : Nat) (s : State) : Out :=
  let b := s.bankAt bk
  .next (if bankNo bk ≠ 4 ∧ b.isWaiting ∧ b.service = false ∧ b.maskOn = false ∧ b.since + 3200 ≤ s.cycles ∧ s.givesWay bk
    then s.preemptBank bk .longWait else s)

/-- Whether a lease or a retirement asks for a bank: its core is withdrawn, or retiring (R358, R361). -/
def State.leaseAsks (s : State) (bk : Nat) : Bool :=
  let u := s.unitAt (coreUnit (coreOf bk))
  u.withdrawn || u.st == .draining || u.st == .retired

/-- Whether a gang asks for a bank: its job is moved out of its cluster for a gang with reservations (R167). -/
def State.gangAsks (s : State) (bk : Nat) : Bool :=
  (s.jobAt (s.bankAt bk).job).reloc &&
    s.jobs.any fun e => e.2.reserving && e.2.reserved.has (ckOf bk) && (s.runOf (ckOf bk) (s.bankAt bk).job).isSome

/-- PREEMPTION_REQUEST (R348, R349): a waiting bank is pre-empted at once, a running one at its next boundary outside service mode and
any masked window. -/
def execPreemptionRequest (bk : Nat) (reason : PreReason) (s : State) : Out :=
  let b := s.bankAt bk
  let asks := match reason with | .lease => s.leaseAsks bk | .gang => s.gangAsks bk | _ => false
  .next (if asks = false ∨ b.st = .free then s
    else if b.st = .waiting ∧ b.service = false ∧ b.maskOn = false then s.preemptBank bk reason
    else s.modBank bk fun b => { b with preempt := some reason })

/-- MASKOVER_TIMEOUT (R164, R338): 1,024 cycles after MASKU the window ends, with the trap at an instruction boundary of handler mode;
in service mode the window closes at once and the trap is due. A parked access is a boundary, and its waiter leaves; so is a fence that waits, which a
pre-emption halts before it (R349, R350; log entry 49). -/
def execMaskoverTimeout (bk : Nat) (s : State) : Out :=
  let b := s.bankAt bk
  .next (if b.maskOn = false ∨ s.cycles < b.maskStart + 1024 then s
    else if b.service then s.modBank bk fun b => { b.closeWindow with maskDue := 2 }
    else match b.waitsFor with
      | .parked pg die .. => ((s.dropWaiter die pg).modBank bk Bank.unRedo).trapBank bk 9 2
      | .none => (s.modBank bk Bank.unRedo).trapBank bk 9 2
      | .fence _ => s.trapBank bk 9 2
      | _ => s)

/-! ## Counters (R193, R194) -/

/-- One update of a counter. -/
def Counter.apply (c : Counter) : CntOp → Counter
  | .add a => { c with count := c.count + a }
  | .set v => { c with count := v }
  | .arm t r => { c with thresh := t, rearm := r, armed := true }

/-- The message of a counter that fires (R194). -/
def counterMsg (job n : Nat) (hid : Nat) (count fires : W32) : QMsg :=
  ⟨job, hid, false, none, true, none, ⟨0, 1#64 <<< 35, [w64 n, count.setWidth 64, fires.setWidth 64], []⟩⟩

/-- An update applied at a counter of a job, and the test of R193. -/
def State.counterUpdate (s : State) (ck job n : Nat) (op : CntOp) : State :=
  let k := cntKey ck job n
  let c := (s.counterAt k).apply op
  if c.armed ∧ c.thresh.toNat ≤ c.count.toNat then
    let c' := { c with fires := c.fires + 1, armed := c.rearm, count := if c.rearm then c.count - c.thresh else c.count }
    let s := { s with counters := s.counters.set Counter.init k c' }
    let s := if c.act &&& 1 = 1 then s.enqueue ck (counterMsg job n c.hid.toNat c.count c'.fires) else s
    if c.act &&& 2 = 2 then { s with flight := s.flight ++ [.post ck job n c.ttra none] } else s
  else { s with counters := s.counters.set Counter.init k c }

/-- COUNTER_UPDATE (R193, R197), wherever the job has its counters (R192), moved out of the cluster or not (log entry 36). -/
def execCounterUpdate (k : Nat) (s : State) : Out :=
  .next (match s.takeFlight k with
    | some (.cnt _ ck _ job c op, s) =>
      if (s.jobAt job).marked.has ck ∧ c < (s.jobAt job).img.allot then s.counterUpdate ck job c op else s
    | _ => s)

/-! ## Posted atomics (R130) -/

/-- An update that can no longer be performed: dropped and counted. -/
def State.postFault (s : State) (job : Nat) : State := s.modJob job fun j => { j with postFault := j.postFault + 1 }

/-- POSTED_ATOMIC_PERFORM (R130): steps 4 and 5 of R118 are made again; one whose place stalls waits there in the order of arrival. -/
def execPostedAtomicPerform (k : Nat) (s : State) : Out :=
  .next (match s.takeFlight k with
    | some (.atomic src ck p none, s') =>
      match s'.place ck 0 p.job .both p.va with
      | (_, .busy) => s
      | (t, .refused) => t.postFault p.job
      | (t, .parked pg kind t2 loc) =>
        { t.recordFault (dieOf ck) pg p.va kind t2 true loc with flight := s.flight.set k (.atomic src ck p (some pg)) }
      | (t, .at loc) =>
        let w : Pend := ⟨p.act, 15360, p.job, p.va, 0, loc, p.n, p.rl, .atom p.op p.s.toNat p.c.toNat⟩
        if t.stalled loc p.n || (p.rl && t.pend.any fun q => q.act == p.act) then { t with pend := t.pend ++ [w] } else t.perform w
    | _ => s)

/-! ## Commutative partials (R131) -/

/-- A line of the commutative state replaced. -/
def State.modLine (s : State) (line : Nat) (f : CommLine → CommLine) : State :=
  { s with comm := s.comm.map fun c => if c.loc = line then f c else c }

/-- CLUSTER_PARTIAL_EVICT (R131): a cluster's partial is added into the partial of its die. -/
def execClusterPartialEvict (line ck : Nat) (s : State) : Out :=
  .next (s.modLine line fun c =>
    if (c.cls.map Prod.fst).contains ck then
      { c with cls := c.cls.erase ck,
               dies := FMap.insert (c.dies.erase (dieOf ck)) (dieOf ck) (addLine c.int64 (c.dies.get zeroLine (dieOf ck)) (c.cls.get zeroLine ck)) }
    else c)

/-- DIE_PARTIAL_EVICT (R131): a die's partial is added into the line at its home. -/
def execDiePartialEvict (line die : Nat) (s : State) : Out :=
  .next (match s.comm.find? fun c => c.loc == line with
    | none => s
    | some c =>
      if (c.dies.map Prod.fst).contains die then
        let v := addLine c.int64 (s.lineWords line) (c.dies.get zeroLine die)
        let bad := s.pois.has line
        (s.modLine line fun c => { c with dies := c.dies.erase die }).poke line (v.flatMap fun (w : W64) => leBytes 8 w.toNat) bad
      else s)

end Sys2Proof.Machine
end

