-- ==== Sys2Proof/Machine/Engine.lean ====
section
/-! DEFINITION. Engines: their queues (R225), status (R226, R238), memory accesses (R114, R118, R149, R392), the end of a command (R36, R147),
mismatches (R22, R360), parking, leases, retirement and removal (R228, R229, R257, R289, R319). -/

namespace Sys2Proof.Machine

/-! ## Queues and running commands -/

/-- The depth of a class's queue (R225). -/
def depthOf (cls : Nat) : Nat := if cls = 3 ∨ cls = 4 then 32 else 16
/-- The units of a class in a cluster. -/
def unitsOf (cls : Nat) : Nat := if cls = 4 then 4 else 1

def Cluster.engAt (c : Cluster) (cls : Nat) : EngQ := c.eng.get EngQ.init cls
def Cluster.putEng (c : Cluster) (cls : Nat) (e : EngQ) : Cluster := { c with eng := c.eng.set EngQ.init cls e }
def State.engAt (s : State) (ck cls : Nat) : EngQ := (s.clusterAt ck).engAt cls
def State.modEng (s : State) (ck cls : Nat) (f : EngQ → EngQ) : State := s.modCluster ck fun c => c.putEng cls (f (c.engAt cls))

/-- The leased unit behind an engine class: OPA, RTA and FR (R354). -/
def engUnit (ck cls : Nat) : Option Nat := if cls < 3 then some (unitOf (cls + 2) ck 0) else none
/-- Whether the cluster has been retired (R361). -/
def State.clusterGone (s : State) (ck : Nat) : Bool := (s.unitAt (unitOf 9 ck 0)).st == .retired
/-- Whether an engine of a class has been retired (R229, R257, R289, R319). -/
def State.engGone (s : State) (ck cls : Nat) : Bool :=
  s.clusterGone ck || match engUnit ck cls with | some u => (s.unitAt u).st == .retired | none => false
/-- Whether an engine is withdrawn under lease or held. -/
def State.engHeld (s : State) (ck cls : Nat) : Bool := match engUnit ck cls with | some u => (s.unitAt u).withdrawn | none => false

/-- The command that a unit runs. -/
def EngQ.runOf (e : EngQ) (unit : Nat) : Option RunCmd := e.runs.find? fun r => r.unit == unit
/-- The command being executed (R36). -/
def State.run? (s : State) : Option RunCmd := (s.engAt s.cmd.ck s.cmd.cls).runOf s.cmd.unit
/-- The record of the command being executed, changed. -/
def State.modRun (s : State) (f : RunCmd → RunCmd) : State :=
  s.modEng s.cmd.ck s.cmd.cls fun e => { e with runs := e.runs.map fun r => if r.unit = s.cmd.unit then f r else r }

/-- The number of a running command among those of the module, as shadow regions latch it (R149). -/
def cmdNo (c : CmdCtx) : Nat := (c.ck * 8 + c.cls) * 4 + c.unit

/-- A queue's next command started on a free unit (R225). -/
def State.startCmd (s : State) (ck cls unit : Nat) : State :=
  match (s.engAt ck cls).q with
  | [] => s
  | c :: t => s.modEng ck cls fun e => { e with q := t, runs := e.runs ++ [⟨unit, c, 0, [], none, [], none⟩] }

/-! ## The end of a command -/

/-- The side latches of a command given up (R149). -/
def State.unlatch (s : State) (job no : Nat) : State :=
  s.modJob job fun j => { j with regions := j.regions.map fun r => { r with latches := r.latches.filter fun l => l.1 != no } }

/-- The status of a unit. -/
def EngQ.statOf (e : EngQ) (unit : Nat) : EngStat := e.stat.get EngStat.init unit
/-- Completion recorded in the engine status of a unit (R226, R238). A command that no unit has started counts with unit 0, which the spec does not say
(DESIGN CHOICE, log entry 23). -/
def EngQ.record (e : EngQ) (unit tag code : Nat) : EngQ :=
  let x := e.statOf unit
  let y : EngStat := if code = 0 then { x with tag := BitVec.ofNat 16 tag }
    else { tag := BitVec.ofNat 16 tag, errcode := BitVec.ofNat 8 code, errtag := BitVec.ofNat 16 tag, errcnt := if x.errcnt = 255 then 255 else x.errcnt + 1 }
  { e with stat := e.stat.set EngStat.init unit y }

/-- A watermark channel of a cluster. -/
def Cluster.wmAt (c : Cluster) (ch : Nat) : Wm := c.wm.get Wm.init ch
def State.modWm (s : State) (ck ch : Nat) (f : Wm → Wm) : State :=
  s.modCluster ck fun c => { c with wm := c.wm.set Wm.init ch (f (c.wmAt ch)) }
/-- A filling CP.GET that ends in error: its job's channel takes ERR and leaves ARMED (R299). -/
def State.failFill (s : State) (ck cls : Nat) (c : QCmd) (code : Nat) : State :=
  if cls = 3 ∧ code ≠ 0 ∧ tcwCmd c.w0 = 1 ∧ fld c.w2 59 1 = 1 then
    s.modWm ck (fld c.w2 60 4) fun w => if w.owner = some c.job then { w with err := true, armed := false } else w
  else s

/-- A FLOAD that fails outside its own steps leaves its slot empty (R284). -/
def State.failLoad (s : State) (ck cls : Nat) (c : QCmd) : State :=
  if cls = 2 ∧ tcwCmd c.w0 = 1 then
    s.modCluster ck fun k => if k.fr.owner = c.job ∧ k.fr.free = false then { k with fr := { k.fr with slots := k.fr.slots.set [] (tcwCmdf c.w0 % 4) [] } } else k
  else s

/-- The end of a command of a unit, without or with an error: status, pool record, and the update of its counter on cluster `tgt` (R36, R147, R233). -/
def State.endCmd (s : State) (ck cls unit : Nat) (c : QCmd) (code tgt : Nat) : State :=
  let s := (s.failFill ck cls c code).modEng ck cls fun e => e.record unit (tcwTag c.w0) code
  let s := match c.tts with
    | some id => s.modCluster ck fun k => { k with tts := k.tts.filter fun r => r.id != id }
    | none => s
  if tcwCv c.w0 ∧ (code = 0 ∨ tcwErrc c.w0) then s.counterUpdate tgt c.job (tcwCtr c.w0) (.add 1) else s

/-- The running command taken off its unit. -/
def State.dropRun (s : State) : State :=
  match s.run? with
  | none => s
  | some r => (s.modEng s.cmd.ck s.cmd.cls fun e => { e with runs := e.runs.filter fun x => x.unit != s.cmd.unit }).unlatch r.cmd.job (cmdNo s.cmd)

/-- The running command ends, its counter that of cluster `to`. -/
def State.endRunAt (s : State) (code tgt : Nat) : State :=
  match s.run? with
  | none => s
  | some r => s.dropRun.endCmd s.cmd.ck s.cmd.cls s.cmd.unit r.cmd code tgt

/-- The running command ends. -/
def State.endRun (s : State) (code : Nat) : State := s.endRunAt code s.cmd.ck

/-! ## Steps of a command -/

/-- Why a step of a command stops short: an execution error, a page that is not present, or a stall that leaves everything as it was. -/
inductive Halt where
  | err (code : Nat)
  | park (die : Nat) (pg : PageKey) (va kind : Nat) (t2 wr : Bool) (loc : Nat)
  | stall
  deriving DecidableEq, Repr

/-- A part of a step: it reads and changes the state, and may stop short. -/
abbrev Eng (α : Type) := ExceptT Halt (StateM State) α

def fail {α : Type} (code : Nat) : Eng α := throw (.err code)
def must (c : Bool) (code : Nat) : Eng Unit := if c then pure () else fail code

/-- A step of the running command: `true` says that it completes. A step that stalls or parks leaves no other trace (R114). -/
def State.engRun (s : State) (m : Eng Bool) : State :=
  match m.run s with
  | (.ok true, t) => t.endRun 0
  | (.ok false, t) => t
  | (.error (.err c), t) => t.endRun c
  | (.error (.park die pg va kind t2 wr loc), _) => (s.recordFault die pg va kind t2 wr loc).modRun fun r => { r with parked := some pg }
  | (.error .stall, _) => s

/-- The meaning of a command: a step of it, where the unit runs one. -/
def command (m : RunCmd → Eng Bool) (s : State) : Out :=
  .next (match s.run? with
    | some r => if r.parked.isSome then s else s.engRun (m r)
    | none => s)

/-- Progress recorded. -/
def setProg (n : Nat) : Eng Unit := modify fun s => s.modRun fun r => { r with prog := n }

/-! ## Memory accesses of an engine -/

/-- Who accesses: the cluster whose windows serve, the unit whose translation cache does (R112), the job, the number of the command, and the
channel that its writes fill (R299). -/
structure Who where
  ck : Nat
  via : Nat
  job : Nat
  no : Nat
  fill : Option Nat
  deriving DecidableEq, Repr

/-- Which of several independent parts moves next: any of them (R246, R298). -/
def anyOf {α : Type} (s : State) (l : List α) : Option α := if l.length = 0 then none else l[s.cmd.pick % l.length]?

/-- The accesses of the running command. -/
def RunCmd.who (r : RunCmd) (s : State) : Who := ⟨s.cmd.ck, 0, r.cmd.job, cmdNo s.cmd, none⟩

/-- A region of a job replaced. -/
def State.setRegion (s : State) (job g : Nat) (r : Region) : State := s.modJob job fun j => { j with regions := j.regions.set g r }

/-- The side of a shadow region that a command's read sees, with its latch (R149). -/
def Region.readSide (r : Region) (no : Nat) : Nat × Region :=
  match r.latches.find? fun l => l.1 == no && !l.2.2 with
  | some l => (l.2.1, r)
  | none => (r.gen % 2, { r with latches := (no, r.gen % 2, false) :: r.latches })

/-- The side that a command's write goes to; none while it must wait (R149). A command that reads and writes one region holds a latch for its reads, on
the visible side, beside one for its writes, on the hidden side: the rule speaks of one side alone (DESIGN CHOICE, log entry 65). -/
def Region.writeSide (r : Region) (no : Nat) : Option (Nat × Region) :=
  match r.latches.find? fun l => l.1 == no && l.2.2 with
  | some l => some (l.2.1, r)
  | none =>
    let h := (r.gen + 1) % 2
    if r.tgt ≠ r.gen ∨ r.latches.any (fun l => l.1 != no && l.2.1 == h && !l.2.2) then none
    else some (h, { r with latches := (no, h, true) :: r.latches })

/-- Whether n bytes at a place must wait. A filling copy is not held by its own channel, nor by an access that the channel holds (R300). -/
def State.engStalled (s : State) (w : Who) (loc n : Nat) : Bool :=
  s.wmHolds w.fill loc n || s.retStall loc || s.chanStall loc || s.pend.any fun p => p.meets loc n && !(w.fill.isSome && s.wmStall p.loc p.n)

/-- The place of n bytes within one 64-byte line; none where an access is refused (R118, R149). -/
def tryPlace (w : Who) (nd : Need) (va n : Nat) : Eng (Option Nat) := do
  let s ← get
  match s.place w.ck w.via w.job nd va with
  | (_, .refused) => pure none
  | (_, .busy) => throw .stall
  | (_, .parked pg k t2 loc) => throw (.park (dieOf w.ck) pg va k t2 (nd != .read) loc)
  | (t, .at loc) =>
    if t.engStalled w loc n then throw .stall
    else match regionAt (t.jobAt w.job).regions va with
      | none => set t; pure (some loc)
      | some (g, r) =>
        match nd with
        | .both => pure none
        | .read =>
          let x := r.readSide w.no
          set (t.setRegion w.job g x.2)
          pure (some (if x.1 = 0 then loc else side1 loc))
        | .write =>
          match r.writeSide w.no with
          | none => throw .stall
          | some x => set (t.setRegion w.job g x.2); pure (some (if x.1 = 0 then loc else side1 loc))

/-- The pieces of n bytes that lie in one 64-byte line each. -/
def piecesFrom : Nat → Nat → Nat → List (Nat × Nat)
  | 0, _, _ => []
  | fuel + 1, va, n => if n = 0 then [] else let k := min n (64 - va % 64); (va, k) :: piecesFrom fuel (va + k) (n - k)
def pieces (va n : Nat) : List (Nat × Nat) := piecesFrom (n / 64 + 2) va n

/-- A byte with its poison. -/
abbrev PByte := Byte × Bool

/-- n bytes at a place with their poison, the line merged and the bank touched (R120, R132). -/
def State.pbytesAt (s : State) (loc n : Nat) : List PByte :=
  (List.range n).map fun i => (s.byteAt (loc + i), s.pois.has (granule (loc + i)))

def tryRead (w : Who) (va n : Nat) : Eng (Option (List PByte)) := do
  match ← tryPlace w .read va n with
  | none => pure none
  | some loc =>
    modify fun s => (s.mergeLine loc).touch loc
    let s ← get
    pure (some (s.pbytesAt loc n))

/-- Pieces read one after another; none where one is refused. -/
def tryReads (w : Who) : List (Nat × Nat) → Eng (Option (List PByte))
  | [] => pure (some [])
  | (va, n) :: t => do
    match ← tryRead w va n with
    | none => pure none
    | some bs => match ← tryReads w t with
      | none => pure none
      | some r => pure (some (bs ++ r))

/-- n bytes of the job's space. -/
def tryBytes (w : Who) (va n : Nat) : Eng (Option (List PByte)) := tryReads w (pieces va n)
/-- n bytes; a refused access ends the command with 0x02 (R226). -/
def readBytes (w : Who) (va n : Nat) : Eng (List PByte) := do
  match ← tryBytes w va n with
  | some bs => pure bs
  | none => fail 2

/-- Bytes stored at a place, each granule poisoned that holds a poisoned byte (R120). -/
def State.pokeP (s : State) (loc : Nat) (bs : List PByte) : State :=
  let t := s.poke loc (bs.map Prod.fst) false
  { t with pois := bs.zipIdx.foldl (fun p e => if e.1.2 then p.add (granule (loc + e.2)) else p) t.pois }

/-- The copies that a write of n bytes at a place leaves: each aligned doubleword that it meets, as it stands (R86, R146). -/
def State.copiesOf (s : State) (loc n : Nat) : List Stale :=
  (List.range ((loc + n + 7) / 8 - loc / 8)).map fun k => let g := (loc / 8 + k) * 8; ⟨g, s.pbytesAt g 8, [], []⟩

/-- An asynchronous write at its home (R132, R138, R146): what it replaces may still be returned to loads, but not of a shadow region, whose hidden side
nobody reads before the turn (R149, R150). -/
def State.asyncPut (s : State) (hidden : Bool) (loc : Nat) (bs : List PByte) : State :=
  let t := (s.mergeLine loc).touch loc
  if hidden then t.pokeP loc bs else { t.pokeP loc bs with stale := t.copiesOf loc bs.length ++ t.stale }

/-- One piece written (R146). -/
def tryWrite (w : Who) (va : Nat) (bs : List PByte) : Eng Bool := do
  match ← tryPlace w .write va bs.length with
  | none => pure false
  | some loc => modify fun s => s.asyncPut (regionAt (s.jobAt w.job).regions va).isSome loc bs; pure true

def tryWrites (w : Who) (base : Nat) (bs : List PByte) : List (Nat × Nat) → Eng Bool
  | [] => pure true
  | (va, n) :: t => do
    if ← tryWrite w va ((bs.drop (va - base)).take n) then tryWrites w base bs t else pure false

/-- Bytes written to the job's space; a refused access ends the command with 0x02. -/
def writeBytes (w : Who) (va : Nat) (bs : List PByte) : Eng Unit := do
  must (← tryWrites w va bs (pieces va bs.length)) 2

/-- The number that bytes hold, least significant first, and whether one is poisoned. -/
def pnum (bs : List PByte) : Nat := leNat (bs.map Prod.fst)
def ppois (bs : List PByte) : Bool := bs.any Prod.snd
/-- Doubleword k of bytes. -/
def pdw (bs : List PByte) (k : Nat) : W64 := w64 (pnum ((bs.drop (8 * k)).take 8))
/-- The n-byte number at offset `off`. -/
def pfield (bs : List PByte) (off n : Nat) : Nat := pnum ((bs.drop off).take n)
/-- The n low bytes of a number, all poisoned or none. -/
def pbytes (n v : Nat) (p : Bool) : List PByte := (leBytes n v).map fun b => (b, p)

/-! ## Mismatches (R22, R360) -/

/-- A mismatch of nature consumed by a checked operation of an engine: points to its unit, and the lane struck when re-firing does not
correct it. -/
def State.engMishap (s : State) : State × Option Nat :=
  match s.mishap, engUnit s.cmd.ck s.cmd.cls with
  | .none, _ => (s, none)
  | _, none => (s, none)
  | .fixed _, some u => ({ s with mishap := .none }.charge u 8, none)
  | .bad l, some u => ({ s with mishap := .none }.charge u 64, some l)

/-- The mismatch that the step meets. -/
def mishapNow : Eng (Option Nat) := do
  let r := (← get).engMishap
  set r.1
  pure r.2

/-! ## Retirement and removal -/

/-- A class retired: its running and queued commands end with 0x06 (R226, R229, R257, R289). -/
def State.retireEngine (s : State) (ck cls : Nat) : State :=
  let e := s.engAt ck cls
  let s := e.runs.foldl (fun s r => s.unlatch r.cmd.job (cmdNo ⟨ck, cls, r.unit, 0⟩)) s
  let s := s.modEng ck cls fun e => { e with q := [], runs := [] }
  ((e.runs.map fun (r : RunCmd) => (r.unit, r.cmd)) ++ e.q.map fun c => (0, c)).foldl (fun s (c : Nat × QCmd) => s.endCmd ck cls c.1 c.2 6 ck) s

/-- A removed job's commands of a class discarded without any counter update (R229, R257, R289, R319). -/
def State.discardCmds (s : State) (job ck cls : Nat) : State :=
  let e := s.engAt ck cls
  let s := (e.runs.filter fun r => r.cmd.job == job).foldl (fun s r =>
    let s := s.unlatch job (cmdNo ⟨ck, cls, r.unit, 0⟩)
    (r.parked.toList ++ r.held.map fun h => h.2.1).foldl (fun s pg => s.dropWaiter (dieOf ck) pg) s) s
  s.modEng ck cls fun e => { e with q := e.q.filter fun c => c.job != job, runs := e.runs.filter fun r => r.cmd.job != job }

/-- A page resolved, or its resolution failed: the commands parked on it resume, or end with 0x01 and ROWPROG keeps its value (R115,
R226, R228). -/
def State.wakeEngine (s : State) (ck cls : Nat) (pg : PageKey) (ok : Bool) : State :=
  let e := s.engAt ck cls
  let s := s.modEng ck cls fun e => { e with runs := e.runs.map fun r =>
    { r with held := if ok then r.held.filter (fun h => h.2.1 != pg) else r.held.map fun h => if h.2.1 = pg then (h.1, h.2.1, true) else h } }
  if ok then s.modEng ck cls fun e => { e with runs := e.runs.map fun r => if r.parked = some pg then { r with parked := none } else r }
  else
    (e.runs.filter fun r => r.parked == some pg).foldl (fun s r =>
      let s := if cls = 0 then s.modCluster ck fun c => { c with rowprog := { c.rowprog with park := true } } else s
      { s.failLoad ck cls r.cmd with cmd := ⟨ck, cls, r.unit, 0⟩ }.endRun 1) s

/-! ## Engine status (R238) -/

/-- STATE of a unit: retired, withdrawn, parked, running or idle. -/
def State.engState (s : State) (ck cls unit : Nat) : Nat :=
  if s.engGone ck cls then 4
  else if s.engHeld ck cls then 3
  else match (s.engAt ck cls).runOf unit with
    | some r => if r.parked.isSome then 2 else 1
    | none =>
      let tx := (s.dieAt (dieOf ck)).tx.filter fun t => cls == 5 && t.ck == ck && t.cmd.isSome
      if tx.any (fun t => t.parked.isSome) then 2 else if tx = [] then 0 else 1

/-- The engine status word of a unit; its queue is that of the class. -/
def State.engWord (s : State) (ck cls unit : Nat) : W64 :=
  let e := s.engAt ck cls
  let x := e.statOf unit
  w64 (x.tag.toNat * 2 ^ 48 + x.errcode.toNat * 2 ^ 40 + x.errtag.toNat * 2 ^ 24 + (depthOf cls - e.q.length) * 2 ^ 16 + x.errcnt.toNat * 2 ^ 8 +
    s.engState ck cls unit * 2 ^ 4 + cls)

/-- ROWPROG (R228, R229): PARK reads 1 while a command is parked, and while the OPA is withdrawn. -/
def State.rowprogWord (s : State) (ck : Nat) : W64 :=
  let r := (s.clusterAt ck).rowprog
  let held := s.engHeld ck 0 || (s.engAt ck 0).runs.any fun x => x.parked.isSome
  w64 (r.tag.toNat * 2 ^ 48 + r.tile * 2 ^ 34 + (r.park || held).toNat * 2 ^ 33 + r.valid.toNat * 2 ^ 32 + r.kb * 2 ^ 16 + r.next)

end Sys2Proof.Machine
end

