-- ==== Sys2Proof/Machine/Special.lean ====
section
/-! DEFINITION. The special functions (R211, R212, R276): the exact cases, and for every other argument a value known far more closely
than any format resolves; the result is one of those within the bound of the spec, which one is free (log entry 9). -/

namespace Sys2Proof.Machine

/-! ## Fixed-point series, with 260 bits behind the point -/

def fxBits : Nat := 260
def fxOne : Nat := 2 ^ fxBits

/-- Terms of atanh(1/n), or of atan(1/n) with alternating signs. -/
def atanTerms (alt : Bool) (n : Nat) : Nat → Nat → Nat → Int
  | 0, _, _ => 0
  | fuel + 1, k, p => (if alt && k % 2 == 1 then -((p / (2 * k + 1) : Nat) : Int) else (p / (2 * k + 1) : Nat)) + atanTerms alt n fuel (k + 1) (p / (n * n))

/-- ln 2 = 2 atanh(1/3) and π = 16 atan(1/5) − 4 atan(1/239). -/
def fxLn2 : Nat := (2 * atanTerms false 3 90 0 (fxOne / 3)).toNat
def fxPi : Nat := (16 * atanTerms true 5 60 0 (fxOne / 5) - 4 * atanTerms true 239 20 0 (fxOne / 239)).toNat

/-- Σ rⁱ/i!, with every sign, or for the sine and cosine every second term with alternating signs. -/
def expTerms (r : Nat) : Nat → Nat → Nat → Nat
  | 0, _, _ => 0
  | fuel + 1, i, t => t + expTerms r fuel (i + 1) (t * r / (fxOne * (i + 1)))

def trigTerms (r : Nat) : Nat → Nat → Bool → Nat → Int
  | 0, _, _, _ => 0
  | fuel + 1, i, neg, t =>
    (if neg then -(t : Int) else t) + trigTerms r fuel (i + 2) (!neg) (t * r / (fxOne * (i + 1)) * r / (fxOne * (i + 2)))

/-- 2ᵏ · eʳ as a quotient, for 0 ≤ r < 1 fixed-point. -/
def scaleExp (k : Int) (r : Nat) : Nat × Nat :=
  let e := expTerms r 70 0 fxOne
  if 0 ≤ k then (e * 2 ^ k.toNat, fxOne) else (e, fxOne * 2 ^ (-k).toNat)

/-- eˣ for x = ±n/d; beyond every format the nearest power that already overflows or underflows, and tiny arguments held above 2^−250. -/
def expVal (neg : Bool) (n d : Nat) : Nat × Nat :=
  if 2000 * d < n then scaleExp (if neg then -2000 else 2000) 0
  else
    let x := max 1024 (n * fxOne / d)
    let y : Int := if neg then -(x : Int) else x
    let k := Int.fdiv y fxLn2
    scaleExp k (y - k * fxLn2).toNat

/-- 2ˣ for x = ±n/d. -/
def exp2Val (neg : Bool) (n d : Nat) : Nat × Nat :=
  if 2000 * d < n then scaleExp (if neg then -2000 else 2000) 0
  else
    let x := max 1024 (n * fxOne / d)
    let y : Int := if neg then -(x : Int) else x
    let k := Int.fdiv y fxOne
    scaleExp k ((y - k * fxOne).toNat * fxLn2 / fxOne)

/-- ln x for x = n/d, fixed-point. -/
def lnVal (n d : Nat) : Int :=
  let e := ratLog2 n d
  let p := scaleDown n d e
  let t := (p.1 - p.2) * fxOne / (p.1 + p.2)
  let sq := t * t / fxOne
  let rec terms : Nat → Nat → Nat → Nat
    | 0, _, _ => 0
    | fuel + 1, k, q => q / (2 * k + 1) + terms fuel (k + 1) (q * sq / fxOne)
  e * fxLn2 + 2 * (terms 90 0 t : Nat)

/-- A fixed-point number as a sign and a quotient. -/
def fxQuot (x : Int) : Bool × Nat × Nat := (decide (x < 0), x.natAbs, fxOne)

/-- sin or cos of x = n/d ≥ 0. -/
def trigVal (cos : Bool) (n d : Nat) : Bool × Nat × Nat :=
  if n * 2 ^ 60 < d then (if cos then (false, 2 ^ 100 - 1, 2 ^ 100) else (false, n * (2 ^ 100 - 1), d * 2 ^ 100))
  else
    let x := max 1 (n * fxOne / d)
    let q := 2 * x / fxPi
    let r := (2 * x - q * fxPi) / 2
    let useCos := (q % 2 == 1) != cos
    let v := if useCos then trigTerms r 60 0 false fxOne else trigTerms r 60 1 false r
    let flip := if cos then (q + 1) / 2 % 2 == 1 else q / 2 % 2 == 1
    fxQuot (if flip then -v else v)

/-- Just below 1. -/
def nearOne : Nat × Nat := (2 ^ 80 - 1, 2 ^ 80)

/-- 1/(1 + e⁻ˣ). -/
def sigVal (neg : Bool) (n d : Nat) : Nat × Nat :=
  if neg = false ∧ 60 * d < n then nearOne
  else let e := expVal (!neg) n d; (e.2, e.2 + e.1)

/-- tanh x for x ≥ 0. -/
def tanhVal (n d : Nat) : Nat × Nat :=
  if 30 * d < n then nearOne
  else if n * 2 ^ 60 < d then (n * (2 ^ 100 - 1), d * 2 ^ 100)
  else let e := expVal true (2 * n) d; (e.2 - e.1, e.2 + e.1)

/-! ## The functions -/

/-- The value of a function at an argument: one that the table of R212 or the exact cases of R211 fix, one known closely, one that the
spec does not state. -/
inductive SVal where
  | exact (v : Val)
  | mag (neg : Bool) (m : Mag) (ulp : Nat)
  | near (neg : Bool) (n d : Nat) (ulp : Nat)
  | unstated
  deriving DecidableEq, Repr

def nearOf (p : Nat × Nat) (ulp : Nat) : SVal := .near false p.1 p.2 ulp

/-- |x| beyond 2²⁰ · π. -/
def beyond (n d : Nat) : Bool := decide (2 ^ 20 * fxPi * d < n * fxOne)

/-- The functions at a finite non-zero argument. -/
def special (f : SFn) (neg : Bool) (n d : Nat) : SVal × Flags :=
  match f with
  | .exp2 =>
    if n % d = 0 then
      let k := min (n / d) 2000
      (.mag false (Mag.dyad 1 (if neg then -(k : Int) else k)) 1, 0)
    else (nearOf (exp2Val neg n d) 1, 0)
  | .exp => (nearOf (expVal neg n d) 2, 0)
  | .log2 =>
    if neg then (.exact .nan, fINV)
    else
      let e := ratLog2 n d
      let p := scaleDown n d e
      if p.1 = p.2 then (.exact (Val.ofInt e), 0)
      else
        let l := lnVal n d
        (.near (decide (l < 0)) l.natAbs fxLn2 1, 0)
  | .log =>
    if neg then (.exact .nan, fINV) else if n = d then (.exact (.fin false 0 1), 0)
    else let q := fxQuot (lnVal n d); (.near q.1 q.2.1 q.2.2 2, 0)
  | .sin => if beyond n d then (.exact .nan, fRANGE) else let q := trigVal false n d; (.near (q.1 != neg) q.2.1 q.2.2 2, 0)
  | .cos => if beyond n d then (.exact .nan, fRANGE) else let q := trigVal true n d; (.near q.1 q.2.1 q.2.2 2, 0)
  | .rcp => (.mag neg (.rat d n) 1, 0)
  | .rsqrt => if neg then (.exact .nan, fINV) else (.mag false (.sqrt d n) 1, 0)
  | .sig => (nearOf (sigVal neg n d) 2, 0)
  | .tanh => let q := tanhVal n d; (.near neg q.1 q.2 2, 0)

/-- The functions at a zero (R211, R212). -/
def specialZero (f : SFn) (neg : Bool) : Val :=
  match f with
  | .exp2 => .fin false 1 1 | .exp => .fin false 1 1 | .cos => .fin false 1 1
  | .log2 => .inf true | .log => .inf true
  | .rcp => .inf neg | .rsqrt => .inf neg
  | .sig => .fin false 1 2
  | .sin => .fin neg 0 1 | .tanh => .fin neg 0 1

/-- The functions at an infinity (R212). The table gives no result of VLOG2, VLOG and VRSQRT at +∞ (log entry 9). -/
def specialInf (f : SFn) (neg : Bool) : SVal × Flags :=
  match f with
  | .sin => (.exact .nan, fINV) | .cos => (.exact .nan, fINV)
  | .exp2 => (.exact (if neg then .fin false 0 1 else .inf false), 0)
  | .exp => (.exact (if neg then .fin false 0 1 else .inf false), 0)
  | .sig => (.exact (if neg then .fin false 0 1 else .fin false 1 1), 0)
  | .tanh => (.exact (.fin neg 1 1), 0)
  | .rcp => (.exact (.fin neg 0 1), 0)
  | .log2 => if neg then (.exact .nan, fINV) else (.unstated, 0)
  | .log => if neg then (.exact .nan, fINV) else (.unstated, 0)
  | .rsqrt => if neg then (.exact .nan, fINV) else (.unstated, 0)

/-- The value of a function. -/
def specialOf (f : SFn) : Val → SVal × Flags
  | .nan => (.exact .nan, 0)
  | .inf neg => specialInf f neg
  | .fin neg n d => if n = 0 then (.exact (specialZero f neg), 0) else special f neg n d

/-- Whether a function is monotone where its argument lies (R211). -/
def monoAt (f : SFn) (neg : Bool) (n d : Nat) : Bool :=
  match f with
  | .sin => decide (2 * n * fxOne ≤ fxPi * d)
  | .cos => !neg && decide (n * fxOne ≤ fxPi * d)
  | _ => true

/-- A lower bound of a result that an exact result sets: e⁰ = 1 and VSIG(0) = 0.5 (R211). `one` is the number of 1 in the format. -/
def floorAt (f : SFn) (neg : Bool) (one fb : Nat) : Nat :=
  match f with
  | .exp => if neg then 0 else one
  | .sig => if neg then 0 else one - 2 ^ fb
  | _ => 0

/-- The rounding modes by number. -/
def RM.no : RM → Nat
  | .rne => 0 | .rtz => 1 | .rdn => 2 | .rup => 3 | .rna => 4 | .sr .. => 5

/-- What the free choice may depend on beside the place of the exact value: the unit, the rounding mode, the sign of the result, and outside the
monotone domains the argument. VTANH is odd exactly. -/
def choiceKey (fabric : Bool) (f : SFn) (mode : RM) (neg : Bool) (arg : Option Nat) : Nat :=
  fabric.toNat + 2 * mode.no + 16 * (neg && f != .tanh).toNat + 32 * (match arg with | some a => a + 1 | none => 0)

/-- The number that a special function returns for an exact value between the numbers `c` and `c + 1` of a format: within `ulp`, free, and never
falling as the exact value rises (R211). `θ` gives the steps of each interval; `reach` says whether the exact value has reached one; a power of
two is a multiple of 2^fb, above which the ulp doubles. -/
def chosen (θ : Nat → Nat → Nat × Nat) (reach : Nat × Nat → Bool) (fb ulp floor c : Nat) : Nat :=
  let steps := List.range (2 * ulp - 1)
  let top (k : Nat) : Nat := if (k + 1) % 2 ^ fb = 0 ∧ 2 * 2 ^ fb ≤ k + 1 then k + 1 else k + ulp
  let put (k n : Nat) : Nat := min (top k) (k + n + 1 - ulp)
  let last (k : Nat) : Nat := put k (steps.filter fun i => decide ((θ k i).1 ≤ (θ k i).2)).length
  [1, 2].foldl (fun r j => if j ≤ c then max r (last (c - j)) else r) (max floor (put c (steps.filter fun i => reach (θ c i)).length))

/-- Whether a magnitude has reached a step of the interval that it lies in. -/
def Mag.stepped (m : Mag) (q : Int) (t : Nat × Nat) : Bool := m.reaches q (m.floorAt q * (t.2 + 1) + t.1) (t.2 + 1)

/-- A result of a format within `ulp` of a magnitude that is no number of it. -/
def FF.within (f : FF) (mode : RM) (neg : Bool) (m : Mag) (ulp floor : Nat) (θ : Nat → Nat → Nat × Nat) : Nat × Flags :=
  let lo := f.round .rtz false m
  let q : Int := (if m.log2 < f.emin then f.emin else m.log2) - f.fb
  let c := chosen θ (m.stepped q) f.fb ulp floor lo.1
  if lo.2 &&& fOFL = fOFL ∨ f.top < c then f.overflow mode neg
  else (f.signed neg c, fINX ||| flagIf (decide (c < 2 ^ f.fb)) fUFL)

/-- The FP32 result of a special function: code and flags; `arg` is the argument. A free result is a number or the default NaN (R53). -/
def special32 (f : SFn) (mode : RM) (arg : Nat) (v : Val) : Nat × Flags :=
  let g := FF.fp32
  let r := specialOf f v
  let free (neg : Bool) (m : Mag) (ulp : Nat) : Nat × Flags :=
    let mono := match v with | .fin s n d => monoAt f s n d | _ => true
    g.within mode neg m ulp (floorAt f v.neg (127 * 2 ^ 23) 23) (Config.ulps f (choiceKey false f mode neg (if mono then none else some arg)))
  match r.1 with
  | .exact x => let c := g.ofVal mode x; (c.1, c.2 ||| r.2)
  | .mag neg m ulp =>
    let c := g.round mode neg m
    if c.2 &&& fINX = 0 then (c.1, c.2 ||| r.2) else free neg m ulp
  | .near neg n d ulp => free neg (.rat n d) ulp
  | .unstated => let x := g.value (Config.openWord f).toNat; ((g.ofVal .rne x).1, fINX ||| invOf x [v])

end Sys2Proof.Machine
end

