-- ==== Sys2Proof/Machine/Vector.lean ====
section
/-! DEFINITION. The vector instructions (R199 to R212, R216, R217): elements and their types, lane groups and predicates, arithmetic,
comparison, moves, reductions, special functions, VREFILL, and the memory forms. -/

namespace Sys2Proof.Machine

/-! ## Elements and types (R199) -/

/-- The type of an element. -/
inductive ETy where
  | sint | uint
  | flt (f : FF)
  deriving DecidableEq, Repr

/-- The element width w. -/
def Bank.ew (b : Bank) : Nat := match fld b.vcfg 0 2 with | 0 => 8 | 1 => 16 | _ => 32
/-- The element type. -/
def Bank.ety (b : Bank) : ETy :=
  match fld b.vcfg 2 2 with
  | 0 => .sint | 1 => .uint
  | 2 => .flt (if b.ew = 32 then FF.fp32 else FF.fp16)
  | _ => .flt FF.bf16
def Bank.satm (b : Bank) : Bool := fld b.vcfg 5 1 == 1
/-- The number of lane groups, and the elements of one. -/
def Bank.groups (b : Bank) : Nat := match fld b.vcfg 6 2 with | 0 => 1 | 1 => 2 | _ => 4
def Bank.perGroup (b : Bank) : Nat := 256 / b.groups / b.ew

def ETy.isInt : ETy → Bool | .flt _ => false | _ => true

/-! ## Which elements are written (R203, R204) -/

/-- Lane-group masking is on while a group that VCFG.LGS makes has ACT or FIN set (R94, R203; log entry 21). -/
def Bank.masking (b : Bank) : Bool := fld b.lgact 0 b.groups != 0 || fld b.lgact 4 b.groups != 0
def Bank.active (b : Bank) (g : Nat) : Bool := b.lgact.getLsbD g
def Bank.len (b : Bank) (g : Nat) : Nat := fld b.lglen (16 * g) 16

/-- Whether element j is live. -/
def Bank.live (b : Bank) (j : Nat) : Bool :=
  !b.masking || (b.active (j / b.perGroup) && decide (j % b.perGroup < b.len (j / b.perGroup)))

/-- Whether element j is written under predicate p. -/
def Bank.writes (b : Bank) (p : PReg) (j : Nat) : Bool := b.live j && (b.getP p).getLsbD (j * b.ew / 8)

/-- The end of an instruction that computes element j by `f` where R204 writes it. -/
def State.elements (s : State) (b : Bank) (p : PReg) (vd : VReg) (f : Nat → El) : Out :=
  s.commit b vd b.ew ((List.range (256 / b.ew)).map fun j => if b.writes p j then some (f j) else none)

/-! ## Operands (R201) -/

/-- The second operand: a vector, a scalar register, an immediate. -/
inductive VOperand where
  | v (r : VReg)
  | x (r : Reg)
  | i (imm : BitVec 5)
  deriving DecidableEq, Repr

/-- An immediate in the element type. -/
def immElem (ty : ETy) (w : Nat) (imm : BitVec 5) : Nat :=
  match ty with
  | .flt f => (f.ofVal .rne (Val.ofInt imm.toInt)).1
  | _ => lowBits w imm.toInt

/-- The second operand read: the bank after a pop, and bits and poison of element j. -/
def Bank.operand (b : Bank) (o : VOperand) : Bank × (Nat → Nat × Bool) :=
  match o with
  | .v r => let q := b.readV r; (q.1, fun j => (elem q.2.1 b.ew j, elemPois q.2.2 b.ew j))
  | .x r => (b, fun _ => (fld (b.getX r) 0 b.ew, b.poisX r))
  | .i imm => (b, fun _ => (immElem b.ety b.ew imm, false))

/-! ## Element operations (R202, R207) -/

inductive VOp where
  | add | sub | mul | fma | fms | min | max | abs | neg | and | or | xor | shl | shr | sra
  deriving DecidableEq, Repr

/-- An integer fitted to w bits (R202). -/
def fit (ty : ETy) (w : Nat) (sat : Bool) (i : Int) : Nat × Flags :=
  if sat then
    let lo : Int := if ty = .uint then 0 else -(2 ^ (w - 1))
    let hi : Int := if ty = .uint then 2 ^ w - 1 else 2 ^ (w - 1) - 1
    if i < lo then (lowBits w lo, fSAT) else if hi < i then (lowBits w hi, fSAT) else (lowBits w i, 0)
  else (lowBits w i, 0)

/-- The integer that an element holds. -/
def intOf (ty : ETy) (w : Nat) (a : Nat) : Int := if ty = .uint then (a : Int) else sextNat w a

/-- The bitwise operations and shifts, the same in every type. -/
def bitOp (op : VOp) (w a b : Nat) : Option Nat :=
  match op with
  | .and => some (a &&& b)
  | .or => some (a ||| b)
  | .xor => some (a ^^^ b)
  | .shl => some (if w ≤ b then 0 else a * 2 ^ b % 2 ^ w)
  | .shr => some (if w ≤ b then 0 else a / 2 ^ b)
  | .sra => some (lowBits w (Int.fdiv (sextNat w a) (2 ^ (if w ≤ b then w - 1 else b))))
  | _ => none

/-- The smaller or larger of two values, −0 below +0 (R207): whether the first is taken. -/
def firstOf (max : Bool) (a b : Val) : Bool :=
  let below (x y : Val) : Bool := decide (x.cmp y < 0) || (x.isZero && y.isZero && x.neg && !y.neg)
  if max then !below a b else !below b a

/-- MAX and MIN of a float format. -/
def fltPick (f : FF) (max : Bool) (a b : Nat) : Nat :=
  let x := f.value a
  let y := f.value b
  if x.isNan then (if y.isNan then f.nan else b) else if y.isNan then a else if firstOf max x y then a else b

/-- One element of an integer type. -/
def intOp (op : VOp) (ty : ETy) (w : Nat) (sat : Bool) (a b c : Int) : Nat × Flags :=
  match op with
  | .add => fit ty w sat (a + b)
  | .sub => fit ty w sat (a - b)
  | .mul => fit ty w sat (a * b)
  | .fma => fit ty w sat (c + a * b)
  | .fms => fit ty w sat (c - a * b)
  | .min => (lowBits w (if b < a then b else a), 0)
  | .max => (lowBits w (if a < b then b else a), 0)
  | .abs => fit ty w sat (if ty = .uint then a else a.natAbs)
  | .neg => fit ty w sat (-a)
  | _ => (0, 0)

/-- One element of a float type. -/
def fltOp (op : VOp) (f : FF) (mode : RM) (a b c : Nat) : Nat × Flags :=
  let x := f.value a
  let y := f.value b
  let z := f.value c
  match op with
  | .add => f.result mode (x.add mode y) [x, y]
  | .sub => f.result mode (x.add mode y.negate) [x, y]
  | .mul => f.result mode (x.mul y) [x, y]
  | .fma => f.result mode (x.fma mode y z) [x, y, z]
  | .fms => f.result mode (x.negate.fma mode y z) [x, y, z]
  | .min => (fltPick f false a b, 0)
  | .max => (fltPick f true a b, 0)
  | .abs => (if x.isNan then f.nan else a % 2 ^ (f.eb + f.fb), 0)
  | .neg => (if x.isNan then f.nan else f.signed (!x.neg) (a % 2 ^ (f.eb + f.fb)), 0)
  | _ => (0, 0)

/-- One element (R207). -/
def elemOp (op : VOp) (bk : Bank) (a b c : Nat) : Nat × Flags :=
  match bitOp op bk.ew a b with
  | some r => (r, 0)
  | none =>
    match bk.ety with
    | .flt f => fltOp op f bk.mode a b c
    | ty => intOp op ty bk.ew bk.satm (intOf ty bk.ew a) (intOf ty bk.ew b) (intOf ty bk.ew c)

/-- VADD to VSRA (R207). `third` says that vd is a source. -/
def arith (op : VOp) (third : Bool) (p : PReg) (vs1 : VReg) (o : VOperand) (vd : VReg) (s : State) : Out :=
  let r := s.b.readV vs1
  let q := r.1.operand o
  let c := s.b.getV vd
  let cp := s.b.poisV vd
  let w := s.b.ew
  s.elements q.1 p vd fun j =>
    let x := elemOp op s.b (elem r.2.1 w j) (q.2 j).1 (elem c w j)
    ⟨x.1, x.2, elemPois r.2.2 w j || (q.2 j).2 || (third && elemPois cp w j)⟩

/-- VABS and VNEG. -/
def arith1 (op : VOp) (p : PReg) (vs1 vd : VReg) (s : State) : Out := arith op false p vs1 (.i 0) vd s

/-- VADD, vector form (R207). -/
def execVaddVV (p : PReg) (vs2 vs1 vd : VReg) (s : State) : Out := arith .add false p vs1 (.v vs2) vd s
/-- VADD, scalar form (R207). -/
def execVaddVX (p : PReg) (rs2 : Reg) (vs1 vd : VReg) (s : State) : Out := arith .add false p vs1 (.x rs2) vd s
/-- VADD, immediate form (R207). -/
def execVaddVI (p : PReg) (imm : BitVec 5) (vs1 vd : VReg) (s : State) : Out := arith .add false p vs1 (.i imm) vd s
/-- VSUB, vector form (R207). -/
def execVsubVV (p : PReg) (vs2 vs1 vd : VReg) (s : State) : Out := arith .sub false p vs1 (.v vs2) vd s
/-- VSUB, scalar form (R207). -/
def execVsubVX (p : PReg) (rs2 : Reg) (vs1 vd : VReg) (s : State) : Out := arith .sub false p vs1 (.x rs2) vd s
/-- VSUB, immediate form (R207). -/
def execVsubVI (p : PReg) (imm : BitVec 5) (vs1 vd : VReg) (s : State) : Out := arith .sub false p vs1 (.i imm) vd s
/-- VMUL, vector form (R207). -/
def execVmulVV (p : PReg) (vs2 vs1 vd : VReg) (s : State) : Out := arith .mul false p vs1 (.v vs2) vd s
/-- VMUL, scalar form (R207). -/
def execVmulVX (p : PReg) (rs2 : Reg) (vs1 vd : VReg) (s : State) : Out := arith .mul false p vs1 (.x rs2) vd s
/-- VMUL, immediate form (R207). -/
def execVmulVI (p : PReg) (imm : BitVec 5) (vs1 vd : VReg) (s : State) : Out := arith .mul false p vs1 (.i imm) vd s
/-- VMIN, vector form (R207). -/
def execVminVV (p : PReg) (vs2 vs1 vd : VReg) (s : State) : Out := arith .min false p vs1 (.v vs2) vd s
/-- VMIN, scalar form (R207). -/
def execVminVX (p : PReg) (rs2 : Reg) (vs1 vd : VReg) (s : State) : Out := arith .min false p vs1 (.x rs2) vd s
/-- VMIN, immediate form (R207). -/
def execVminVI (p : PReg) (imm : BitVec 5) (vs1 vd : VReg) (s : State) : Out := arith .min false p vs1 (.i imm) vd s
/-- VMAX, vector form (R207). -/
def execVmaxVV (p : PReg) (vs2 vs1 vd : VReg) (s : State) : Out := arith .max false p vs1 (.v vs2) vd s
/-- VMAX, scalar form (R207). -/
def execVmaxVX (p : PReg) (rs2 : Reg) (vs1 vd : VReg) (s : State) : Out := arith .max false p vs1 (.x rs2) vd s
/-- VMAX, immediate form (R207). -/
def execVmaxVI (p : PReg) (imm : BitVec 5) (vs1 vd : VReg) (s : State) : Out := arith .max false p vs1 (.i imm) vd s
/-- VAND, vector form (R207). -/
def execVandVV (p : PReg) (vs2 vs1 vd : VReg) (s : State) : Out := arith .and false p vs1 (.v vs2) vd s
/-- VAND, scalar form (R207). -/
def execVandVX (p : PReg) (rs2 : Reg) (vs1 vd : VReg) (s : State) : Out := arith .and false p vs1 (.x rs2) vd s
/-- VAND, immediate form (R207). -/
def execVandVI (p : PReg) (imm : BitVec 5) (vs1 vd : VReg) (s : State) : Out := arith .and false p vs1 (.i imm) vd s
/-- VOR, vector form (R207). -/
def execVorVV (p : PReg) (vs2 vs1 vd : VReg) (s : State) : Out := arith .or false p vs1 (.v vs2) vd s
/-- VOR, scalar form (R207). -/
def execVorVX (p : PReg) (rs2 : Reg) (vs1 vd : VReg) (s : State) : Out := arith .or false p vs1 (.x rs2) vd s
/-- VOR, immediate form (R207). -/
def execVorVI (p : PReg) (imm : BitVec 5) (vs1 vd : VReg) (s : State) : Out := arith .or false p vs1 (.i imm) vd s
/-- VXOR, vector form (R207). -/
def execVxorVV (p : PReg) (vs2 vs1 vd : VReg) (s : State) : Out := arith .xor false p vs1 (.v vs2) vd s
/-- VXOR, scalar form (R207). -/
def execVxorVX (p : PReg) (rs2 : Reg) (vs1 vd : VReg) (s : State) : Out := arith .xor false p vs1 (.x rs2) vd s
/-- VXOR, immediate form (R207). -/
def execVxorVI (p : PReg) (imm : BitVec 5) (vs1 vd : VReg) (s : State) : Out := arith .xor false p vs1 (.i imm) vd s
/-- VSHL, vector form (R207). -/
def execVshlVV (p : PReg) (vs2 vs1 vd : VReg) (s : State) : Out := arith .shl false p vs1 (.v vs2) vd s
/-- VSHL, scalar form (R207). -/
def execVshlVX (p : PReg) (rs2 : Reg) (vs1 vd : VReg) (s : State) : Out := arith .shl false p vs1 (.x rs2) vd s
/-- VSHL, immediate form (R207). -/
def execVshlVI (p : PReg) (imm : BitVec 5) (vs1 vd : VReg) (s : State) : Out := arith .shl false p vs1 (.i imm) vd s
/-- VSHR, vector form (R207). -/
def execVshrVV (p : PReg) (vs2 vs1 vd : VReg) (s : State) : Out := arith .shr false p vs1 (.v vs2) vd s
/-- VSHR, scalar form (R207). -/
def execVshrVX (p : PReg) (rs2 : Reg) (vs1 vd : VReg) (s : State) : Out := arith .shr false p vs1 (.x rs2) vd s
/-- VSHR, immediate form (R207). -/
def execVshrVI (p : PReg) (imm : BitVec 5) (vs1 vd : VReg) (s : State) : Out := arith .shr false p vs1 (.i imm) vd s
/-- VSRA, vector form (R207). -/
def execVsraVV (p : PReg) (vs2 vs1 vd : VReg) (s : State) : Out := arith .sra false p vs1 (.v vs2) vd s
/-- VSRA, scalar form (R207). -/
def execVsraVX (p : PReg) (rs2 : Reg) (vs1 vd : VReg) (s : State) : Out := arith .sra false p vs1 (.x rs2) vd s
/-- VSRA, immediate form (R207). -/
def execVsraVI (p : PReg) (imm : BitVec 5) (vs1 vd : VReg) (s : State) : Out := arith .sra false p vs1 (.i imm) vd s
/-- VFMA (R207). -/
def execVfma (p : PReg) (vs2 vs1 vd : VReg) (s : State) : Out := arith .fma true p vs1 (.v vs2) vd s
/-- VFMS (R207). -/
def execVfms (p : PReg) (vs2 vs1 vd : VReg) (s : State) : Out := arith .fms true p vs1 (.v vs2) vd s
/-- VABS (R207). -/
def execVabs (p : PReg) (vs1 vd : VReg) (s : State) : Out := arith1 .abs p vs1 vd s
/-- VNEG (R207). -/
def execVneg (p : PReg) (vs1 vd : VReg) (s : State) : Out := arith1 .neg p vs1 vd s

/-! ## Comparison (R208) -/

/-- A condition on the order of two values, −1, 0 or 1. -/
def ordCond (cc : Cond) (o : Int) : Bool :=
  match cc with
  | .eq => o == 0 | .ne => o != 0 | .lt => decide (o < 0) | .le => decide (o ≤ 0) | .gt => decide (0 < o) | .ge => decide (0 ≤ o)
  | .ltu => decide (o < 0) | .leu => decide (o ≤ 0) | .gtu => decide (0 < o) | .geu => decide (0 ≤ o)
  | .unord => false | .ord => true

def ordInt (a b : Int) : Int := if a < b then -1 else if a = b then 0 else 1

def Cond.unsigned : Cond → Bool | .ltu => true | .leu => true | .gtu => true | .geu => true | _ => false

/-- cond(a, b) of R208. -/
def condOf (cc : Cond) (ty : ETy) (w a b : Nat) : Bool :=
  if Cond.unsigned cc then ordCond cc (ordInt a b)
  else match ty with
    | .flt f =>
      let x := f.value a
      let y := f.value b
      if x.isNan || y.isNan then cc == .ne || cc == .unord else ordCond cc (x.cmp y)
    | ty => ordCond cc (ordInt (intOf ty w a) (intOf ty w b))

/-- VCMP (R208): a poisoned element gives zeros and sets CHKI.PSN; a mismatch sets CHK (R200). -/
def compare (pd : PReg) (vs1 : VReg) (o : VOperand) (cc : Cond) (s : State) : Out :=
  let r := s.b.readV vs1
  let q := r.1.operand o
  let b := s.b
  let w := b.ew
  let js := (List.range (256 / w)).filter b.live
  let bad (j : Nat) : Bool := elemPois r.2.2 w j || (q.2 j).2
  let bits := js.foldl (fun a j => if !bad j && condOf cc b.ety w (elem r.2.1 w j) (q.2 j).1 then a + (2 ^ (w / 8) - 1) * 2 ^ (w / 8 * j) else a) 0
  let hit := js != [] && s.badMishap
  let s := if js = [] then s else s.takeMishap
  let b := (q.1.setP pd (w32 bits)).psnIf (js.any bad) 2
  .next (s.putB (if hit then b.markChk 2 else b).advance)

/-- VCMP, vector form (R208). -/
def execVcmpVV (pd : PReg) (vs2 vs1 : VReg) (cc : Cond) (s : State) : Out := compare pd vs1 (.v vs2) cc s
/-- VCMP, scalar form (R208). -/
def execVcmpVX (pd : PReg) (rs2 : Reg) (vs1 : VReg) (cc : Cond) (s : State) : Out := compare pd vs1 (.x rs2) cc s
/-- VCMP, immediate form (R208). -/
def execVcmpVI (pd : PReg) (imm : BitVec 5) (vs1 : VReg) (cc : Cond) (s : State) : Out := compare pd vs1 (.i imm) cc s

/-! ## Moves (R209) -/

/-- VSEL (R209): each byte of a live element from vs1 or vs2; an element's poison comes from those of which it takes a byte. -/
def execVsel (p : PReg) (vs2 vs1 vd : VReg) (s : State) : Out :=
  let r := s.b.readV vs1
  let q := r.1.readV vs2
  let b := s.b
  let w := b.ew
  let m := b.getP p
  s.commit q.1 vd w ((List.range (256 / w)).map fun j =>
    if b.live j then
      let ks := (List.range (w / 8)).map fun k => w / 8 * j + k
      some ⟨pack 8 (ks.map fun k => if m.getLsbD k then elem r.2.1 8 k else elem q.2.1 8 k), 0,
        (ks.any (fun k => m.getLsbD k) && elemPois r.2.2 w j) || (ks.any (fun k => !m.getLsbD k) && elemPois q.2.2 w j)⟩
    else none)

/-- VPERM (R209). -/
def execVperm (p : PReg) (vs2 vs1 vd : VReg) (s : State) : Out :=
  let r := s.b.readV vs1
  let q := r.1.readV vs2
  let w := s.b.ew
  s.elements q.1 p vd fun j =>
    let i := elem q.2.1 w j % (256 / w)
    ⟨elem r.2.1 w i, 0, elemPois r.2.2 w i || elemPois q.2.2 w j⟩

/-- VBCAST (R209). -/
def broadcast (p : PReg) (o : VOperand) (vd : VReg) (s : State) : Out :=
  let q := s.b.operand o
  s.elements q.1 p vd fun j => ⟨(q.2 j).1, 0, (q.2 j).2⟩

/-- VBCAST of a scalar (R209). -/
def execVbcastX (p : PReg) (rs2 : Reg) (vd : VReg) (s : State) : Out := broadcast p (.x rs2) vd s
/-- VBCAST of an immediate (R209). -/
def execVbcastI (p : PReg) (imm : BitVec 5) (vd : VReg) (s : State) : Out := broadcast p (.i imm) vd s

/-- VMOVX (R209): the lane that moves the doubleword is checked as every lane is (R200). -/
def execVmovx (rd : Reg) (vs1 : VReg) (k : Fin 4) (s : State) : Out :=
  let r := s.b.readV vs1
  let hit := s.badMishap
  let s := s.takeMishap
  let b := r.1.setX rd (dwOf r.2.1 k) (hit || r.2.2.getLsbD (2 * k) || r.2.2.getLsbD (2 * k + 1))
  .next (s.putB (if hit then b.markChk 2 else b).advance)

/-! ## Reductions (R210) -/

/-- The identity of a reduction. -/
def redIdentity (op : VOp) (ty : ETy) (w : Nat) : Nat :=
  match op with
  | .add => 0
  | .max => (match ty with | .sint => 2 ^ (w - 1) | .uint => 0 | .flt f => f.signed true (f.top + 1))
  | _ => (match ty with | .sint => 2 ^ (w - 1) - 1 | .uint => 2 ^ w - 1 | .flt f => f.top + 1)

/-- The contributors of a group combined in increasing order; VREDADD takes the first as it is. -/
def reduceList (op : VOp) (b : Bank) (xs : List Nat) : Nat × Flags :=
  let id_ := redIdentity op b.ety b.ew
  match op, xs with
  | .add, x :: t => t.foldl (fun a e => let r := elemOp .add b a.1 e 0; (r.1, a.2 ||| r.2)) (x, 0)
  | _, xs => xs.foldl (fun a e => let r := elemOp op b a.1 e 0; (r.1, a.2 ||| r.2)) (id_, 0)

/-- A NaN result is the default NaN (R202). -/
def canonNan (ty : ETy) (a : Nat) : Nat := match ty with | .flt f => if (f.value a).isNan then f.nan else a | _ => a

/-- VREDADD, VREDMAX and VREDMIN (R210). -/
def reduce (op : VOp) (p : PReg) (vs1 vd : VReg) (s : State) : Out :=
  let r := s.b.readV vs1
  let b := s.b
  let w := b.ew
  let m := b.perGroup
  let res (g : Nat) : El :=
    let js := ((List.range m).map fun i => g * m + i).filter (b.writes p)
    let x := reduceList op b (js.map fun j => elem r.2.1 w j)
    ⟨canonNan b.ety x.1, x.2, js.any fun j => elemPois r.2.2 w j⟩
  let els := (List.range (256 / w)).map fun j =>
    if b.masking && !b.active (j / m) then none else if j % m = 0 then some (res (j / m)) else some ⟨0, 0, false⟩
  s.commitLanes r.1 vd w ((written els).filter fun j => j % m == 0) els

/-- VREDADD (R210). -/
def execVredadd (p : PReg) (vs1 vd : VReg) (s : State) : Out := reduce .add p vs1 vd s
/-- VREDMAX (R210). -/
def execVredmax (p : PReg) (vs1 vd : VReg) (s : State) : Out := reduce .max p vs1 vd s
/-- VREDMIN (R210). -/
def execVredmin (p : PReg) (vs1 vd : VReg) (s : State) : Out := reduce .min p vs1 vd s

/-! ## Special functions (R211, R212) -/

/-- One element of a special function: an FP32 result, then rounded to FP16 or BF16. -/
def specialElem (f : SFn) (g : FF) (mode : RM) (a : Nat) : Nat × Flags :=
  let r := special32 f mode (a + 2 ^ 32 * g.fb) (g.value a)
  if g = FF.fp32 then r else let c := g.ofVal mode (FF.fp32.value r.1); (c.1, c.2 ||| r.2)

/-- A special function: ILLEGAL in an integer type (R205). -/
def specialOp (i : Instr) (f : SFn) (p : PReg) (vs1 vd : VReg) (s : State) : Out :=
  match s.b.ety with
  | .flt g =>
    let r := s.b.readV vs1
    let w := s.b.ew
    s.elements r.1 p vd fun j => let x := specialElem f g s.b.mode (elem r.2.1 w j); ⟨x.1, x.2, elemPois r.2.2 w j⟩
  | _ => .next (illegal s i)

/-- VEXP2 (R211). -/
def execVexp2 (p : PReg) (vs1 vd : VReg) (s : State) : Out := specialOp (.vexp2 p vs1 vd) .exp2 p vs1 vd s
/-- VLOG2 (R211). -/
def execVlog2 (p : PReg) (vs1 vd : VReg) (s : State) : Out := specialOp (.vlog2 p vs1 vd) .log2 p vs1 vd s
/-- VEXP (R211). -/
def execVexp (p : PReg) (vs1 vd : VReg) (s : State) : Out := specialOp (.vexp p vs1 vd) .exp p vs1 vd s
/-- VLOG (R211). -/
def execVlog (p : PReg) (vs1 vd : VReg) (s : State) : Out := specialOp (.vlog p vs1 vd) .log p vs1 vd s
/-- VSIN (R211). -/
def execVsin (p : PReg) (vs1 vd : VReg) (s : State) : Out := specialOp (.vsin p vs1 vd) .sin p vs1 vd s
/-- VCOS (R211). -/
def execVcos (p : PReg) (vs1 vd : VReg) (s : State) : Out := specialOp (.vcos p vs1 vd) .cos p vs1 vd s
/-- VRCP (R211). -/
def execVrcp (p : PReg) (vs1 vd : VReg) (s : State) : Out := specialOp (.vrcp p vs1 vd) .rcp p vs1 vd s
/-- VRSQRT (R211). -/
def execVrsqrt (p : PReg) (vs1 vd : VReg) (s : State) : Out := specialOp (.vrsqrt p vs1 vd) .rsqrt p vs1 vd s
/-- VSIG (R211). -/
def execVsig (p : PReg) (vs1 vd : VReg) (s : State) : Out := specialOp (.vsig p vs1 vd) .sig p vs1 vd s
/-- VTANH (R211). -/
def execVtanh (p : PReg) (vs1 vd : VReg) (s : State) : Out := specialOp (.vtanh p vs1 vd) .tanh p vs1 vd s

/-! ## VREFILL (R216) -/

/-- What a VREFILL has computed between groups: bank, descriptors with their poison. -/
structure Refill where
  b : Bank
  d : V256
  dp : BitVec 8
  deriving DecidableEq, Repr

/-- LEN of a group set. -/
def Bank.setLen (b : Bank) (g n : Nat) : Bank :=
  { b with lglen := (b.lglen &&& ~~~(0xFFFF#64 <<< (16 * g))) ||| w64 (n % 65536 * 2 ^ (16 * g)) }

/-- The bytes of a group set to a range, and its words clean. -/
def groupSet (v : V256) (p : BitVec 8) (n g : Nat) (r : W64) : V256 × BitVec 8 :=
  let bits := 256 / n
  let m : Nat := (2 ^ bits - 1) * 2 ^ (bits * g)
  (BitVec.ofNat 256 (v.toNat - (v.toNat &&& m) + r.toNat * 2 ^ (bits * g)),
   p &&& ~~~BitVec.ofNat 8 ((2 ^ (8 / n) - 1) * 2 ^ (8 / n * g)))

/-- One active group stepped and, when finished, refilled by one pop of the deque, before which steals may fall. -/
def refillGroup (n : Nat) (step : V256) (g : Nat) (q : State × Refill) : State × Refill :=
  let s := q.1
  let x := q.2
  if x.b.active g = false then (s, x)
  else
    let st := step.toNat / 2 ^ (256 / n * g) % 65536
    let len := x.b.len g - st
    let x := { x with b := x.b.setLen g len }
    if len ≠ 0 then (s, x)
    else
      let x := { x with b := { x.b with lgact := x.b.lgact ||| w64 (2 ^ (4 + g)) } }
      let s := s.stealsBetween
      match popTop s.jid s.dq with
      | none => (s, { x with b := { x.b with lgact := x.b.lgact &&& ~~~w64 (2 ^ g) } })
      | some (r, q) =>
        let hi := if 65535 < r.hi - r.lo then r.lo + 65535 else r.hi
        let q := if 65535 < r.hi - r.lo then q ++ [⟨hi, r.hi, s.jid⟩] else q
        let d := groupSet x.d x.dp n g (Range.word ⟨r.lo, hi, s.jid⟩)
        (s.putDq q, { b := x.b.setLen g (hi - r.lo), d := d.1, dp := d.2 })

/-- VREFILL (R216): a poisoned step word of an active group raises POISON first. -/
def execVrefill (vs2 vs1 vd : VReg) (s : State) : Out :=
  let r := s.b.readV vs1
  let q := r.1.readV vs2
  let n := s.b.groups
  if (List.range n).any fun g => s.b.active g && r.2.2.getLsbD (8 / n * g) then .next (s.trap 0x0E (w64 (32 + vs1)))
  else
    let x := (List.range n).foldl (fun x g => refillGroup n r.2.1 g x) (s, ⟨q.1, q.2.1, q.2.2⟩)
    x.1.commit x.2.b vd 32 (whole x.2.d.toNat 0 fun i => x.2.dp.getLsbD i)

/-! ## Memory (R217) -/

/-- The elements that a memory form accesses. -/
def Bank.accessed (b : Bank) (p : PReg) : List Nat := (List.range (256 / b.ew)).filter (b.writes p)

/-- The places of the elements accessed: each address checked in increasing order before any access. -/
def places (need : Need) (n kind reg : Nat) : List (Nat × W64) → State → Res (List LoadPiece)
  | [], s => .ok s []
  | (j, va) :: t, s =>
    (s.locate need va n kind reg (Nat.log2 n)).bind fun s loc => (places need n kind reg t s).bind fun s l =>
      .ok s ((j, loc, va.toNat) :: l)

/-- The writes of a vector store, each an address, a place, its bytes and their poison (R122, R217). -/
def State.storeAll (s : State) (ws : List (Nat × Nat × List Byte × Bool)) : Res Unit :=
  if ws.any fun x => s.full x.2.2.1.length (ws.map fun y => y.2.1) then .hold s
  else let id := s.accId; .ok (ws.foldl (fun s x => s.storePiece id false x.1 x.2.1 x.2.2.1 x.2.2.2) s) ()

/-- VLD (R217): one aligned read of 32 bytes, each doubleword of it one access, of which the elements accessed are written. -/
def execVld (p : PReg) (off : BitVec 4) (rs1 : Reg) (vd : VReg) (s : State) : Out :=
  let b := s.b
  let js := b.accessed p
  if js = [] then .next (s.modB Bank.advance)
  else finish ((clean s [rs1]).bind fun s _ => (checked s).bind fun s _ =>
    let va := b.getX rs1 + w64 (32 * off.toNat)
    (s.locate .read va 32 2 vd 5).bind fun s loc =>
      s.loadPieces (.v vd b.ew js) 8 id
        (((List.range 4).filter fun k => js.any fun j => b.ew * j / 64 == k).map fun k => (k, loc + 8 * k, va.toNat + 8 * k)))

/-- The writes of a VST: a doubleword whose elements are all written at once, else the elements (R86, R217). -/
def vectorWrites (w : Nat) (js : List Nat) (v : V256) (p : BitVec 8) (va loc : Nat) : List (Nat × Nat × List Byte × Bool) :=
  (List.range 4).flatMap fun k =>
    let mine := js.filter fun j => w * j / 64 == k
    if mine.length = 64 / w then [(va + 8 * k, loc + 8 * k, leBytes 8 (dwOf v k).toNat, p.getLsbD (2 * k) || p.getLsbD (2 * k + 1))]
    else mine.map fun j => (va + w / 8 * j, loc + w / 8 * j, leBytes (w / 8) (elem v w j), elemPois p w j)

/-- VST (R217). -/
def execVst (p : PReg) (off : BitVec 4) (rs1 : Reg) (vs : VReg) (s : State) : Out :=
  let b := s.b
  let js := b.accessed p
  if js = [] then .next (s.modB Bank.advance)
  else finish ((clean s [rs1]).bind fun s _ => (checked s).bind fun s _ =>
    let va := b.getX rs1 + w64 (32 * off.toNat)
    (s.locate .write va 32 3 (32 + vs) 5).bind fun s loc =>
      let q := s.b.readV vs
      (s.storeAll (vectorWrites b.ew js q.2.1 q.2.2 va.toNat loc)).bind fun s _ => .ok (s.modB fun b => { b with cursor := q.1.cursor, chki := q.1.chki }) ())

/-- The stride of VLDS and VSTS (R98). -/
def Bank.stride (b : Bank) : Int := sextNat 32 b.vstr.toNat

/-- The addresses of the strided forms. -/
def strided (b : Bank) (p : PReg) (off : BitVec 4) (rs1 : Reg) : List (Nat × W64) :=
  (b.accessed p).map fun j => (j, b.getX rs1 + w64 (32 * off.toNat) + BitVec.ofInt 64 (b.stride * j))

/-- VLDS (R217). -/
def execVlds (p : PReg) (off : BitVec 4) (rs1 : Reg) (vd : VReg) (s : State) : Out :=
  let b := s.b
  if b.accessed p = [] then .next (s.modB Bank.advance)
  else finish ((clean s [rs1]).bind fun s _ => (checked s).bind fun s _ =>
    (places .read (b.ew / 8) 2 vd (strided b p off rs1) s).bind fun s ps => s.loadPieces (.v vd b.ew (b.accessed p)) (b.ew / 8) id ps)

/-- VSTS (R217). -/
def execVsts (p : PReg) (off : BitVec 4) (rs1 : Reg) (vs : VReg) (s : State) : Out :=
  let b := s.b
  if b.accessed p = [] then .next (s.modB Bank.advance)
  else finish ((clean s [rs1]).bind fun s _ => (checked s).bind fun s _ =>
    (places .write (b.ew / 8) 3 (32 + vs) (strided b p off rs1) s).bind fun s ps =>
      let q := s.b.readV vs
      (s.storeAll (ps.map fun x => (x.2.2, x.2.1, leBytes (b.ew / 8) (elem q.2.1 b.ew x.1), elemPois q.2.2 b.ew x.1))).bind fun s _ =>
        .ok (s.modB fun b => { b with cursor := q.1.cursor, chki := q.1.chki }) ())

/-- VLDI (R217): element indices from a vector; a poisoned index of an element accessed raises POISON. -/
def execVldi (p : PReg) (vk : VReg) (rs1 : Reg) (vd : VReg) (s : State) : Out :=
  let b := s.b
  let w := b.ew
  let js := b.accessed p
  if js = [] then .next (s.modB Bank.advance)
  else
    let q := b.readV vk
    finish ((clean s [rs1]).bind fun s _ =>
      (check s (!js.any fun j => elemPois q.2.2 w j) 0x0E (w64 (32 + vk))).bind fun s _ => (checked s).bind fun s _ =>
      let addr (j : Nat) : W64 := b.getX rs1 + BitVec.ofInt 64 ((if b.ety = .uint then (elem q.2.1 w j : Int) else sextNat w (elem q.2.1 w j)) * (w / 8))
      (places .read (w / 8) 2 vd (js.map fun j => (j, addr j)) s).bind fun s ps =>
        s.loadPieces (.v vd w js) (w / 8) (fun b => { b with cursor := q.1.cursor, chki := q.1.chki }) ps)

end Sys2Proof.Machine
end

