-- ==== Sys2Proof/Machine/Pe.lean ====
section
/-! DEFINITION. The words of the fabric's processing elements (R39, R40, R271) and the operations they name (R275, R276). -/

namespace Sys2Proof.Machine

/-! ## PE words (R39) -/

/-- Bits [i+n-1:i] of a PE word. -/
def pf (w i n : Nat) : Nat := w / 2 ^ i % 2 ^ n

def peK (w : Nat) : W36 := BitVec.ofNat 36 (pf w 92 36)
def peValid (w : Nat) : Bool := pf w 91 1 == 1
def peOpc (w : Nat) : Nat := pf w 86 5
def peGm (w : Nat) : Nat := pf w 82 4
def peGv (w : Nat) : Nat := pf w 78 4
def peIr (w : Nat) : Nat := pf w 74 4
def peTe (w : Nat) : Nat := pf w 70 4
def peTv (w : Nat) : Nat := pf w 62 8
def peOs (w : Nat) : Nat := pf w 58 4
/-- SA, SB, SC for k = 0, 1, 2. -/
def peSrc (w k : Nat) : Nat := pf w (55 - 3 * k) 3
def peDq (w : Nat) : Nat := pf w 45 4
def peDm (w : Nat) : Nat := pf w 41 4
def peOt (w : Nat) : BitVec 2 := BitVec.ofNat 2 (pf w 39 2)
def peHw (w : Nat) : Bool := pf w 38 1 == 1
def peQs (w : Nat) : Nat := pf w 36 2
def peQm (w : Nat) : Nat := pf w 34 2
def peRm (w : Nat) : Nat := pf w 31 3
def peAux (w : Nat) : Nat := pf w 25 6

/-- The conditions of CMP by code (R33, R275). -/
def peCond : Nat → Option Cond
  | 0 => some .eq | 1 => some .ne | 2 => some .lt | 3 => some .le | 4 => some .gt | 5 => some .ge | 10 => some .unord | 11 => some .ord
  | _ => none

/-- Whether an operation defines an AUX value (R40, R275). -/
def peAuxOk (op aux : Nat) : Bool :=
  if op = 0x0C then (peCond aux).isSome else if op = 0x0D then decide (aux < 4) else if op = 0x0E then decide (aux < 5) else aux == 0

/-- The checks of R40, R271 and R276 on a slot. -/
def peWordOk (w : Nat) : Bool :=
  if peValid w = false then w == 0
  else
    decide (peOpc w < 0x18 ∧ peRm w < 6) && pf w 0 25 == 0 && peAuxOk (peOpc w) (peAux w) &&
    ([0, 1, 2].all fun k => peSrc w k != 7 && (decide (4 ≤ peSrc w k) || bitOf (peIr w) (peSrc w k))) &&
    ([0, 1, 2, 3].all fun i => (!bitOf (peDm w) i || bitOf (peOs w) i) && (!bitOf (peDq w) i || bitOf (peIr w) i)) &&
    (peQm w != 3 || bitOf (peDq w) 0) && (peRm w != 5 || (peOpc w == 0x0E && decide (peSrc w 2 < 4)))

/-! ## Operations (R275, R276) -/

/-- The floor of a finite value. -/
def Val.floor : Val → Option Int
  | .fin s n d => some (roundInt .rdn s (.rat n d))
  | _ => none

/-- A comparison of two values (R33). -/
def valCond (cc : Cond) (a b : Val) : Bool :=
  let un := a.isNan || b.isNan
  match cc with
  | .unord => un
  | .ord => !un
  | .ne => un || a.cmp b != 0
  | .eq => !un && a.cmp b == 0
  | .lt => !un && decide (a.cmp b < 0)
  | .le => !un && decide (a.cmp b ≤ 0)
  | .gt => !un && decide (0 < a.cmp b)
  | .ge => !un && decide (0 ≤ a.cmp b)
  | _ => false

/-- MAX and MIN under the rules of VMAX and VMIN (R207). -/
def valPick (max : Bool) (x y : Val) : Val :=
  if x.isNan then y else if y.isNan then x else if firstOf max x y then x else y

/-- A W36 magnitude as a count of representable numbers. -/
def w36Code (v : W36) : Nat := v.toNat / 2 ^ 25 % 2 ^ 10 * 2 ^ 24 + v.toNat % 2 ^ 24

/-- A W36 number within `ulp` of a magnitude that is none itself. -/
def w36Within (mode : RM) (neg : Bool) (m : Mag) (ulp floor : Nat) (θ : Nat → Nat → Nat × Nat) : W36 × Flags :=
  let lo := w36Round .rtz false m
  if lo.1 = 0 then (w36Zero neg, fUFL ||| fINX)
  else
    let c := chosen θ (m.stepped (m.log2 - 24)) 24 ulp floor (w36Code lo.1)
    if lo.2 &&& fOFL = fOFL ∨ 0x3FF * 2 ^ 24 ≤ c then w36Round mode neg (.dyad 1 600)
    else if c < 2 ^ 24 then (w36Zero neg, fUFL ||| fINX)
    else (BitVec.ofNat 36 (neg.toNat * 2 ^ 35 + c / 2 ^ 24 * 2 ^ 25 + 2 ^ 24 + c % 2 ^ 24), fINX)

/-- A special function of the fabric: the rules of R211 and R212 in W36's 25 bits (R276; log entry 9). None has an argument outside a monotone
domain here. -/
def special36 (f : SFn) (mode : RM) (v : Val) : W36 × Flags :=
  let r := specialOf f v
  let free (neg : Bool) (m : Mag) (ulp : Nat) : W36 × Flags :=
    w36Within mode neg m ulp (floorAt f v.neg (511 * 2 ^ 24) 24) (Config.ulps f (choiceKey true f mode neg none))
  match r.1 with
  | .exact x => let c := w36OfVal mode x; (c.1, c.2 ||| r.2)
  | .mag neg m ulp =>
    let c := w36Round mode neg m
    if c.2 &&& fINX = 0 then c else free neg m ulp
  | .near neg n d ulp => free neg (.rat n d) ulp
  | .unstated => let x := w36Value (Config.openW36 f); ((w36OfVal .rne x).1, fINX ||| invOf x [v])

/-- A · 2ⁿ, n = ⌊B⌋ held to ±1024. -/
def scaleVal (a b : Val) : Val :=
  match b.floor with
  | none => .nan
  | some i =>
    let n := max (-1024) (min 1024 i)
    a.mul (.dyad false 1 n)

/-- A rounded to an integral value. -/
def rintVal (mode : RM) : Val → Val
  | .fin s n d => .fin s (roundAt mode s (.rat n d) 0) 1
  | v => v

/-- Whether B − A exceeds K exactly; not where it has no value. -/
def skips (a b k : Val) : Bool :=
  let d := b.add .rne a.negate
  !d.isNan && !k.isNan && decide (0 < d.cmp k)

/-- The format of CVT. -/
def cvtFmt (aux : Nat) : FF :=
  match aux with | 0 => FF.fp32 | 1 => FF.bf16 | 2 => FF.fp16 | 3 => FF.e4m3 | _ => FF.e5m2

/-- D and its flags for a slot word, the predicates and A, B, C (R275, R276). -/
def peResult (w : Nat) (q : BitVec 4) (a b c : W36) : W36 × Flags :=
  let x := w36Value a
  let y := w36Value b
  let z := w36Value c
  let mode := if peRm w = 5 then .sr (c.toNat % 2 ^ 32) 32 else rmOf (peRm w)
  let out (v : Val) (ops : List Val) : W36 × Flags := w36Result mode v ops
  let fn (f : SFn) : W36 × Flags := special36 f mode x
  match peOpc w with
  | 0x01 => out (x.add mode y) [x, y]
  | 0x02 => out (x.add mode y.negate) [x, y]
  | 0x03 => out (x.mul y) [x, y]
  | 0x04 => out (x.fma mode y z) [x, y, z]
  | 0x05 => out (x.negate.fma mode y z) [x, y, z]
  | 0x06 => out (valPick true x y) [.nan]
  | 0x07 => out (valPick false x y) [.nan]
  | 0x08 => out x.abs [x]
  | 0x09 => out x.negate [x]
  | 0x0A => out (if x.isNan then .nan else scaleVal x y) [x, y]
  | 0x0B => let r := out (rintVal mode x) [x]; (r.1, r.2 ||| flagIf (x.isFin && (rintVal mode x).cmp x != 0) fINX)
  | 0x0C => out (if valCond ((peCond (peAux w)).getD .eq) x y then .fin false 1 1 else .fin false 0 1) []
  | 0x0D => out (if q.getLsbD (peAux w % 4) then y else x) [.nan]
  | 0x0E => let f := cvtFmt (peAux w); let r := f.ofVal mode x; ((w36OfVal .rne (f.value r.1)).1, r.2)
  | 0x10 => fn .exp2
  | 0x11 => fn .exp
  | 0x12 => fn .log2
  | 0x13 => fn .log
  | 0x14 => fn .rcp
  | 0x15 => fn .rsqrt
  | 0x16 => out (if skips x y (w36Value (peK w)) then .fin false 0 1 else .fin false 1 1) []
  | 0x17 => out (x.div y) [x, y]
  | _ => out x [.nan]

/-- The output that STEER writes, none where it discards (R276). -/
def steerTo (w : Nat) (b : W36) : Option Nat :=
  match (w36Value b).floor with
  | some i => if 0 ≤ i ∧ i ≤ 3 ∧ bitOf (peDm w) i.toNat then some i.toNat else none
  | none => none

end Sys2Proof.Machine
end

