-- ==== Sys2Proof/Machine/Fabric.lean ====
section
/-! DEFINITION. The fabric region (R268 to R289): folio images and their checks, routes, firing, edge AGUs, streams, generators, runs and
switches, and the class 2 commands (R290 to R296). -/

namespace Sys2Proof.Machine

/-! ## Folio images (R277, R283) -/

/-- The little-endian number of n bytes at an offset of an image. -/
def imNum (im : List Byte) (off n : Nat) : Nat := leNat ((im.drop off).take n)
def imDw (im : List Byte) (off : Nat) : W64 := w64 (imNum im off 8)

/-- Whether an image has a section for a PE, and how many sections lie below it. -/
def imHas (im : List Byte) (pe : Nat) : Bool := bitOf (imNum im 0 8) pe
def imBelow (im : List Byte) (pe : Nat) : Nat := ((List.range pe).filter (imHas im)).length
def imPes (im : List Byte) : List Nat := (List.range 64).filter (imHas im)
def peOff (im : List Byte) (pe : Nat) : Nat := 640 + 320 * imBelow im pe
/-- The word of a slot: 0 where the PE has no section. -/
def imSlot (im : List Byte) (pe k : Nat) : Nat := if imHas im pe then imNum im (peOff im pe + 16 * k) 16 else 0
/-- The route of an output, its delay-line field, its D and P. -/
def imOutRoute (im : List Byte) (pe o : Nat) : Nat := imNum im (peOff im pe + 256 + 8 * o) 8
def imLine (im : List Byte) (pe o : Nat) : Nat := imNum im (peOff im pe + 288 + 2 * o) 2
def lineD (f : Nat) : Nat := f % 32
def lineP (f : Nat) : Nat := f / 256 % 32
/-- The tokens that an output holds at most. -/
def imCap (im : List Byte) (pe o : Nat) : Nat := max 1 (lineD (imLine im pe o))

/-- The preloads in order: line (4·PE + output), token, and the entry itself. -/
def imNpre (im : List Byte) : Nat := imNum im 8 8
def imPreAt (im : List Byte) : Nat := 640 + 320 * (imPes im).length
def imPre (im : List Byte) : List (Nat × Token × Nat) :=
  (List.range (imNpre im)).map fun k =>
    let e := imNum im (imPreAt im + 8 * k) 8
    (4 * pf e 40 6 + pf e 46 2, ⟨BitVec.ofNat 36 e, BitVec.ofNat 2 (pf e 36 2), pf e 38 1 == 1⟩, e)

/-- A destination of a route. -/
structure Dest where
  kind : Nat
  idx : Nat
  ch : Nat
  deriving DecidableEq, Repr

/-- The four destination codes of a route, and its destinations. -/
def destCodes (r : Nat) : List Nat := (List.range 4).map fun j => pf r (16 * j) 16
def routeOf (r : Nat) : List Dest := ((destCodes r).filter fun d => bitOf d 15).map fun d => ⟨pf d 12 3, pf d 6 6, pf d 4 2⟩

/-- An edge AGU as a folio configures it. -/
structure AguCfg where
  mode : Nat
  fmt : Nat
  tagm : Nat
  rm : Nat
  ctl : Bool
  blkr : Nat
  w1 : Nat
  inner : Nat
  outer : Nat
  istr : Int
  ostr : Int
  route : Nat
  deriving DecidableEq, Repr

def aguOff (a : Nat) : Nat := 64 + 64 * a
def imAgu (im : List Byte) (a : Nat) : AguCfg :=
  let n (k : Nat) : Nat := imNum im (aguOff a + 8 * k) 8
  { mode := pf (n 0) 0 3, fmt := pf (n 0) 4 4, tagm := pf (n 0) 8 2, rm := pf (n 0) 10 3, ctl := bitOf (n 0) 13, blkr := pf (n 0) 16 16,
    w1 := n 1, inner := pf (n 2) 0 32, outer := pf (n 2) 32 32, istr := sextNat 32 (n 3), ostr := sextNat 32 (n 3 / 2 ^ 32), route := n 4 }

/-- INNER × OUTER. -/
def AguCfg.total (c : AguCfg) : Nat := c.inner * c.outer
/-- The element size of FMT. -/
def aguSize (fmt : Nat) : Nat := [4, 2, 2, 1, 1, 1, 2, 4, 8].getD fmt 1
/-- The address of element m (R278). -/
def AguCfg.addr (c : AguCfg) (m : Nat) : Nat := lowBits 64 ((c.w1 : Int) + (m / c.inner : Nat) * c.ostr + (m % c.inner : Nat) * c.istr)
/-- The receiver that DEST names: its cluster and AGU. -/
def AguCfg.destCk (c : AguCfg) : Nat := pf c.w1 0 2 * 64 + pf c.w1 2 6
def AguCfg.destAgu (c : AguCfg) : Nat := pf c.w1 8 3

/-- The trigger of a folio. -/
def trCount (im : List Byte) : Nat := pf (imNum im 16 8) 0 32
def trAgu (im : List Byte) : Nat := pf (imNum im 16 8) 32 3
def trNext (im : List Byte) : Nat := pf (imNum im 16 8) 36 2
def trCv (im : List Byte) : Bool := pf (imNum im 16 8) 38 1 == 1
def trCtr (im : List Byte) : Nat := pf (imNum im 16 8) 40 12

/-! ## The checks of FLOAD (R284) -/

/-- Bytes that must be zero. -/
def zeros (im : List Byte) (off n : Nat) : Bool := ((im.drop off).take n).all (· == 0)

/-- Whether a destination code is well formed for the PEs present. -/
def destOk (im : List Byte) (d : Nat) : Bool :=
  if bitOf d 15 = false then d == 0
  else d % 16 == 0 && (if pf d 12 3 = 0 then imHas im (pf d 6 6) else decide (pf d 12 3 < 3 ∧ pf d 4 2 = 0 ∧ pf d 6 6 < 8))

/-- Every route of an image: the AGUs', the generators', the outputs'. -/
def imRoutes (im : List Byte) : List Nat :=
  (List.range 8).map (fun a => (imAgu im a).route) ++ [imNum im 576 8, imNum im 584 8] ++
  (imPes im).flatMap fun pe => (List.range 4).map fun o => imOutRoute im pe o

/-- The checks on an AGU configuration. -/
def aguOk (im : List Byte) (a : Nat) : Bool :=
  let c := imAgu im a
  let mem := c.mode == 1 || c.mode == 2
  let z := aguSize c.fmt
  only (imDw im (aguOff a)) [(0, 3), (4, 4), (8, 2), (10, 3), (13, 1), (16, 16)] &&
  decide (c.mode < 5 ∧ c.fmt < 9 ∧ c.tagm < 2 ∧ c.rm < 6) && (c.blkr != 0) == (c.mode == 1 && c.ctl) &&
  !(c.mode == 2 && c.rm == 5 && !c.ctl) &&
  decide (c.w1 < (match c.mode with | 0 => 1 | 1 => 2 ^ 56 | 2 => 2 ^ 56 | 3 => 2 ^ 11 | _ => 2 ^ 13)) &&
  (if c.mode = 4 then (c.inner == 0) == (c.outer == 0) && decide (16 ≤ c.w1 ∧ c.w1 ≤ 4096) else c.mode == 0 || c.total != 0) &&
  (if mem then c.w1 % z == 0 && decide (c.istr % z = 0 ∧ c.ostr % z = 0) else imNum im (aguOff a + 24) 8 == 0) &&
  (c.mode == 1 || c.mode == 4 || c.route == 0) && zeros im (aguOff a + 40) 24

/-- Whether an image passes every check, for a job's counter allotment. -/
def folioOk (allot : Nat) (im : List Byte) : Bool :=
  let ds := ((imRoutes im).flatMap destCodes).filter fun d => d != 0
  let pre := imPre im
  decide (imNpre im ≤ 4096) && only (imDw im 16) [(0, 32), (32, 3), (36, 2), (38, 1), (40, 12)] && zeros im 24 40 && zeros im 592 48 &&
  ((List.range 8).all (aguOk im)) && ds.all (destOk im) && ds.eraseDups.length == ds.length &&
  ((imPes im).all fun pe =>
    ((List.range 16).all fun k => peWordOk (imSlot im pe k)) && zeros im (peOff im pe + 296) 24 &&
    (List.range 4).all fun o =>
      let f := imLine im pe o
      f % 256 < 32 && f / 256 < 32 && decide (lineD f ≤ 16 ∧ lineP f ≤ lineD f) && (pre.filter fun e => e.1 == 4 * pe + o).length == lineP f) &&
  (pre.all fun e => decide (e.2.2 < 2 ^ 48) && !bitOf e.2.2 39) &&
  imNpre im == ((imPes im).map fun pe => ((List.range 4).map fun o => lineP (imLine im pe o)).sum).sum &&
  decide ((((List.range 8).filter fun a => (imAgu im a).mode == 4).map fun a => (imAgu im a).w1).sum ≤ 4096) &&
  (trCount im == 0 || (imAgu im (trAgu im)).mode != 0) && (if trCv im then decide (trCtr im < allot) else trCtr im == 0)

/-! ## The state of a region -/

def State.frAt (s : State) (ck : Nat) : Fr := (s.clusterAt ck).fr
def State.modFr (s : State) (ck : Nat) (f : Fr → Fr) : State := s.modCluster ck fun c => { c with fr := f c.fr }
def Fr.image (f : Fr) (k : Nat) : List Byte := f.slots.get [] k
/-- A generator's state: 1 before any FSEED (R281: never 0; log entry 1). -/
def Fr.gen (f : Fr) (g : Nat) : W64 := f.gens.get 1 g
def Fr.flag (f : Fr) (x : Byte) : Fr := { f with flags := f.flags ||| x }

/-- A run at its initial state (R285). -/
def FRun.start (f : Fr) (slot maxsw sw : Nat) : FRun :=
  let im := f.image slot
  { slot := slot, maxsw := maxsw, sw := sw, chans := [],
    outs := (imPre im).foldl (fun (m : FMap (List Token)) e => m.set [] e.1 (m.get [] e.1 ++ [e.2.1])) [],
    holds := [], preds := [], agus := [], gens := [], genSt := f.gens, dead := [], quiet := none, spent := false }

def FRun.agu (x : FRun) (a : Nat) : Agu := x.agus.get Agu.init a
def FRun.modAgu (x : FRun) (a : Nat) (f : Agu → Agu) : FRun := { x with agus := x.agus.set Agu.init a (f (x.agu a)) }
def FRun.chan (x : FRun) (k : Nat) : List Token := x.chans.get [] k
def FRun.setChan (x : FRun) (k : Nat) (q : List Token) : FRun := { x with chans := x.chans.set [] k q }
def FRun.out (x : FRun) (k : Nat) : List Token := x.outs.get [] k
def FRun.setOut (x : FRun) (k : Nat) (q : List Token) : FRun := { x with outs := x.outs.set [] k q }

def State.putFRun (s : State) (ck : Nat) (x : FRun) : State := s.modFr ck fun f => { f with run := some x }
def State.modFRun (s : State) (ck : Nat) (g : FRun → FRun) : State := s.modFr ck fun f => { f with run := f.run.map g }

/-- The running folio of a cluster that is in service: its job, image and run (R289). -/
def State.frRun (s : State) (ck : Nat) : Option (Nat × List Byte × FRun) :=
  if s.engHeld ck 2 ∨ s.engGone ck 2 then none
  else match (s.frAt ck).run with
    | some x => some ((s.frAt ck).owner, (s.frAt ck).image x.slot, x)
    | none => none

/-! ## Buffers and routes (R270) -/

/-- The tokens that a destination holds. -/
def FRun.held (x : FRun) (d : Dest) : List Token :=
  if d.kind = 0 then x.chan (4 * d.idx + d.ch) else if d.kind = 1 then (x.agu d.idx).dport else (x.agu d.idx).cport
/-- Whether every destination of a route has space: 4 tokens in a channel, 8 in a port. -/
def FRun.room (x : FRun) (r : List Dest) : Bool := r.all fun d => decide ((x.held d).length < (if d.kind = 0 then 4 else 8))
/-- A token entering every destination of a route. -/
def FRun.give (x : FRun) (t : Token) (r : List Dest) : FRun :=
  r.foldl (fun x d =>
    if d.kind = 0 then x.setChan (4 * d.idx + d.ch) (x.held d ++ [t])
    else x.modAgu d.idx fun a => if d.kind = 1 then { a with dport := a.dport ++ [t] } else { a with cport := a.cport ++ [t] }) x

/-- The head tokens of an output leave while they can. -/
def flushLine (r : List Dest) (k : Nat) : Nat → FRun → FRun
  | 0, x => x
  | n + 1, x =>
    match x.out k with
    | [] => x
    | t :: q => if x.room r then flushLine r k n ((x.setOut k q).give t r) else x

def FRun.flushOuts (im : List Byte) (x : FRun) : FRun :=
  (x.outs.map Prod.fst).foldl (fun x k => flushLine (routeOf (imOutRoute im (k / 4) (k % 4))) k (x.out k).length x) x

/-- An AGU that counts toward completion (R286). -/
def AguCfg.counts (c : AguCfg) : Bool := c.mode != 0 && c.total != 0
/-- Whether the trigger's count, or completion, has been reached (R286, R388). -/
def FRun.reached (im : List Byte) (x : FRun) : Bool :=
  if trCount im ≠ 0 then decide (trCount im ≤ (x.agu (trAgu im)).moved)
  else (List.range 8).all fun a => !(imAgu im a).counts || decide ((imAgu im a).total ≤ (x.agu a).moved)
/-- Whether loads, receives and generators stand still. -/
def FRun.stopping (im : List Byte) (x : FRun) : Bool := x.quiet.isSome || x.reached im
/-- Whether an AGU has moved the token at which its count triggers (R388). -/
def FRun.atCount (im : List Byte) (x : FRun) (a : Nat) : Bool := trCount im != 0 && trAgu im == a && decide (trCount im ≤ (x.agu a).moved)

/-- The connected sender of a receive AGU (R280). -/
def State.senderOfAgu (s : State) (ck a : Nat) : Option (Nat × Nat) :=
  s.clusters.findSome? fun e => match e.2.fr.run with
    | none => none
    | some x => (List.range 8).findSome? fun b =>
      let c := imAgu (e.2.fr.image x.slot) b
      if (x.agu b).conn && c.mode == 3 && c.destCk == ck && c.destAgu == a then some (e.1, b) else none

/-- The tokens of a receive AGU's buffer accepted by its route, each with its credit. -/
def State.flushRecv (s : State) (ck a : Nat) : Nat → State
  | 0 => s
  | n + 1 =>
    match s.frRun ck with
    | none => s
    | some (_, im, x) =>
      let c := imAgu im a
      match (x.agu a).buf with
      | [] => s
      | t :: q =>
        if c.mode = 4 ∧ x.stopping im = false ∧ x.room (routeOf c.route) then
          let s' := s.putFRun ck ((x.modAgu a fun g => { g with buf := q, moved := g.moved + 1 }).give t (routeOf c.route))
          let s' := match s.senderOfAgu ck a with
            | some (k, b) => { s' with flight := s'.flight ++ [Flight.credit k b] }
            | none => s'
          s'.flushRecv ck a n
        else s

/-- Tokens move along the routes as far as they can. -/
def State.frFlush (s : State) (ck : Nat) : State :=
  match s.frRun ck with
  | none => s
  | some (_, im, x) =>
    let s := s.putFRun ck (x.flushOuts im)
    (List.range 8).foldl (fun s a => s.flushRecv ck a (x.agu a).buf.length) s

/-! ## Generators (R281) -/

/-- A generator's step. -/
def genStep (s : W64) : W64 :=
  let s := s ^^^ (s <<< 13)
  let s := s ^^^ (s >>> 7)
  s ^^^ (s <<< 17)
def genSteps : Nat → W64 → W64
  | 0, s => s
  | n + 1, s => genSteps n (genStep s)

def genRoute (im : List Byte) (g : Nat) : List Dest := routeOf (imNum im (576 + 8 * g) 8)

/-- The state behind the last token that every destination consumed, and the tokens that one still holds or has discarded. -/
def FRun.settleGen (im : List Byte) (x : FRun) (g : Nat) : FRun :=
  let l := x.gens.get [] g
  let m := (genRoute im g).foldl (fun m d => max m (x.held d).length) (x.dead.get 0 g)
  { x with gens := x.gens.set [] g (l.drop (l.length - m)), genSt := x.genSt.set 1 g (genSteps (l.length - m) (x.genSt.get 1 g)) }

/-- GENERATOR_EMIT (R281). -/
def execGeneratorEmit (ck g : Nat) (s : State) : Out :=
  .next (match s.frRun ck with
    | none => s
    | some (_, im, x) =>
      let r := genRoute im g
      if 2 ≤ g ∨ r = [] ∨ x.stopping im ∨ x.room r = false then s
      else
        let x := x.settleGen im g
        let l := x.gens.get [] g
        let t : Token := ⟨(genSteps (l.length + 1) (x.genSt.get 1 g)).setWidth 36, 0, false⟩
        (s.putFRun ck { x.give t r with gens := x.gens.set [] g (l ++ [t]) }).frFlush ck)

/-! ## Firing (R39, R271) -/

/-- Whether a slot is ready. -/
def FRun.ready (im : List Byte) (x : FRun) (pe w : Nat) : Bool :=
  let q := (x.preds.get 0 pe)
  peValid w && [0, 1, 2, 3].all fun i =>
    (!bitOf (peGm w) i || q.getLsbD i == bitOf (peGv w) i) &&
    (!bitOf (peIr w) i || (x.chan (4 * pe + i)) != []) &&
    (!bitOf (peTe w) i || match (x.chan (4 * pe + i)) with | t :: _ => t.tag.toNat == pf (peTv w) (2 * i) 2 | [] => false) &&
    (!bitOf (peOs w) i || decide ((x.out (4 * pe + i)).length < imCap im pe i))

/-- The lowest-numbered ready slot of a PE. -/
def FRun.fires (im : List Byte) (x : FRun) (pe : Nat) : Option Nat :=
  ((List.range 16).map (imSlot im pe)).find? (x.ready im pe)

def FRun.hold (x : FRun) (pe : Nat) : Token := x.holds.get ⟨0, 0, false⟩ pe

/-- A source of a slot: its value, whether a token was read and is poisoned, whether it is poisoned. -/
def FRun.source (x : FRun) (pe w k : Nat) : W36 × Bool × Bool :=
  let c := peSrc w k
  if c < 4 then match x.chan (4 * pe + c) with | t :: _ => (t.data, t.pois, t.pois) | [] => (0, false, false)
  else if c = 4 then (peK w, false, false)
  else if c = 5 then ((x.hold pe).data, false, (x.hold pe).pois)
  else (0, false, false)

/-- The channels that a firing pops: those of DQ, and under RM 101 the value and the random channel (R282). -/
def pePops (w i : Nat) : Bool := bitOf (peDq w) i || (peRm w == 5 && (peSrc w 0 == i || peSrc w 2 == i))

/-- A firing (R271): `bad` says that its mismatch was not recovered (R273). -/
def Fr.fire (f : Fr) (x : FRun) (pe w : Nat) (bad : Bool) : Fr :=
  let a := x.source pe w 0
  let b := x.source pe w 1
  let c := x.source pe w 2
  let d := peResult w (x.preds.get 0 pe) a.1 b.1 c.1
  let p := a.2.2 || b.2.2 || c.2.2 || bad
  let tag0 := match x.chan (4 * pe) with | t :: _ => t.tag | [] => 0
  let x := [0, 1, 2, 3].foldl (fun x i => if pePops w i then x.setChan (4 * pe + i) (x.chan (4 * pe + i)).tail else x) x
  let steer := peOpc w == 0x0F
  let tgt : List Nat := if steer then (steerTo w b.1).toList else [0, 1, 2, 3].filter (bitOf (peDm w))
  let x := tgt.foldl (fun x o => x.setOut (4 * pe + o) (x.out (4 * pe + o) ++ [⟨d.1, peOt w, p⟩])) x
  let x := if peHw w then { x with holds := x.holds.set ⟨0, 0, false⟩ pe ⟨d.1, 0, p⟩ } else x
  let bit := match peQm w with
    | 1 => d.1.getLsbD 35
    | 2 => (w36Value d.1).isZero
    | _ => tag0.getLsbD 0
  let q := x.preds.get 0 pe
  let m : BitVec 4 := 1#4 <<< peQs w
  let x := if peQm w = 0 then x else { x with preds := x.preds.set 0 pe (if bit then q ||| m else q &&& ~~~m) }
  let lost := steer && tgt == []
  let fl := (d.2 &&& 0x1F) ||| flagIf (a.2.1 || b.2.1 || c.2.1) 0x20 ||| flagIf bad 0x40 ||| flagIf lost 0x81
  { f with flags := f.flags ||| fl, drops := f.drops + lost.toNat, run := some x }

/-- A PE fires its lowest-numbered ready slot, where that holds the operation named (R271). -/
def peFire (op ck pe : Nat) (s : State) : Out :=
  .next (match s.frRun ck with
    | none => s
    | some (_, im, x) =>
      match (if x.spent then none else x.fires im pe) with
      | none => s
      | some w =>
        if peOpc w ≠ op then s
        else
          let h := ({ s with cmd := ⟨ck, 2, 0, 0⟩ }).engMishap
          (h.1.modFr ck fun f => f.fire x pe w h.2.isSome).frFlush ck)

/-- PE_PASS (R275). -/
def execPePass (ck pe : Nat) (s : State) : Out := peFire 0x00 ck pe s
/-- PE_ADD (R275). -/
def execPeAdd (ck pe : Nat) (s : State) : Out := peFire 0x01 ck pe s
/-- PE_SUB (R275). -/
def execPeSub (ck pe : Nat) (s : State) : Out := peFire 0x02 ck pe s
/-- PE_MUL (R275). -/
def execPeMul (ck pe : Nat) (s : State) : Out := peFire 0x03 ck pe s
/-- PE_FMA (R275). -/
def execPeFma (ck pe : Nat) (s : State) : Out := peFire 0x04 ck pe s
/-- PE_FMS (R275). -/
def execPeFms (ck pe : Nat) (s : State) : Out := peFire 0x05 ck pe s
/-- PE_MAX (R275). -/
def execPeMax (ck pe : Nat) (s : State) : Out := peFire 0x06 ck pe s
/-- PE_MIN (R275). -/
def execPeMin (ck pe : Nat) (s : State) : Out := peFire 0x07 ck pe s
/-- PE_ABS (R275). -/
def execPeAbs (ck pe : Nat) (s : State) : Out := peFire 0x08 ck pe s
/-- PE_NEG (R275). -/
def execPeNeg (ck pe : Nat) (s : State) : Out := peFire 0x09 ck pe s
/-- PE_SCALE (R275). -/
def execPeScale (ck pe : Nat) (s : State) : Out := peFire 0x0A ck pe s
/-- PE_RINT (R275). -/
def execPeRint (ck pe : Nat) (s : State) : Out := peFire 0x0B ck pe s
/-- PE_CMP (R275). -/
def execPeCmp (ck pe : Nat) (s : State) : Out := peFire 0x0C ck pe s
/-- PE_SEL (R275). -/
def execPeSel (ck pe : Nat) (s : State) : Out := peFire 0x0D ck pe s
/-- PE_CVT (R275). -/
def execPeCvt (ck pe : Nat) (s : State) : Out := peFire 0x0E ck pe s
/-- PE_STEER (R275). -/
def execPeSteer (ck pe : Nat) (s : State) : Out := peFire 0x0F ck pe s
/-- PE_EXP2 (R275). -/
def execPeExp2 (ck pe : Nat) (s : State) : Out := peFire 0x10 ck pe s
/-- PE_EXP (R275). -/
def execPeExp (ck pe : Nat) (s : State) : Out := peFire 0x11 ck pe s
/-- PE_LOG2 (R275). -/
def execPeLog2 (ck pe : Nat) (s : State) : Out := peFire 0x12 ck pe s
/-- PE_LOG (R275). -/
def execPeLog (ck pe : Nat) (s : State) : Out := peFire 0x13 ck pe s
/-- PE_RCP (R275). -/
def execPeRcp (ck pe : Nat) (s : State) : Out := peFire 0x14 ck pe s
/-- PE_RSQRT (R275). -/
def execPeRsqrt (ck pe : Nat) (s : State) : Out := peFire 0x15 ck pe s
/-- PE_SKIP (R275). -/
def execPeSkip (ck pe : Nat) (s : State) : Out := peFire 0x16 ck pe s
/-- PE_DIV (R275). -/
def execPeDiv (ck pe : Nat) (s : State) : Out := peFire 0x17 ck pe s

/-! ## The end of a folio -/

/-- A token in flight to a receiver that closes: it will be discarded (R280). -/
def Flight.kill (ck : Nat) : Flight → Flight
  | .token a b dst d t live => .token a b dst d t (live && dst != ck)
  | f => f

/-- A sender's AGUs connected to a cluster lose their connections. -/
def Fr.dropConns (f : Fr) (ck : Nat) : Fr :=
  { f with run := f.run.map fun x => (List.range 8).foldl (fun x a =>
    let c := imAgu (f.image x.slot) a
    if c.mode = 3 ∧ c.destCk = ck ∧ (x.agu a).conn then x.modAgu a fun g => { g with conn := false, out := 0 } else x) x }

/-- The streams of a region closed, as receiver and as sender. -/
def State.closeStreams (s : State) (ck : Nat) : State :=
  let keep : Flight → Bool := fun f => match f with
    | .credit k b => k != ck && !(match (s.frAt k).run with
      | some x => (imAgu ((s.frAt k).image x.slot) b).destCk == ck
      | none => true)
    | _ => true
  { s with flight := (s.flight.filter keep).map (Flight.kill ck), clusters := s.clusters.map fun e => (e.1, { e.2 with fr := e.2.fr.dropConns ck }) }

/-- The tokens that a folio holds. -/
def FRun.tokens (x : FRun) : Nat :=
  (x.chans.map fun e => e.2.length).sum + (x.outs.map fun e => e.2.length).sum +
  (x.agus.map fun e => e.2.dport.length + e.2.cport.length + e.2.buf.length).sum

/-- What remains of a folio that ends: the tokens that each AGU moved, generator states, discarded tokens counted (R281, R286, R287). Those in receive
buffers count however it ends (R280). -/
def Fr.close (f : Fr) (x : FRun) (count : Bool) : Fr :=
  let im := f.image x.slot
  let x := (x.settleGen im 0).settleGen im 1
  let n := if count then x.tokens else (x.agus.map fun e => e.2.buf.length).sum
  { f with cur := x.slot, switches := x.sw, drops := f.drops + n, flags := f.flags ||| flagIf (n != 0) 0x80, gens := x.genSt, run := none,
           moved := (List.range 8).foldl (fun (m : FMap Nat) a => m.set 0 a (x.agu a).moved) [] }

/-- The run ends, with a code (R286, R290). -/
def State.frEnd (s : State) (ck code : Nat) (count : Bool) : State :=
  match (s.frAt ck).run with
  | none => s
  | some x =>
    let s := (s.closeStreams ck).modFr ck fun f => f.close x count
    { s with cmd := ⟨ck, 2, 0, 0⟩ }.endRun code

/-- A folio's last tokens gone: the trigger's count and the switch, or the end of the run (R286). -/
def State.folioDone (s : State) (ck job : Nat) (im : List Byte) (x : FRun) : State :=
  if trCount im = 0 then s.frEnd ck 0 true
  else
    let s := if trCv im then s.counterUpdate ck job (trCtr im) (.add 1) else s
    if x.maxsw ≤ x.sw then s.frEnd ck 0x13 true
    else if (s.frAt ck).image (trNext im) = [] then s.frEnd ck 0x11 true
    else
      let s := (s.closeStreams ck).modFr ck fun f => f.close x true
      (s.modFr ck fun f => { f with run := some (FRun.start f (trNext im) x.maxsw (x.sw + 1)) }).frFlush ck

/-- Whether a store port holds a token that will be written (R286, step 3). -/
def FRun.storing (im : List Byte) (x : FRun) : Bool :=
  (List.range 8).any fun a =>
    let c := imAgu im a
    c.mode == 2 && (x.agu a).dport != [] && decide ((x.agu a).moved < c.total) && (c.rm != 5 || (x.agu a).cport != [])

/-- Quiescence begins, or, with every channel empty and the store ports written, ends (R286). -/
def quiesce (trigger : Bool) (ck : Nat) (s : State) : Out :=
  .next (match s.frRun ck with
    | none => s
    | some (job, im, x) =>
      if (trCount im != 0) ≠ trigger then s
      else match x.quiet with
        | none => if x.reached im then s.putFRun ck { x with quiet := some s.cycles } else s
        | some _ => if x.chans = [] ∧ x.outs = [] ∧ x.storing im = false then s.folioDone ck job im x else s)

/-- FOLIO_TRIGGER (R286, R388). -/
def execFolioTrigger (ck : Nat) (s : State) : Out := quiesce true ck s
/-- FOLIO_COMPLETION (R286). -/
def execFolioCompletion (ck : Nat) (s : State) : Out := quiesce false ck s

/-- QUIESCENCE_TIMEOUT (R286): the tokens that remain outside the store ports are discarded and counted. -/
def execQuiescenceTimeout (ck : Nat) (s : State) : Out :=
  .next (match s.frRun ck with
    | none => s
    | some (_, im, x) =>
      match x.quiet with
      | none => s
      | some t =>
        if s.cycles < t + 64 ∨ x.spent then s
        else
          let x0 := (x.settleGen im 0).settleGen im 1
          let lost (g : Nat) : Nat :=
            (genRoute im g).foldl (fun m d => if (imAgu im d.idx).mode = 2 ∧ d.kind ≠ 0 then m else max m (x0.held d).length) 0
          let y := { x0 with chans := [], outs := [], dead := (FMap.set 0 [] 0 (lost 0)).set 0 1 (lost 1), spent := true }
          let y := (List.range 8).foldl (fun y a =>
            if (imAgu im a).mode = 2 then y else y.modAgu a fun g => { g with dport := [], cport := [], buf := [] }) y
          let n := x.tokens - y.tokens
          (s.putFRun ck y).modFr ck fun f => { f with drops := f.drops + n, flags := f.flags ||| flagIf (n != 0) 0x80 })

/-! ## Edge AGUs (R278, R279) -/

/-- A step of an AGU: an error ends the run, a page that is not present parks the AGU alone. -/
def State.aguRun (s : State) (ck a : Nat) (m : Eng Unit) : State :=
  let s0 := { s with cmd := ⟨ck, 2, 0, 0⟩ }
  match m.run s0 with
  | (.ok _, t) => t.frFlush ck
  | (.error (.err c), t) => t.frEnd ck c false
  | (.error (.park die pg va kind t2 wr loc), _) =>
    (s0.recordFault die pg va kind t2 wr loc).modFRun ck fun x => x.modAgu a fun g => { g with parked := some pg }
  | (.error .stall, _) => s

/-- Who an AGU accesses memory for, through its own translation cache (R278). -/
def aguWho (ck a job : Nat) : Who := ⟨ck, 48 + a, job, cmdNo ⟨ck, 2, 0, 0⟩, none⟩

/-- The storage format of FMT; none for W36. -/
def aguFmt (f : Nat) : Option Fmt :=
  [some .fp32, some .bf16, some .fp16, some .e4m3, some .e5m2, some .int8, some .int16, some .int32, none].getD f none

/-- An element as a load converts it. -/
def loadToken (fmt : Nat) (n : Nat) : W36 × Flags :=
  match aguFmt fmt with
  | none => (BitVec.ofNat 36 n, 0)
  | some f => w36OfVal .rne (fmtValue f n)

/-- A token as a store converts it: the rounding of RM, 101 with the random token `r`. -/
def storeToken (c : AguCfg) (v r : W36) : Nat × Flags :=
  match aguFmt c.fmt with
  | none => (v.toNat, 0)
  | some f => fmtOf f (if c.rm = 5 then .sr (r.toNat % 2 ^ 32) 32 else rmOf c.rm) (w36Value v)

def frFlags (ck : Nat) (fl : Byte) : Eng Unit := modify fun s => s.modFr ck fun f => f.flag fl

/-- The elements of the gated block that begins at element m. -/
def AguCfg.block (c : AguCfg) (m : Nat) : Nat := min c.blkr (c.outer - m / c.inner) * c.inner

/-- AGU_LOAD_TOKEN (R278, R279): a control token taken, its block skipped, or one element moved. -/
def execAguLoadToken (ck a : Nat) (s : State) : Out :=
  .next (match s.frRun ck with
    | none => s
    | some (job, im, x) =>
      let c := imAgu im a
      let g := x.agu a
      let r := routeOf c.route
      if 8 ≤ a ∨ c.mode ≠ 1 ∨ g.parked.isSome ∨ x.stopping im ∨ c.total ≤ g.moved then s
      else if c.ctl ∧ g.gate.getD 0 = 0 then
        match g.cport with
        | [] => s
        | t :: q =>
          if (w36Value t.data).isZero ∧ t.pois = false then
            if x.room r then
              let x := (x.modAgu a fun g => { g with cport := q, moved := g.moved + c.block g.moved }).give ⟨0, 3, false⟩ r
              ((s.putFRun ck x).modFr ck fun f => { f with skips := f.skips + 1 }).frFlush ck
            else s
          else ((s.putFRun ck (x.modAgu a fun g => { g with cport := q, gate := some (c.block g.moved) })).modFr ck fun f =>
            f.flag (flagIf t.pois 0x20)).frFlush ck
      else if x.room r = false then s
      else s.aguRun ck a (do
        let bs ← readBytes (aguWho ck a job) (c.addr g.moved) (aguSize c.fmt)
        let hit ← mishapNow
        let v := loadToken c.fmt (pnum bs)
        let tag : BitVec 2 := if c.tagm = 1 ∧ g.moved % c.inner = c.inner - 1 then 1 else 0
        frFlags ck ((v.2 &&& 0x1F) ||| flagIf hit.isSome 0x40)
        modify fun s => s.modFRun ck fun x =>
          (x.modAgu a fun g => { g with moved := g.moved + 1, gate := g.gate.map fun n => n - 1 }).give ⟨v.1, tag, ppois bs || hit.isSome⟩ r))

/-- AGU_STORE_TOKEN (R278). -/
def execAguStoreToken (ck a : Nat) (s : State) : Out :=
  .next (match s.frRun ck with
    | none => s
    | some (job, im, x) =>
      let c := imAgu im a
      let g := x.agu a
      if 8 ≤ a ∨ c.mode ≠ 2 ∨ g.parked.isSome ∨ c.total ≤ g.moved ∨ (x.quiet = none ∧ x.atCount im a) then s
      else match g.dport, (if c.rm = 5 then g.cport else [⟨0, 0, false⟩]) with
        | t :: q, rnd :: rq => s.aguRun ck a (do
          let hit ← mishapNow
          let v := storeToken c t.data rnd.data
          let p := t.pois || (c.rm == 5 && rnd.pois)
          writeBytes (aguWho ck a job) (c.addr g.moved) (pbytes (aguSize c.fmt) v.1 (p || hit.isSome))
          frFlags ck ((v.2 &&& 0x1F) ||| flagIf p 0x20 ||| flagIf hit.isSome 0x40)
          modify fun s => s.modFRun ck fun x => x.modAgu a fun g =>
            { g with moved := g.moved + 1, dport := q, cport := if c.rm = 5 then rq else g.cport })
        | _, _ => s)

/-! ## Streams (R280) -/

/-- Whether a receive AGU may take a connection: nothing of an earlier one is left (log entry 27). -/
def State.canConnect (s : State) (ck a job : Nat) : Bool :=
  let f := s.frAt ck
  match f.run with
  | none => false
  | some x =>
    f.owner == job && (imAgu (f.image x.slot) a).mode == 4 && (x.agu a).buf == [] && (s.senderOfAgu ck a).isNone &&
      !s.flight.any fun u => match u with | .token _ _ dst d _ live => live && dst == ck && d == a | _ => false

/-- STREAM_CONNECT (R280). -/
def execStreamConnect (ck a : Nat) (s : State) : Out :=
  .next (match s.frRun ck with
    | none => s
    | some (job, im, x) =>
      let c := imAgu im a
      if 8 ≤ a ∨ c.mode ≠ 3 ∨ (x.agu a).conn then s
      else
        let tgt := c.destCk
        if s.inPlace job (tgt / 64) (tgt % 64) = false ∨ ((s.frAt tgt).free = false ∧ (s.frAt tgt).owner ≠ job) then s.frEnd ck 0x12 false
        else if s.canConnect tgt c.destAgu job then s.modFRun ck fun x => x.modAgu a fun g => { g with conn := true, out := 0 }
        else s)

/-- STREAM_SEND_TOKEN (R280). -/
def execStreamSendToken (ck a : Nat) (s : State) : Out :=
  .next (match s.frRun ck with
    | none => s
    | some (_, im, x) =>
      let c := imAgu im a
      let g := x.agu a
      let r := s.frAt c.destCk
      let depth := match r.run with | some y => (imAgu (r.image y.slot) c.destAgu).w1 | none => 0
      match g.dport with
      | [] => s
      | t :: q =>
        if 8 ≤ a ∨ c.mode ≠ 3 ∨ g.conn = false ∨ depth ≤ g.out ∨ c.total ≤ g.moved ∨ x.atCount im a then s
        else
          let s := s.putFRun ck (x.modAgu a fun g => { g with dport := q, out := g.out + 1, moved := g.moved + 1 })
          let s := s.modFr ck fun f => f.flag (flagIf t.pois 0x20)
          { s with flight := s.flight ++ [Flight.token ck a c.destCk c.destAgu t true] }.frFlush ck)

/-- STREAM_TOKEN_ARRIVAL (R280): into the receiver's buffer, or discarded and counted. -/
def execStreamTokenArrival (k : Nat) (s : State) : Out :=
  .next (match s.takeFlight k with
    | some (.token _ _ dst b t live, s') =>
      if live = false then s'.modFr dst fun f => { f.flag 0x80 with drops := f.drops + 1 }
      else match s.frRun dst with
        | none => s
        | some _ => (s'.modFRun dst fun x => x.modAgu b fun g => { g with buf := g.buf ++ [t] }).frFlush dst
    | _ => s)

/-- STREAM_CREDIT_ARRIVAL (R280). -/
def execStreamCreditArrival (k : Nat) (s : State) : Out :=
  .next (match s.flight[k]? with
    | some (.credit ck a) =>
      { s with flight := s.flight.eraseIdx k }.modFRun ck fun x => x.modAgu a fun g => { g with out := g.out - 1 }
    | _ => s)

/-! ## Commands (R290 to R296) -/

def theFr : Eng Fr := do pure ((← get).frAt (← get).cmd.ck)
def putFr (f : Fr) : Eng Unit := modify fun s => s.modFr s.cmd.ck fun _ => f

/-- The region for a command of a job: 0x04 where another job owns it (R288). -/
def ownFr (r : RunCmd) : Eng Fr := do
  let f ← theFr
  must (f.free || f.owner == r.cmd.job) 4
  pure f

/-- A part of FLOAD that, where it fails, leaves the slot empty (R40, R284). -/
def orEmpty (slot : Fin 4) (m : Eng Bool) : Eng Bool :=
  tryCatch m fun h =>
    match h with
    | .err c => do
      let f ← theFr
      putFr { f with slots := f.slots.set [] slot [] }
      fail c
    | h => throw h

/-- FLOAD (R40, R284, R288, R291): it takes a free region, and writes the slot when the image passes every check; one that fails leaves it empty. -/
def execFload (slot : Fin 4) (fbase : Nat) (s : State) : Out :=
  command (fun r => do
    let f ← ownFr r
    if r.prog = 0 then
      putFr { f with free := false, owner := r.cmd.job }
      setProg 1
      pure false
    else orEmpty slot do
      let w := r.who (← get)
      let hd ← readBytes w fbase 640
      must (!ppois hd) 0x10
      let h := hd.map Prod.fst
      must (decide (imNpre h ≤ 4096)) 0x10
      let rest ← readBytes w (fbase + 640) (320 * (imPes h).length + 8 * imNpre h)
      let im := h ++ rest.map Prod.fst
      must (!ppois rest && folioOk ((← get).jobAt r.cmd.job).img.allot im) 0x10
      putFr { ← theFr with slots := f.slots.set [] slot im }
      pure true) s

/-- FSEL (R285, R286, R292): the run that it starts goes on until its last folio ends. -/
def execFsel (slot : Fin 4) (maxsw : Nat) (s : State) : Out :=
  command (fun r => do
    if r.prog = 0 then
      let f ← ownFr r
      must (f.image slot != []) 0x11
      putFr { f with switches := 0, run := some (FRun.start f slot maxsw 0) }
      setProg 1
      modify fun s => s.frFlush s.cmd.ck
    pure false) s

/-- An entry of FARG applied to an image: none where it is malformed (R293). -/
def applyFarg (im : List Byte) (e : Nat) : Option (List Byte) :=
  let k := pf e 40 4
  let pe := pf e 48 6
  let w := imSlot im pe k
  if only (w64 e) [(0, 36), (40, 4), (48, 6)] && imHas im pe && peValid w then
    let off := peOff im pe + 16 * k
    some (im.take off ++ leBytes 16 (w % 2 ^ 92 + pf e 0 36 * 2 ^ 92) ++ im.drop (off + 16))
  else none

/-- FARG (R293): one entry at a step. -/
def execFarg (slot : Fin 4) (abase n : Nat) (s : State) : Out :=
  command (fun r => do
    let f ← ownFr r
    let bs ← readBytes (r.who (← get)) (abase + 8 * r.prog) 8
    match (if ppois bs then none else applyFarg (f.image slot) (pnum bs)) with
    | none => fail 0x14
    | some im =>
      putFr { f with slots := f.slots.set [] slot im }
      setProg (r.prog + 1)
      pure (decide (n ≤ r.prog + 1))) s

/-- FSEED (R294). -/
def execFseed (gens : Fin 4) (seed0 seed1 : W64) (s : State) : Out :=
  command (fun r => do
    let f ← ownFr r
    let g0 := if bitOf gens 0 then f.gens.set 1 0 seed0 else f.gens
    let g1 := if bitOf gens 1 then g0.set 1 1 seed1 else g0
    putFr { f with gens := g1 }
    pure true) s

/-- FDRAIN (R288, R295). -/
def execFdrain (slot : Fin 4) (rel : Bool) (dbase : Nat) (s : State) : Out :=
  command (fun r => do
    let f ← ownFr r
    must (f.image slot != []) 0x11
    writeBytes (r.who (← get)) dbase ((f.image slot).map fun b => (b, false))
    if rel then
      let f := { f with slots := f.slots.set [] slot [] }
      putFr (if f.slots = [] then { f with free := true, owner := 0 } else f)
    pure true) s

/-- The FR status word (R287). -/
def Fr.word (f : Fr) : W64 :=
  w64 (bitsWhere (fun k => f.image k != []) 4 * 2 ^ 56 + f.cur * 2 ^ 54 + f.free.toNat * 2 ^ 47 + (if f.free then 0 else f.owner) * 2 ^ 32 + f.flags.toNat)

/-- The 128 bytes of FSTAT (R287). -/
def Fr.record (f : Fr) : List PByte :=
  pbytes 8 f.word.toNat false ++ pbytes 8 (f.drops % 2 ^ 32 * 2 ^ 32 + f.switches % 2 ^ 32) false ++ pbytes 8 (f.skips % 2 ^ 32) false ++
  pbytes 8 (f.gen 0).toNat false ++ pbytes 8 (f.gen 1).toNat false ++ pbytes 24 0 false ++
  (List.range 8).flatMap fun a => pbytes 8 (f.moved.get 0 a % 2 ^ 32) false

/-- FSTAT (R296). -/
def execFstat (clr : Bool) (sbase : Nat) (s : State) : Out :=
  command (fun r => do
    let f ← ownFr r
    writeBytes (r.who (← get)) sbase f.record
    if clr then putFr { f with flags := 0, drops := 0, skips := 0 }
    pure true) s

/-! ## Pages, retirement and removal (R278, R288, R289) -/

/-- A page resolved, or its resolution failed, for the AGUs parked on it. -/
def State.wakeFr (s : State) (ck : Nat) (pg : PageKey) (ok : Bool) : State :=
  match (s.frAt ck).run with
  | none => s
  | some x =>
    if (List.range 8).any fun a => (x.agu a).parked == some pg then
      if ok then s.putFRun ck ((List.range 8).foldl (fun x a => if (x.agu a).parked = some pg then x.modAgu a fun g => { g with parked := none } else x) x)
      else s.frEnd ck 1 false
    else s

/-- The streams and the run of a region stopped without the end of a command; its parked AGUs leave. -/
def State.stopFr (s : State) (ck : Nat) : State :=
  match (s.frAt ck).run with
  | none => s
  | some x =>
    let s := (s.closeStreams ck).modFr ck fun f => f.close x false
    (List.range 8).foldl (fun s a => match (x.agu a).parked with | some pg => s.dropWaiter (dieOf ck) pg | none => s) s

/-- The folios lost with the region. -/
def State.loseFr (s : State) (ck : Nat) : State := (s.stopFr ck).modFr ck fun _ => Fr.init
/-- A removed job's region freed: every slot empty. -/
def State.freeFr (s : State) (ck job : Nat) : State :=
  if (s.frAt ck).free ∨ (s.frAt ck).owner ≠ job then s
  else (s.stopFr ck).modFr ck fun f => { f with free := true, owner := 0, slots := [] }

end Sys2Proof.Machine
end

