-- ==== Sys2Proof/Machine/Groups.lean ====
section
/-! DEFINITION. Collectives: the routes and trees of R181 and R321, the operators of R322, the rounds of R323 and R324, disabling (R325), GRPST
(R326) and GRPLD (R327). Directions are 0 N, 1 E, 2 S, 3 W. -/

namespace Sys2Proof.Machine

/-! ## The torus (R14, R181) -/

def torusX (ck : Nat) : Nat := ck / 64 * 8 + ck % 8
def torusY (ck : Nat) : Nat := ck % 64 / 8
def torusCk (x y : Nat) : Nat := x / 8 * 64 + y * 8 + x % 8

/-- The router next to another in a direction. -/
def neighbour (ck dir : Nat) : Nat :=
  let x := torusX ck; let y := torusY ck
  match dir with
  | 0 => torusCk x ((y + 7) % 8) | 1 => torusCk ((x + 1) % 24) y | 2 => torusCk x ((y + 1) % 8) | _ => torusCk ((x + 23) % 24) y

/-- The direction that a move by `dir` enters the next router from. -/
def opposite (dir : Nat) : Nat := (dir + 2) % 4

/-- The unit id of the link that leaves a router in a direction: a link is named at its west or north end (R354). -/
def linkUnit (ck dir : Nat) : Nat :=
  match dir with
  | 0 => unitOf 5 (neighbour ck 0) 1 | 1 => unitOf 5 ck 0 | 2 => unitOf 5 ck 1 | _ => unitOf 5 (neighbour ck 3) 0

/-- Whether n links from a router on in a direction hold one that is withdrawn or retired. -/
def State.goneAhead (s : State) (dir : Nat) : Nat → Nat → Bool
  | 0, _ => false
  | n + 1, ck => let u := s.unitAt (linkUnit ck dir); u.withdrawn || u.st == .retired || s.goneAhead dir n (neighbour ck dir)

/-- The next hop toward a router (R181): along the row, then along the column, by the shorter direction, the other one where a link on the
way is withdrawn or retired (R361; log entry 29). -/
def State.nextHop (s : State) (ck tgt : Nat) : Option Nat :=
  let dx := (torusX tgt + 24 - torusX ck) % 24
  let dy := (torusY tgt + 8 - torusY ck) % 8
  let go (d half ring up down : Nat) : Nat :=
    let dir := if d ≤ half then up else down
    if s.goneAhead dir (if d ≤ half then d else ring - d) ck then (if d ≤ half then down else up) else dir
  if dx ≠ 0 then some (go dx 12 24 1 3) else if dy ≠ 0 then some (go dy 4 8 2 0) else none

/-- The routers on the route from one router to another, both included. -/
def State.routeTo (s : State) (tgt : Nat) : Nat → Nat → List Nat
  | 0, _ => []
  | n + 1, ck => ck :: match s.nextHop ck tgt with | none => [] | some d => s.routeTo tgt n (neighbour ck d)

/-! ## Trees (R321) -/

/-- The routers of a group's tree. -/
def State.treeOf (s : State) (g : Group) : NSet :=
  g.members.foldl (fun t m => (s.routeTo g.root 40 m).foldl NSet.add t) []

/-- The entry of a router of a tree. -/
def State.treeEntry (s : State) (g : Group) (tree : NSet) (ck : Nat) : GrpEntry :=
  ⟨s.nextHop ck g.root,
   [0, 1, 2, 3].filter fun d => tree.has (neighbour ck d) && s.nextHop (neighbour ck d) g.root == some (opposite d),
   if g.members.has ck then g.lcl else 0⟩

/-! ## The records of a router -/

/-- The key of a group of a job at a router. -/
def grpKey (ck job g : Nat) : Nat := (ck * 32768 + job) * 256 + g
def State.grpAt (s : State) (k : Nat) : GrpSt := s.groups.get GrpSt.init k
def State.putGrp (s : State) (k : Nat) (x : GrpSt) : State := { s with groups := s.groups.set GrpSt.init k x }

/-- The group entries in use at a router (R320). -/
def State.entriesAt (s : State) (ck : Nat) : Nat := (s.groups.filter fun e => e.1 / 2 ^ 23 == ck && e.2.entry.isSome).length

/-- The group of a job. -/
def State.groupOf (s : State) (job g : Nat) : Option Group := (s.jobAt job).groups[g]?

/-! ## Operators (R322) -/

/-- INV, OFL and INX in the places of the status word (R327). -/
def grpFlags (f : Flags) : BitVec 4 :=
  (if f &&& fINV ≠ 0 then 1 else 0) ||| (if f &&& fOFL ≠ 0 then 2 else 0) ||| (if f &&& fINX ≠ 0 then 4 else 0)

/-- One word of a combination. -/
def grpWord (op : Nat) (a v : W32) : W32 × BitVec 4 :=
  match op with
  | 0 => (a + v, 0)
  | 1 => let r := fltOp .add .fp32 .rne a.toNat v.toNat 0; (fadd32 a v, grpFlags r.2)
  | 2 => (if a.toInt < v.toInt then v else a, 0)
  | 3 => (if v.toInt < a.toInt then v else a, 0)
  | 4 => (if a.toNat < v.toNat then v else a, 0)
  | 5 => (if v.toNat < a.toNat then v else a, 0)
  | 6 => (w32 (fltPick .fp32 true a.toNat v.toNat), 0)
  | 7 => (w32 (fltPick .fp32 false a.toNat v.toNat), 0)
  | 8 => (a &&& v, 0)
  | 9 => (a ||| v, 0)
  | _ => (a ^^^ v, 0)

/-- ADD.I64 on the pairs of words: the sum, and the poison of a pair. -/
def addPairs : List W32 → List W32 → List W32
  | al :: ah :: at_, vl :: vh :: vt => let r := (ah ++ al) + (vh ++ vl); r.extractLsb' 0 32 :: r.extractLsb' 32 32 :: addPairs at_ vt
  | _, _ => []
def poisonPairs : List Bool → List Bool
  | a :: b :: t => (a || b) :: (a || b) :: poisonPairs t
  | l => l

/-- A combination of acc with a value: words, poison and status (R322, R324). -/
def grpCombine (op : Nat) (a v : GrpVal) : GrpVal :=
  let p := List.zipWith (· || ·) a.pois v.pois
  if op = 0xB then ⟨addPairs a.vals v.vals, poisonPairs p, a.flags ||| v.flags⟩
  else
    let r := List.zipWith (grpWord op) a.vals v.vals
    ⟨r.map Prod.fst, p, r.foldl (fun f e => f ||| e.2) (a.flags ||| v.flags)⟩

/-- The value of a contribution: PSN where a word is poisoned. -/
def Contrib.value (c : Contrib) : GrpVal := ⟨c.vals, c.pois, if c.pois.any id then 8 else 0⟩

/-! ## Rounds (R323, R324) -/

/-- The contributions of a round in increasing core number. -/
def inCoreOrder (l : List Contrib) : List Contrib := (List.range 16).flatMap fun c => l.filter fun x => coreOf x.bk % 16 == c

/-- The values of a round that has all of them, in the order of R323. -/
def GrpSt.complete (x : GrpSt) (e : GrpEntry) : Option (List GrpVal) :=
  let vs := (e.children.map fun d => x.parts.get none d)
  if x.sent ∨ vs.any (fun v => v.isNone) ∨ x.conts.length < e.lcl ∨ (e.children = [] ∧ e.lcl = 0) then none
  else some (vs.filterMap id ++ (inCoreOrder x.conts).map Contrib.value)

/-- The end of a round at a router: the result to its children, and at a member into the result buffer, and then the counter (R323). The result buffer is
a location on the asynchronous path: what it held stays readable under R146 (log entry 57). -/
def State.roundDone (s : State) (ck job g : Nat) (v : GrpVal) : State :=
  let k := grpKey ck job g
  let x := s.grpAt k
  match x.entry, s.groupOf job g with
  | some e, some gr =>
    let x := { x with parts := [], conts := x.next.take e.lcl, next := x.next.drop e.lcl, sent := false }
    let s := { s with flight := s.flight ++ e.children.map fun d => Flight.result (neighbour ck d) job g v }
    if e.lcl = 0 then s.putGrp k x
    else (s.putGrp k { x with result := v, rounds := x.rounds + 1, old := ⟨x.result, x.rounds, [], []⟩ :: x.old }).counterUpdate ck job gr.ctr (.add 1)
  | _, _ => s

/-- A router combines a round that is complete: to its parent, or at the root the result. -/
def State.roundStep (s : State) (ck job g : Nat) : State :=
  let k := grpKey ck job g
  let x := s.grpAt k
  match x.entry, s.groupOf job g with
  | some e, some gr =>
    match x.complete e with
    | some (v :: vs) =>
      let acc := vs.foldl (grpCombine gr.op) v
      match e.parent with
      | some d => { s.putGrp k { x with sent := true } with flight := s.flight ++ [Flight.part (neighbour ck d) job g (opposite d) acc] }
      | none => s.roundDone ck job g acc
    | _ => s
  | _, _ => s

/-- A round and the ones that contributions already held complete (R324): at a router that is its own root rounds may follow at once. -/
def State.rounds (s : State) (ck job g : Nat) : Nat → State
  | 0 => s
  | n + 1 => (s.roundStep ck job g).rounds ck job g n

/-- GROUP_CONTRIBUTION_ARRIVAL (R324): into the round at hand, or held for the next; a router holds one such contribution per core. -/
def execGroupContributionArrival (k : Nat) (s : State) : Out :=
  .next (match s.takeFlight k with
    | some (.contrib ck _ c, t) =>
      let key := grpKey ck c.job c.g
      let x := t.grpAt key
      let mine (l : List Contrib) : Bool := l.any fun y => coreOf y.bk == coreOf c.bk
      if x.dis ∨ (t.groupOf c.job c.g).isNone then t
      else match x.entry with
        | none => s
        | some e =>
          if x.conts.length < e.lcl ∧ mine x.conts = false ∧ x.sent = false then
            (t.putGrp key { x with conts := x.conts ++ [c] }).rounds ck c.job c.g 2
          else if mine x.next then s
          else t.putGrp key { x with next := x.next ++ [c] }
    | _ => s)

/-- GROUP_PARTIAL_ARRIVAL (R323). -/
def execGroupPartialArrival (k : Nat) (s : State) : Out :=
  .next (match s.takeFlight k with
    | some (.part ck job g dir v, s) =>
      let key := grpKey ck job g
      let x := s.grpAt key
      if x.dis ∨ x.entry = none then s
      else (s.putGrp key { x with parts := x.parts.set none dir (some v) }).rounds ck job g 2
    | _ => s)

/-- GROUP_RESULT_ARRIVAL (R323). -/
def execGroupResultArrival (k : Nat) (s : State) : Out :=
  .next (match s.takeFlight k with
    | some (.result ck job g v, s) =>
      if (s.grpAt (grpKey ck job g)).dis then s else (s.roundDone ck job g v).rounds ck job g 2
    | _ => s)

/-! ## Disabling (R325) -/

/-- The entries of a group disabled on every router of its tree, and at its members, written there yet or not. -/
def State.disableGroup (s : State) (job g : Nat) : State :=
  let ms := match s.groupOf job g with | some gr => gr.members | none => []
  let s := ms.foldl (fun s ck => s.putGrp (grpKey ck job g) { s.grpAt (grpKey ck job g) with dis := true }) s
  let off : FMap GrpSt := s.groups.map fun e =>
    if e.1 % 2 ^ 23 = job * 256 + g then (e.1, { e.2 with dis := true, parts := [], conts := [], next := [], sent := false }) else e
  { s with groups := off }

/-- The groups of a job whose tree holds a router. -/
def State.groupsThrough (s : State) (ck : Nat) : List (Nat × Nat) :=
  (s.groups.filter fun e => e.1 / 2 ^ 23 == ck && e.2.entry.isSome && !e.2.dis).map fun e => (e.1 / 256 % 32768, e.1 % 256)

/-- The groups of a job disabled that have an entry at the router of a retired cluster (R325). -/
def State.disableDead (s : State) (job : Nat) : State :=
  ((s.groups.filter fun e => e.1 / 256 % 32768 == job && e.2.entry.isSome && !e.2.dis &&
      (s.unitAt (unitOf 9 (e.1 / 2 ^ 23) 0)).st == .retired).map fun e => e.1 % 256).foldl (fun s g => s.disableGroup job g) s

/-- The records of a removed job. -/
def State.freeGroups (s : State) (job : Nat) : State :=
  { s with groups := s.groups.filter (fun e => e.1 / 256 % 32768 != job),
           flight := s.flight.filter fun f => match f with
             | .contrib _ _ c => c.job != job
             | .part _ j _ _ _ => j != job
             | .result _ j _ _ => j != job
             | _ => true }

/-! ## GRPST and GRPLD -/

/-- Contributions that a bank's contribution buffer holds (R326): buffered, or released and not accepted yet. -/
def State.contribsHeld (s : State) : Nat :=
  (s.b.buf.filter fun e => match e.eff with | .contrib .. => true | _ => false).length +
  (s.flight.filter fun f => match f with | .contrib _ _ c => c.bk == s.cur | _ => false).length

/-- Whether the activation has buffered a contribution to a group. -/
def Bank.contributes (b : Bank) (g : Nat) : Bool := b.buf.any fun e => match e.eff with | .contrib h .. => h == g | _ => false

/-- The words of a vector register. -/
def vecWords (v : V256) (n : Nat) : List W32 := (List.range n).map fun i => v.extractLsb' (32 * i) 32
def vecPois (p : BitVec 8) (n : Nat) : List Bool := (List.range n).map fun i => p.getLsbD i

/-- GRPST (R326). -/
def execGrpst (rs1 : Reg) (vs2 : VReg) (s : State) : Out :=
  if vs2 = 15 then .next (illegal s (.grpst rs1 vs2))
  else finish ((clean s [rs1]).bind fun s _ =>
    let g := s.b.getX rs1
    match (if fld g 8 56 = 0 then s.groupOf s.jid g.toNat else none) with
    | none => .trap s 5 g
    | some gr =>
      (check s (gr.members.has s.ck && !(s.grpAt (grpKey s.ck s.jid g.toNat)).dis) 4 g).bind fun s _ =>
      (check s (!s.b.contributes g.toNat) 5 g).bind fun s _ =>
      (needEntry s (decide (s.contribsHeld < 4)) g).bind fun s _ =>
        .ok (s.bufferFree (.contrib g.toNat (vecWords (s.b.getV vs2) gr.width) (vecPois (s.b.poisV vs2) gr.width))) ())

/-- Words as a vector register. -/
def wordsVec (l : List W32) : V256 := BitVec.ofNat 256 (l.zipIdx.foldl (fun a e => a + e.1.toNat * 2 ^ (32 * e.2)) 0)
def poisVec (l : List Bool) : BitVec 8 := BitVec.ofNat 8 (l.zipIdx.foldl (fun a e => a + e.1.toNat * 2 ^ e.2) 0)

/-- The status of a group at a router (R327). -/
def GrpSt.status (x : GrpSt) : V256 :=
  BitVec.ofNat 256 (x.rounds.toNat + (x.result.flags.toNat + x.dis.toNat * 16) * 2 ^ 32)

/-- The group as a read of its result buffer by the executing activation finds it (R146, R327): with the last result, or with one before it that R146 still
lets the activation read, freely; it never goes back behind what it has read (log entry 57). -/
def State.grpLoad (s : State) (k : Nat) : State × GrpSt :=
  let x := s.grpAt k
  match x.old.filter fun r => !r.seen.has s.actKey with
  | [] => (s, x)
  | rs =>
    let n := Config.copyAge s.freeN % (rs.length + 1)
    let old := x.old.map fun r => if (rs.drop n).contains r then { r with seen := r.seen.add s.actKey, read := r.read.add s.actKey } else r
    ({ s.putGrp k { x with old := old } with freeN := s.freeN + 1 },
      match (if n = 0 then none else rs[n - 1]?) with | some r => { x with result := r.result, rounds := r.rounds } | none => x)

/-- GRPLD (R327). -/
def execGrpld (vd : VReg) (rs1 : Reg) (s : State) : Out :=
  if vd = 15 then .next (illegal s (.grpld vd rs1))
  else finish ((clean s [rs1]).bind fun s _ =>
    let r := s.b.getX rs1
    match (if fld r 9 55 = 0 then s.groupOf s.jid (fld r 0 8) else none) with
    | none => .trap s 5 r
    | some gr =>
      (check s (gr.members.has s.ck) 4 r).bind fun s _ =>
        let q := s.grpLoad (grpKey s.ck s.jid (fld r 0 8))
        let s := q.1
        let x := q.2
        if fld r 8 1 = 1 then .ok (s.modB fun b => b.setV vd x.status 0) ()
        else
          let p := poisVec x.result.pois
          .ok (s.modB fun b => (b.setV vd (wordsVec x.result.vals) p).psnIf (p != 0) 9) ())

end Sys2Proof.Machine
end

