-- ==== Sys2Proof/Machine/Opa.lean ====
section
/-! DEFINITION. The outer-product array (R218 to R229): tiles and their projection, operand blocks, and the class 0 commands (R239 to R244).
A command proceeds one K-block or one row at a step (R228). -/

namespace Sys2Proof.Machine

/-! ## Tiles -/

def Cluster.tileAt (c : Cluster) (t : Nat) : Tile := c.tiles.get Tile.init t
def Cluster.putTile (c : Cluster) (t : Nat) (x : Tile) : Cluster := { c with tiles := c.tiles.set Tile.init t x }
def State.tileAt (s : State) (ck t : Nat) : Tile := (s.clusterAt ck).tileAt t
def State.modTile (s : State) (ck t : Nat) (f : Tile → Tile) : State := s.modCluster ck fun c => c.putTile t (f (c.tileAt t))

def Tile.rows (t : Tile) : Nat := t.rowm1 + 1
def Tile.cols (t : Tile) : Nat := t.colm1 + 1
/-- Element (r, c), and its poison bit. -/
def Tile.el (t : Tile) (r c : Nat) : W36 := t.elems.get t.fill (128 * r + c)
def Tile.elPois (t : Tile) (r c : Nat) : Bool := t.pois.has (128 * r + c)
def Tile.setEl (t : Tile) (r c : Nat) (v : W36) (p : Bool) : Tile :=
  let i := 128 * r + c
  { t with elems := t.elems.set t.fill i v, pois := if p then t.pois.add i else t.pois.del i }

/-- The tile with every element at a fill value, no poison, no flags (R220, R241). -/
def Tile.cleared (t : Tile) (fill : W36) : Tile := { t with elems := [], pois := [], fill := fill, live := false, flags := 0 }
/-- Flag bits of the status word. -/
def tOV : Byte := 0x01
def tINV : Byte := 0x02
def tSAT : Byte := 0x04
def tCHK : Byte := 0x08
def tQNTF : Byte := 0x10
def tQSAT : Byte := 0x20
def tQUFL : Byte := 0x40
def tPSN : Byte := 0x80
def Tile.flag (t : Tile) (f : Byte) : Tile := { t with flags := t.flags ||| f }

/-- The accumulator status word (R220). -/
def Tile.word (t : Tile) : W64 :=
  w64 (t.isRec.toNat * 2 ^ 50 + t.colm1 * 2 ^ 43 + t.rowm1 * 2 ^ 36 + t.live.toNat * 2 ^ 32 + t.free.toNat * 2 ^ 31 +
    (if t.free then 0 else t.owner) * 2 ^ 16 + t.flags.toNat)

/-! ## Ownership and the projection (R221, R227) -/

/-- The tile taken by a job where it is free. -/
def Tile.take (t : Tile) (job : Nat) : Tile := if t.free then { t with free := false, owner := job } else t
def Tile.release (t : Tile) : Tile := { t with free := true, owner := 0 }
def Tile.foreign (t : Tile) (job : Nat) : Bool := !t.free && t.owner != job

/-- The configuration of a tile. -/
def Tile.config (t : Tile) : Nat × Nat × Bool × W64 := (t.rowm1, t.colm1, t.isRec, t.mprog)
def Tile.configure (t : Tile) (c : Nat × Nat × Bool × W64) : Tile := { t with rowm1 := c.1, colm1 := c.2.1, isRec := c.2.2.1, mprog := c.2.2.2 }

/-- Whether a class 0 command breaks a tile's state (R227, R239 to R241): TYPE mismatch, or a reconfiguration of a live tile. -/
def Tile.broken (t : Tile) : Instr → Bool
  | .mma .. => t.isRec
  | .cellp .. => !t.isRec
  | .accfg _ z r c o p => !z && t.live && t.config != (o.val, c.val, r, p)
  | _ => false

/-- What a class 0 command that ends without error leaves of a tile's configuration, LIVE, FREE and OWNER (R227). -/
def Tile.project (t : Tile) (job : Nat) : Instr → Tile
  | .mma .. | .cellp .. | .acload .. => { t.take job with live := true }
  | .aczero _ rel _ => let x := { t.take job with live := false }; if rel then x.release else x
  | .acdrain _ rel z _ _ _ =>
    let x := t.take job
    let x := if z then { x with live := false } else x
    if rel then x.release else x
  | .accfg _ z r c o p =>
    let x := t.take job
    if z then { x.configure (o.val, c.val, r, p) with live := false } else if x.live then x else x.configure (o.val, c.val, r, p)
  | _ => t

/-- The instruction of a queued command. -/
def QCmd.instr (c : QCmd) : Option Instr := tcwInstr c.w0 c.w1 c.w2 c.w3 ⟨1, 1⟩

/-- The tile t as it will stand after the queued commands (R227). -/
def State.projected (s : State) (ck t : Nat) : Tile :=
  let e := s.engAt ck 0
  (e.runs.map (·.cmd) ++ e.q).foldl (fun x c =>
    if tcwCmdf c.w0 % 4 = t then (match c.instr with | some i => x.project c.job i | none => x) else x) (s.tileAt ck t)

/-- The tile of the running command, checked and taken (R221, R227): 0x04 where another job owns it, 0x03 where its state forbids it. A free tile of a
command that ends with 0x03 stays free, which R221 leaves open (DESIGN CHOICE, log entry 78). -/
def takeTile (r : RunCmd) (t : Nat) (i : Instr) : Eng Tile := do
  let s ← get
  let x := s.tileAt s.cmd.ck t
  must (!x.foreign r.cmd.job) 4
  must (!x.broken i) 3
  set (s.modTile s.cmd.ck t fun y => y.take r.cmd.job)
  pure (x.take r.cmd.job)

def putTile (t : Nat) (x : Tile) : Eng Unit := modify fun s => s.modTile s.cmd.ck t fun _ => x

/-- A command that accesses memory: its first step starts it, checks the tile and takes it, whatever its accesses then meet, and notes whether the tile
was free (R221, R227); `m` is each further step. -/
def onTile (r : RunCmd) (t : Nat) (i : Instr) (start : Eng Unit) (m : Tile → Eng Bool) : Eng Bool := do
  if r.aux = [] then
    start
    let s ← get
    let _ ← takeTile r t i
    modify fun u => u.modRun fun r => { r with aux := [(s.tileAt s.cmd.ck t).free.toNat] }
    pure false
  else m (← takeTile r t i)

/-! ## Operands (R222, R223) -/

/-- A block of a row of A or a column of B, with its poison. -/
structure OpBlock where
  b : Block
  p : Bool
  deriving DecidableEq, Repr

/-- The block that a bit pattern holds (R58). -/
def blockOf (k bits : Nat) : Block :=
  ⟨bits % 256, (List.range 8).map fun i => bits / 2 ^ (8 + i) % 2 == 1,
   (List.range 16).map fun j => let x := bits / 65536 / 2 ^ ((k + 1) * j) % 2 ^ (k + 1); (x % 2 ^ k, x / 2 ^ k == 1)⟩

/-- Element (n, k) of an operand: row n of A, column n of B. -/
def elAddr (colB : Bool) (o : OpaOperand) (n k : Nat) : Nat :=
  let z := opFmtSize o.fmt
  if colB then o.base + k * o.str + n * z else o.base + n * o.str + k * z

/-- The accesses of the load pipe of operand A or B, with its own translation cache (R112, R223). -/
def Who.pipe (w : Who) (colB : Bool) : Who := { w with via := 32 + colB.toNat }

/-- One element read, as a value. -/
def readEl (w : Who) (colB : Bool) (o : OpaOperand) (n k : Nat) : Eng (Val × Bool) := do
  let bs ← readBytes (w.pipe colB) (elAddr colB o n k) (opFmtSize o.fmt)
  match opFmtStore o.fmt with
  | some f => pure (fmtValue f (pnum bs), ppois bs)
  | none => pure (.nan, ppois bs)

/-- The flags of a quantisation as tile flags (R223). -/
def quantFlags (f : Flags) : Byte :=
  (if f &&& fQNTF = fQNTF then tQNTF else 0) ||| (if f &&& fSAT = fSAT then tQSAT else 0) ||| (if f &&& fUFL = fUFL then tQUFL else 0)

/-- Block b of row or column n (R223): a prepacked one as stored, else 16 values converted under rne. -/
def readBlock (w : Who) (colB : Bool) (sx : Sx) (o : OpaOperand) (b n : Nat) : Eng (OpBlock × Byte) := do
  let k := sxK sx
  if o.fmt = .packed then
    let bs ← readBytes (w.pipe colB) (o.base + n * o.str + b * sxBytes k) (sxBytes k)
    pure (⟨blockOf k (pnum bs), ppois bs⟩, 0)
  else
    let vs ← (List.range 16).mapM fun j => readEl w colB o n (16 * b + j)
    let q := quantise k (fun _ => .rne) (vs.map Prod.fst)
    pure (⟨q.1, vs.any Prod.snd⟩, quantFlags q.2)

/-! ## MMA (R239) -/

/-- The exact sum of a block pair, in units of 2^(A.E + B.E − 256 − 2(k−1)). -/
def blockSum (a b : Block) : Int :=
  (List.range 16).foldl (fun (t : Int) j =>
    let x := a.els.getD j (0, false)
    let y := b.els.getD j (0, false)
    let m := x.1 * y.1 * (if a.me.getD (j / 2) false then 1 else 2) * (if b.me.getD (j / 2) false then 1 else 2)
    if x.2 = y.2 then t + m else t - m) 0

/-- An element after one block, and its flags: OV and INV (R239). -/
def mmaStep (k : Nat) (acc : W36) (a b : Block) : W36 × Byte :=
  let was := (w36Value acc).isNan
  let done (r : W36 × Flags) : W36 × Byte :=
    (r.1, (if r.2 &&& fOFL = fOFL then tOV else 0) ||| (if (w36Value r.1).isNan && !was then tINV else 0))
  if a.e = 255 ∨ b.e = 255 then done (w36NaN, 0)
  else if a.e = 0 ∨ b.e = 0 then (acc, 0)
  else
    let s := blockSum a b
    if s = 0 then (acc, 0)
    else
      let v := Val.dyad (decide (s < 0)) s.natAbs ((a.e : Int) + b.e - 256 - 2 * (k - 1))
      done (w36OfVal .rne ((w36Value acc).add .rne v))

/-- One element of a tile updated: poison from the operands stays (R219). -/
def Tile.update (t : Tile) (r c : Nat) (v : W36 × Byte) (p : Bool) : Tile :=
  (t.setEl r c v.1 (p || t.elPois r c)).flag (v.2 ||| (if p then tPSN else 0))

/-- The element struck by a mismatch: poisoned, with CHK; its value is then taken as the right one, which R219 does not say (DESIGN CHOICE, log
entry 58). -/
def Tile.struck (t : Tile) (hit : Option Nat) : Tile :=
  match hit with
  | none => t
  | some l =>
    let i := l % (t.rows * t.cols)
    let r := i / t.cols
    let c := i % t.cols
    (t.setEl r c (t.el r c) true).flag (tCHK ||| tPSN)

/-- The coordinates of a tile, in increasing r, then c. -/
def Tile.cells (t : Tile) : List (Nat × Nat) := (List.range t.rows).flatMap fun r => (List.range t.cols).map fun c => (r, c)

/-- A K-block applied to a tile. -/
def Tile.mmaBlock (t : Tile) (k : Nat) (as bs : List OpBlock) : Tile :=
  t.cells.foldl (fun t e =>
    let a := as.getD e.1 ⟨Block.blank 0, false⟩
    let b := bs.getD e.2 ⟨Block.blank 0, false⟩
    t.update e.1 e.2 (mmaStep k (t.el e.1 e.2) a.b b.b) (a.p || b.p)) t

/-- ROWPROG at a command's start, and its next block (R228). -/
def startRowprog (r : RunCmd) (t kb ks : Nat) : Eng Unit := modify fun s =>
  s.modCluster s.cmd.ck fun c => { c with rowprog := ⟨BitVec.ofNat 16 (tcwTag r.cmd.w0), t, false, true, kb, ks⟩ }
def nextRowprog (n : Nat) : Eng Unit := modify fun s => s.modCluster s.cmd.ck fun c => { c with rowprog := { c.rowprog with next := n } }

/-- The steps of MMA and CELLP: the first sets ROWPROG and takes the tile, each further one applies block KSTART + prog. -/
def blockStep (r : RunCmd) (i : Instr) (t kb ks : Nat) (f : Who → Nat → Tile → Eng Tile) : Eng Bool :=
  onTile r t i (startRowprog r t kb ks) fun x => do
  let b := ks + r.prog
  let y ← f (r.who (← get)) b x
  let hit ← mishapNow
  putTile t { y.struck hit with live := true }
  nextRowprog (b + 1)
  setProg (r.prog + 1)
  pure (decide (kb ≤ b + 1))

/-- MMA (R239). -/
def execMma (tile : Fin 4) (sx : Sx) (a b : OpaOperand) (kb kstart : Nat) (s : State) : Out :=
  command (fun r => blockStep r (.mma tile sx a b kb kstart) tile kb kstart fun w n x => do
    let as ← (List.range x.rows).mapM fun i => readBlock w false sx a n i
    let bs ← (List.range x.cols).mapM fun i => readBlock w true sx b n i
    let fl := (as ++ bs).foldl (fun f e => f ||| e.2) 0
    pure ((x.mmaBlock (sxK sx) (as.map Prod.fst) (bs.map Prod.fst)).flag fl)) s

/-! ## CELLP (R240) -/

/-- The larger or smaller of two W36 codes under the rules of VMAX and VMIN. -/
def w36Pick (max : Bool) (a b : W36) : W36 :=
  let x := w36Value a
  let y := w36Value b
  if x.isNan then (if y.isNan then w36NaN else b) else if y.isNan then a else if firstOf max x y then a else b

/-- The result of a micro-op on X, Y and the old D, with OV and INV. -/
def microStep (op : Nat) (x y d : W36) : W36 × Byte :=
  let vx := w36Value x
  let vy := w36Value y
  let fin (ops : List Val) (v : Val) : W36 × Byte :=
    let r := w36OfVal .rne v
    (r.1, (if r.2 &&& fOFL = fOFL then tOV else 0) ||| (if v.isNan && !ops.any Val.isNan then tINV else 0))
  match op with
  | 1 => fin [vx, vy] (vx.add .rne vy)
  | 2 => fin [vx, vy] (vx.add .rne vy.negate)
  | 3 => fin [vx, vy] (vx.mul vy)
  | 4 => fin [vx, vy] (w36Value (w36Pick true x y))
  | 5 => fin [vx, vy] (w36Value (w36Pick false x y))
  | 6 => fin [vx] vx
  | 7 => fin [vx] vx.negate
  | _ => fin [vx, vy, w36Value d] (vx.fma .rne vy (w36Value d))

/-- A cell program on a, b and s; `t` is the scratch value (R240). -/
def runCell (prog : W64) (a b : W36) : List Nat → W36 × W36 × Byte → W36 × W36 × Byte
  | [], st => st
  | i :: rest, (s, t, f) =>
    let m := microOp prog i
    if m.op = 0 then (s, t, f)
    else
      let src (k : Nat) : W36 := match k with | 0 => a | 1 => b | 2 => s | _ => t
      let d := if m.d = 0 then t else s
      let r := microStep m.op (src m.x) (src m.y) d
      runCell prog a b rest (if m.d = 0 then (s, r.1, f ||| r.2) else (r.1, t, f ||| r.2))

/-- One recurrence step of every cell: the new element, with INV where it becomes NaN. -/
def Tile.cellStep (t : Tile) (as bs : List (W36 × Bool)) : Tile :=
  t.cells.foldl (fun t e =>
    let a := as.getD e.1 (0, false)
    let b := bs.getD e.2 (0, false)
    let old := t.el e.1 e.2
    let r := runCell t.mprog a.1 b.1 [0, 1, 2, 3] (old, w36Zero false, 0)
    let inv := if (w36Value r.1).isNan && !(w36Value old).isNan then tINV else 0
    t.update e.1 e.2 (r.1, r.2.2 ||| inv) (a.2 || b.2)) t

/-- CELLP (R240). -/
def execCellp (tile : Fin 4) (a b : OpaOperand) (kb kstart : Nat) (s : State) : Out :=
  command (fun r => blockStep r (.cellp tile a b kb kstart) tile kb kstart fun w n x => do
    let cols ← (List.range 16).mapM fun j => do
      let as ← (List.range x.rows).mapM fun i => readEl w false a i (16 * n + j)
      let bs ← (List.range x.cols).mapM fun i => readEl w true b i (16 * n + j)
      pure (as, bs)
    let wide (l : List (Val × Bool)) : List (W36 × Bool) := l.map fun e => ((w36OfVal .rne e.1).1, e.2)
    pure (cols.foldl (fun t c => t.cellStep (wide c.1) (wide c.2)) x)) s

/-! ## ACZERO and ACCFG (R241) -/

/-- The value of FILL. -/
def fillOf (f : Fin 3) : W36 := if f = 0 then w36Zero false else w36Inf (f == 1)

/-- ACZERO (R241). -/
def execAczero (tile : Fin 4) (rel : Bool) (fill : Fin 3) (s : State) : Out :=
  command (fun r => do
    let x ← takeTile r tile (.aczero tile rel fill)
    let y := x.cleared (fillOf fill)
    putTile tile (if rel then y.release else y)
    pure true) s

/-- ACCFG (R241). -/
def execAccfg (tile : Fin 4) (z rec_ : Bool) (colm1 rowm1 : Fin 128) (mprog : W64) (s : State) : Out :=
  command (fun r => do
    let x ← takeTile r tile (.accfg tile z rec_ colm1 rowm1 mprog)
    let new := (rowm1.val, colm1.val, rec_, mprog)
    putTile tile (if z then (x.cleared (w36Zero false)).configure new else if x.live then x else x.configure new)
    pure true) s

/-! ## ACDRAIN, ACLOAD, ACSTAT (R242 to R244) -/

/-- An element in a drain format, and whether a finite value was clamped (R242). -/
def drainEl (f : DrainFmt) (v : W36) : Nat × Bool :=
  let x := w36Value v
  let conv (g : FF) : Nat × Bool :=
    if x.isFin ∧ (g.value g.top).cmp x.abs < 0 then (g.signed x.neg g.top, true) else ((g.ofVal .rne x).1, false)
  match f with
  | .w36 => (v.toNat, false)
  | .fp32 => conv FF.fp32
  | .bf16 => conv FF.bf16
  | .fp16 => conv FF.fp16

/-- ACDRAIN (R242): one row at a step, then the status word, then Z and REL. -/
def execAcdrain (tile : Fin 4) (rel z : Bool) (fmt : DrainFmt) (base str : Nat) (s : State) : Out :=
  command (fun r => onTile r tile (.acdrain tile rel z fmt base str) (pure ()) fun x => do
    let w := r.who (← get)
    if r.prog < x.rows then
      let es := (List.range x.cols).map fun c => (drainEl fmt (x.el r.prog c), x.elPois r.prog c)
      writeBytes w (base + r.prog * str) (es.flatMap fun e => pbytes (drainSize fmt) e.1.1 e.2)
      putTile tile (if es.any fun e => e.1.2 then x.flag tSAT else x)
      setProg (r.prog + 1)
      pure false
    else
      writeBytes w (base + x.rows * str) (pbytes 8 x.word.toNat false)
      let y := if z then x.cleared (w36Zero false) else x
      putTile tile (if rel then y.release else y)
      pure true) s

/-- The columns of one row of an image put into a tile (R243). -/
def Tile.loadRow (t : Tile) (w36 : Bool) (row : Nat) (bs : List PByte) : Tile :=
  let z := if w36 then 8 else 4
  (List.range t.cols).foldl (fun t c =>
    let e := (bs.drop (z * c)).take z
    let v : W36 := if w36 then BitVec.ofNat 36 (pnum e) else (w36OfVal .rne (FF.fp32.value (pnum e))).1
    t.setEl row c v (ppois e)) t

/-- The status word of an image read, once (R243): where its configuration is not the tile's the command ends with 0x05, and the tile is as it was. -/
def loadStatus (r : RunCmd) (tile : Nat) (x : Tile) (at_ : Nat) : Eng Bool := do
  let bs ← readBytes (r.who (← get)) at_ 8
  let st := pdw bs 0
  if fld st 36 7 == x.rowm1 && fld st 43 7 == x.colm1 && fld st 50 2 == x.isRec.toNat then
    modify fun s => s.modRun fun r => { r with aux := [0, fld st 0 8, (ppois bs).toNat] }
    pure false
  else
    putTile tile (if r.aux = [1] then x.release else x)
    fail 5

/-- ACLOAD (R243): the status word first, then one row at a step. -/
def execAcload (tile : Fin 4) (w36 : Bool) (base str : Nat) (s : State) : Out :=
  command (fun r => onTile r tile (.acload tile w36 base str) (pure ()) fun x => do
    if r.aux.length = 1 then loadStatus r tile x (base + x.rows * str)
    else if r.prog < x.rows then
      let row ← readBytes (r.who (← get)) (base + r.prog * str) (x.cols * (if w36 then 8 else 4))
      putTile tile { x.loadRow w36 r.prog row with live := true }
      setProg (r.prog + 1)
      pure false
    else
      let dirty := r.aux.getD 2 0 == 1 || x.cells.any fun e => x.elPois e.1 e.2
      putTile tile { x with live := true, flags := BitVec.ofNat 8 (r.aux.getD 1 0) ||| (if dirty then tPSN else 0) }
      pure true) s

/-- ACSTAT (R221, R244): it takes no tile, and another job's tile ends it with 0x04. -/
def execAcstat (tile : Fin 4) (base : Nat) (s : State) : Out :=
  command (fun r => do
    let s ← get
    must (!(s.tileAt s.cmd.ck tile).foreign r.cmd.job) 4
    writeBytes (r.who s) base (pbytes 8 (s.tileAt s.cmd.ck tile).word.toNat false ++ pbytes 8 (s.rowprogWord s.cmd.ck).toNat false)
    pure true) s

/-! ## Retirement and removal (R229) -/

/-- The tiles' contents lost: they are free and clear. -/
def State.loseTiles (s : State) (ck : Nat) : State := s.modCluster ck fun c => { c with tiles := [] }
/-- A removed job's tiles cleared and freed. -/
def State.freeTiles (s : State) (ck job : Nat) : State :=
  (List.range 4).foldl (fun s t => s.modTile ck t fun x => if x.foreign job || x.free then x else (x.cleared (w36Zero false)).release) s

end Sys2Proof.Machine
end

