-- ==== Sys2Proof/Machine/Ne.lean ====
section
/-! DEFINITION. The network engine: routes and ports (R328), packets, acknowledgements and resends (R329, R383), the resend store (R330), LCMP and
RCMP (R331), errors (R332), the class 5 commands (R333, R335), handler messages (R334), statistics (R337), matching (R382). -/

namespace Sys2Proof.Machine

/-! ## Statistics, routes, CRC -/

/-- A statistic of a die's NE advanced (R337). -/
def State.neStat (s : State) (die off : Nat) : State := s.modDie die fun d => { d with stats := d.stats.set 0 off (d.stats.get 0 off + 1) }

/-- The die whose NE drives an Ethernet port: H0, H1, P0 to P15 from number 0 on (R18). -/
def portDie (b : Nat) : Nat := if b = 0 then 0 else if b = 1 then 1 else if b < 8 then 0 else if b < 14 then 1 else 2
/-- The ports of a module's route that are up (R328, R372; the mask holds H0, H1, P0 to P15 from bit 16 on). -/
def State.neUp (s : State) (die dmod : Nat) : List Nat :=
  (List.range 18).filter fun b => !s.ports.has b &&
    (s.dieAt die).route.any fun e => fld e.2 63 1 == 1 && fld e.2 0 16 == dmod && fld e.2 (16 + b) 1 == 1
/-- Whether a module can be reached: the own one, or by a route with a port that is up (R328). -/
def State.neRoute (s : State) (die dmod : Nat) : Bool := dmod == s.modid.toNat || !(s.neUp die dmod).isEmpty

/-- One bit and one byte of a CRC32C. -/
def crcBit (c : W32) : W32 := if c.getLsbD 0 then (c >>> 1) ^^^ 0x82F63B78#32 else c >>> 1
def crcByte (c : W32) (b : Byte) : W32 := (List.range 8).foldl (fun c _ => crcBit c) (c ^^^ b.setWidth 32)
/-- The CRC32C of a payload (R329). -/
def crc32c (bs : List Byte) : W32 := ~~~(bs.foldl crcByte 0xFFFFFFFF#32)

/-! ## Messages being sent -/

/-- How many packets carry n bytes (R329). -/
def packetsOf (len psize : Nat) : Nat := max 1 ((len + psize - 1) / psize)
def NeTx.total (t : NeTx) : Nat := packetsOf t.len t.psize
/-- The bytes of packet `num`. -/
def NeTx.size (t : NeTx) (num : Nat) : Nat := min t.psize (t.len - num * t.psize)
/-- Whether a message is the request of an NE.READ, whose bytes come back. -/
def NeTx.isRequest (t : NeTx) : Bool := t.cmd.isSome && match t.body with | .readData .. => true | _ => false
/-- Whether a message is copied into the resend store (R330). -/
def NeTx.short (t : NeTx) : Bool := decide (t.len ≤ 65536) && !t.isRequest
/-- The accesses of a message to its source, with one number for the messages of a command. -/
def NeTx.who (t : NeTx) : Who := ⟨t.ck, 0, t.job, 2 ^ 20 + t.grp, none⟩
/-- The die whose NE receives a message for the own module. -/
def NeTx.toDie (t : NeTx) (die : Nat) : Nat := match t.body with | .xsend .. => die | _ => dieOf t.dck

def State.txAt (s : State) (die mid : Nat) : Option NeTx := (s.dieAt die).tx.find? fun t => t.mid == mid
def State.modTx (s : State) (die mid : Nat) (f : NeTx → NeTx) : State :=
  s.modDie die fun d => { d with tx := d.tx.map fun t => if t.mid = mid then f t else t }
/-- A message gone, and with the last one of a command the side of a shadow region that the command kept (R149). -/
def State.dropTx (s : State) (die : Nat) (t : NeTx) : State :=
  let s := s.modDie die fun d => { d with tx := d.tx.filter fun x => x.mid != t.mid }
  if (s.dieAt die).tx.any fun x => x.grp == t.grp then s else s.unlatch t.job t.who.no

/-- The number of the die's next message. -/
def State.neNext (s : State) (die : Nat) : Nat := 4 * (s.dieAt die).txNext + die
/-- Messages appended to those of a die. -/
def State.neAdd (s : State) (die : Nat) (l : List NeTx) : State :=
  s.modDie die fun d => { d with tx := d.tx ++ l, txNext := d.txNext + l.length }
/-- Messages of a die in flight (R333). -/
def State.neFlying (s : State) (die : Nat) : Nat := ((s.dieAt die).tx.filter fun t => !t.waitRoom).length
/-- Bytes of the resend store in use (R330); the messages of one NE.XSEND share their snapshot. -/
def storeUsed (l : List NeTx) : Nat :=
  (l.zipIdx.filter fun e => !e.1.waitRoom && e.1.short && !((l.take e.2).any fun t => t.grp == e.1.grp && !t.waitRoom)).foldl (fun n e => n + e.1.len) 0

/-- A new message. -/
def NeTx.new (mid grp ck job : Nat) (cmd : Option QCmd) (f : NeFlags) (dmod dck : Nat) (body : Body) (len src : Nat) : NeTx :=
  { mid := mid, ck := ck, job := job, dmod := dmod, dck := dck, cmd := cmd, grp := grp, body := body, psize := f.psize, rod := f.rod, ackl := f.ackl,
    len := len, src := src, copy := none, crcs := [], sent := 0, acked := [], resends := [], timers := [], asked := [], waitRoom := true,
    lcmp := false, err := 0, started := 0, notReady := none, slot := none, parked := none, port := none }

/-- The end of a message for the command behind it (R331, R335): LCMP, or with LCMP counted the error recorded alone; the messages of
one command end it together. -/
def State.neEnd (s : State) (die : Nat) (t : NeTx) (code : Nat) : State :=
  match t.cmd with
  | none => s
  | some c =>
    if t.lcmp then (if code = 0 then s else s.modEng t.ck 5 fun e => e.record 0 (tcwTag c.w0) code)
    else
      let code := if t.err = 0 then code else t.err
      if (s.dieAt die).tx.any fun x => x.grp == t.grp then
        s.modDie die fun d => { d with tx := d.tx.map fun x => if x.grp = t.grp ∧ x.err = 0 then { x with err := code } else x }
      else s.endCmd t.ck 5 0 c code t.ck

/-- A notice to the other end of a message (R330, R332), for the own module. -/
def State.neNotice (s : State) (die : Nat) (t : NeTx) (b : Body) : State :=
  if t.dmod = s.modid.toNat then
    { s with flight := s.flight ++ [.pkt (t.toDie die) ⟨s.modid.toNat, t.mid, t.dck, t.job, 0, 1, 0, [], true, true, t.rod, none, b⟩ none 0] }
  else s

/-- A message ends in error (R329 to R334): the command behind it, the other end, a reply slot. -/
def State.neFail (s : State) (die mid code : Nat) : State :=
  match s.txAt die mid with
  | none => s
  | some t =>
    let s := (s.dropTx die t).freeSlotOf t.slot
    let s := if code = 0x11 ∧ t.isRequest = false then (s.neStat die 0x30).neNotice die t .srcmod else s
    let s := match t.body with
      | .readData req _ => if t.cmd = none ∧ code < 0x10 then s.neNotice die t (.refused req 0x14) else s
      | _ => s
    s.neEnd die t code

/-- A message whose every packet is acknowledged, or a read whose every byte is placed. -/
def State.neFinish (s : State) (die mid : Nat) : State :=
  match s.txAt die mid with
  | none => s
  | some t => (s.dropTx die t).neEnd die t 0

/-- The die whose NE sends a packet of a message: that of the port it takes (R18, R328). A message keeps its port while that is up, but for resends under
RUD, which may take any; which port of the route it is else stays free (log entry 70). -/
def State.nePort (s : State) (die : Nat) (t : NeTx) (kind : Nat) : State × Nat :=
  if t.dmod = s.modid.toNat then (s, die)
  else
    let up := s.neUp die t.dmod
    match (if kind ≠ 0 ∧ t.rod = false then none else t.port.filter up.contains) with
    | some p => (s, portDie p)
    | none => match up[Config.nePort s.freeN % up.length]? with
      | some p => ({ s.modTx die t.mid fun t => { t with port := some p } with freeN := s.freeN + 1 }, portDie p)
      | none => (s, die)

/-- A packet counted at the NE that sends it (R337): kind 0 the first time, 1 a resend, 2 a retry after "not ready". -/
def State.neCount (s : State) (die : Nat) (t : NeTx) (kind : Nat) : State :=
  let r := s.nePort die t kind
  let s := r.1.neStat r.2 0x00
  if kind = 0 then s else s.neStat r.2 0x10

/-- Under ROD a message that starts goes behind those of its die that have started: the list holds them in the order in which they were sent (R329). -/
def State.neStart (s : State) (die : Nat) (t : NeTx) : State :=
  if t.rod ∧ t.sent = 0 then
    s.modDie die fun d => { d with tx := d.tx.filter (fun x => x.mid != t.mid) ++ d.tx.filter fun x => x.mid == t.mid }
  else s

/-- Under ROD, the open message sent before one to the same module, job and cluster (R329). -/
def State.nePrev (s : State) (die : Nat) (t : NeTx) : Option Nat :=
  if t.rod then
    ((((s.dieAt die).tx.takeWhile fun x => x.mid != t.mid).filter fun x =>
      x.rod && !x.isRequest && x.dmod == t.dmod && x.job == t.job && x.dck == t.dck && decide (0 < x.sent)).map (·.mid)).getLast?
  else none

/-- A packet leaves (R329, R337). On the path to another module it leaves the model (log entry 71). -/
def State.neLeave (s : State) (die : Nat) (t : NeTx) (num : Nat) (data : List (Byte × Bool)) (kind : Nat) : State :=
  let s := (s.neCount die t kind).neStart die t
  let s := s.modTx die t.mid fun t =>
    { t with sent := max t.sent (num + 1), timers := t.timers.set 0 num s.time,
             crcs := if kind = 0 then t.crcs.set 0 num (crc32c (data.map Prod.fst)) else t.crcs,
             resends := if kind = 1 then t.resends.set 0 num (t.resends.get 0 num + 1) else t.resends }
  if t.dmod = s.modid.toNat then
    { s with flight := s.flight ++
        [.pkt (t.toDie die) ⟨s.modid.toNat, t.mid, t.dck, t.job, num, t.total, num * t.psize, data, true, true, t.rod, s.nePrev die t, t.body⟩ none 0] }
  else s

/-- The payload of a packet: from the copy, or from the source as it is now (R330). -/
def NeTx.payload (t : NeTx) (num : Nat) : Eng (Option (List PByte)) :=
  match t.copy with
  | some bs => pure (some ((bs.drop (num * t.psize)).take (t.size num)))
  | none => tryBytes t.who (t.src + num * t.psize) (t.size num)

/-- What a read of a message's source that cannot go on does: an error, a parked message, or nothing yet. -/
def State.neHalt (s : State) (die mid : Nat) : Halt → State
  | .err c => s.neFail die mid c
  | .park d pg va k t2 wr loc => (s.recordFault d pg va k t2 wr loc).modTx die mid fun t => { t with parked := some pg }
  | .stall => s

/-- One packet sent. A resend whose CRC differs from the first one ends the message with SRCMOD (R330). -/
def State.neSendPkt (s : State) (die mid num kind : Nat) : State :=
  match s.txAt die mid with
  | none => s
  | some t =>
    if t.parked.isSome then s
    else match (t.payload num).run s with
      | (.ok (some bs), u) =>
        if kind ≠ 0 ∧ t.copy = none ∧ crc32c (bs.map Prod.fst) ≠ t.crcs.get 0 num then s.neFail die mid 0x11 else u.neLeave die t num bs kind
      | (.ok none, _) => s.neFail die mid 2
      | (.error h, _) => s.neHalt die mid h

/-- The request of an NE.READ sent. -/
def State.neAskRead (s : State) (die : Nat) (t : NeTx) (daddr kind : Nat) : State :=
  let s := s.neCount die t kind
  let s := s.modTx die t.mid fun t =>
    { t with sent := 1, timers := t.timers.set 0 0 s.time, resends := if kind = 1 then t.resends.set 0 0 (t.resends.get 0 0 + 1) else t.resends }
  if t.dmod = s.modid.toNat then
    { s with flight := s.flight ++ [.readReq die ⟨s.modid.toNat, t.mid, t.ck, t.job, daddr, t.len, t.psize, t.rod⟩] }
  else s

/-- The address an NE.READ asks for: word 3 of its command. -/
def NeTx.asks (t : NeTx) : Nat := match t.cmd with | some c => fld c.w3 0 56 | none => 0

/-- The packets of a copied message sent, where it has a route. -/
def State.neSendAll (s : State) (die mid : Nat) : State :=
  match s.txAt die mid with
  | none => s
  | some t =>
    if s.neRoute die t.dmod then (List.range t.total).foldl (fun s k => s.neSendPkt die mid k 0) s else s.neFail die mid 0x15

/-- The messages of a command that wait to start are copied into the resend store, count LCMP without ACKL, and leave, where the store
and the die have room (R330, R331). -/
def State.neLaunch (s : State) (die grp : Nat) : State :=
  let l := (s.dieAt die).tx.filter fun t => t.grp == grp && t.waitRoom
  match l with
  | [] => s
  | t :: _ =>
    if t.parked.isSome ∨ 2 ^ 24 < storeUsed (s.dieAt die).tx + t.len ∨ 256 < s.neFlying die + l.length then s
    else
      let m : Eng (Option (List PByte)) := match t.copy with | some bs => pure (some bs) | none => tryBytes t.who t.src t.len
      match m.run s with
      | (.ok (some bs), u) =>
        let u := l.foldl (fun u (t : NeTx) =>
          u.modTx die t.mid fun x => { x with copy := some bs, waitRoom := false, started := s.time, lcmp := x.lcmp || !x.ackl }) u
        let u := match t.cmd with | some c => if t.ackl then u else (u.unlatch t.job t.who.no).endCmd t.ck 5 0 c 0 t.ck | none => u
        l.foldl (fun u (t : NeTx) => u.neSendAll die t.mid) u
      | (.ok none, _) => l.foldl (fun u (t : NeTx) => u.neFail die t.mid 2) s
      | (.error h, _) => s.neHalt die t.mid h

/-! ## The commands (R333, R335) -/

/-- A command's start: its route, and room among the messages in flight. -/
def neBegin (dmod n : Nat) : Eng State := do
  let s ← get
  let die := dieOf s.cmd.ck
  must (s.neRoute die dmod) 0x15
  if 256 < s.neFlying die + n then throw .stall else pure s

/-- The messages of a command handed over; a long one keeps its unit while packets are left to send. -/
def neSubmit (die : Nat) (t : NeTx) : Eng Bool := do
  modify fun s => s.neAdd die [t]
  if t.short then
    modify fun s => (s.neLaunch die t.mid).dropRun
    pure false
  else
    modify fun s => s.modTx die t.mid fun x => { x with waitRoom := false, started := s.time }
    modify fun s => s.modRun fun r => { r with aux := [t.mid], prog := 1 }
    pure false

/-- The next packet of a long message. -/
def neContinue (r : RunCmd) : Eng Bool := do
  let s ← get
  let die := dieOf s.cmd.ck
  let mid := r.aux.getD 0 0
  match s.txAt die mid with
  | none => modify State.dropRun
  | some t =>
    modify fun s => s.neSendPkt die mid t.sent 0
    let left : Bool := match (← get).txAt die mid with | some x => decide (x.sent < x.total) | none => false
    if !left then modify State.dropRun
  pure false

/-- NE.SEND (R333). -/
def execNeSend (f : NeFlags) (sbase : Nat) (dst : NeDst) (rq len : Nat) (imm : W32) (s : State) : Out :=
  command (fun r => do
    if r.prog = 0 then
      let s ← neBegin dst.mod 1
      let die := dieOf s.cmd.ck
      let mid := s.neNext die
      neSubmit die (NeTx.new mid mid s.cmd.ck r.cmd.job (some r.cmd) f dst.mod (dst.die * 64 + dst.cl) (.send rq imm len) len sbase)
    else neContinue r) s

/-- NE.POST (R333). -/
def execNePost (bbase blen crec rq : Nat) (s : State) : Out :=
  command (fun r => do
    modify fun s => (s.modCluster s.cmd.ck fun c => { c with recvs := c.recvs ++ [⟨r.cmd.job, rq, bbase, blen, crec, r.cmd⟩] }).dropRun
    pure false) s

/-- NE.WRITE (R333). -/
def execNeWrite (f : NeFlags) (sbase : Nat) (dst : NeDst) (rctr : Option Nat) (len daddr : Nat) (s : State) : Out :=
  command (fun r => do
    if r.prog = 0 then
      let s ← neBegin dst.mod 1
      let die := dieOf s.cmd.ck
      let mid := s.neNext die
      neSubmit die (NeTx.new mid mid s.cmd.ck r.cmd.job (some r.cmd) f dst.mod (dst.die * 64 + dst.cl) (.write daddr rctr len) len sbase)
    else neContinue r) s

/-- NE.READ (R333). -/
def execNeRead (f : NeFlags) (lbase dmod len daddr : Nat) (s : State) : Out :=
  command (fun r => do
    let s ← neBegin dmod 1
    let die := dieOf s.cmd.ck
    let mid := s.neNext die
    let t : NeTx := NeTx.new mid mid s.cmd.ck r.cmd.job (some r.cmd) f dmod s.cmd.ck (.readData mid len) len lbase
    let t : NeTx := { t with waitRoom := false, started := s.time }
    modify fun s => (((s.neAdd die [t]).neAskRead die t daddr 0)).dropRun
    pure false) s

/-- The numbers of the bits set in a doubleword. -/
def bitsOf (w : W64) : List Nat := (List.range 64).filter fun i => w.getLsbD i

/-- The descriptor of NE.XSEND: modules, clusters, offset and counter; none where it is malformed (R335, R392). -/
def xsendDesc (bs : List PByte) (len : Nat) : Option (List Nat × List Nat × Nat × Nat) :=
  let mods := bitsOf (pdw bs 0)
  let cls := bitsOf (pdw bs 1) ++ (bitsOf (pdw bs 2)).map (64 + ·) ++ (bitsOf (pdw bs 3)).map (128 + ·)
  let doff := fld (pdw bs 4) 0 22
  if ppois bs ∨ mods = [] ∨ cls = [] ∨ !only (pdw bs 4) [(0, 22), (32, 12)] ∨ [5, 6, 7].any (fun k => pdw bs k != 0) ∨ doff % 64 ≠ 0 ∨ 2 ^ 22 < doff + len
  then none else some (mods, cls, doff, fld (pdw bs 4) 32 12)

/-- NE.XSEND (R335): one message to each module, all from one snapshot. -/
def execNeXsend (f : NeFlags) (sbase xdesc len : Nat) (s : State) : Out :=
  command (fun r => do
    let s ← get
    match xsendDesc (← readBytes (r.who s) xdesc 64) len with
    | none => fail 0x16
    | some (mods, cls, doff, rctr) =>
      let die := dieOf s.cmd.ck
      if 256 < s.neFlying die + mods.length then throw .stall
      else
        let mid := s.neNext die
        let l := mods.zipIdx.map fun e => NeTx.new (mid + 4 * e.2) mid s.cmd.ck r.cmd.job (some r.cmd) f e.1 (cls.headD 0) (.xsend cls doff rctr len) len sbase
        modify fun s => ((s.neAdd die l).neLaunch die mid).dropRun
        pure false) s

/-- Whether a message answers a read of R333. -/
def NeTx.isAnswer (t : NeTx) : Bool := t.cmd.isNone && match t.body with | .readData .. => true | _ => false

/-- RESEND_STORE_COPY (R330): a message that waits finds room; the next packet of a long answer to a read, which reads its source afresh, leaves. -/
def execResendStoreCopy (die i : Nat) (s : State) : Out :=
  .next (match s.txAt die i with
    | some t => if t.waitRoom then s.neLaunch die t.grp else if t.isAnswer ∧ t.sent < t.total then s.neSendPkt die i t.sent 0 else s
    | none => s)

/-! ## Resends (R329, R333) -/

/-- Packet `pkt` of a message resent, under ROD with all that follow it; after 8 resends the message fails. -/
def State.neResend (s : State) (die mid pkt : Nat) : State :=
  match s.txAt die mid with
  | none => s
  | some t =>
    if 8 ≤ t.resends.get 0 pkt then s.neFail die mid 0x10
    else if t.isRequest then s.neAskRead die t t.asks 1
    else if t.rod then ((List.range t.sent).filter fun k => decide (pkt ≤ k)).foldl (fun s k => s.neSendPkt die mid k 1) s
    else s.neSendPkt die mid pkt 1

/-- The packets of a message that have left and are not acknowledged. -/
def NeTx.missing (t : NeTx) : List Nat := (List.range t.sent).filter fun k => !t.acked.has k

/-- NE_RETRANSMIT_TIMER (R329): 40 µs after a packet left unacknowledged it is resent, or in host-assisted mode the host is asked. -/
def execNeRetransmitTimer (die i pkt : Nat) (s : State) : Out :=
  .next (match s.txAt die i with
    | none => s
    | some t =>
      let due := !t.waitRoom && t.notReady.isNone && t.parked.isNone && !(t.asked.any fun a => a.2 == pkt) &&
        (if t.rod && !t.isRequest then t.missing.head? == some pkt else t.missing.contains pkt) && decide (t.timers.get 0 pkt + 40000 ≤ s.time)
      if !due then s
      else if s.assisted 7 then
        let s := s.post 0xD t.job die (w64 t.dmod) (w64 pkt) 0
        s.modTx die i fun t => { t with asked := t.asked ++ [(s.eseq, pkt)] }
      else s.neResend die i pkt)

/-- The host's answer on an expired timer (R329, R375); none where no timer awaits it. -/
def State.neAnswer (s : State) (eseq : Nat) (resend : Bool) : Option State :=
  [0, 1, 2].findSome? fun die =>
    ((s.dieAt die).tx.find? fun t => t.asked.any fun a => a.1 % 2 ^ 32 == eseq).map fun t =>
      let pkts := (t.asked.filter fun a => a.1 % 2 ^ 32 == eseq).map Prod.snd
      let s := s.modTx die t.mid fun t => { t with asked := t.asked.filter fun a => a.1 % 2 ^ 32 != eseq }
      if resend then pkts.foldl (fun s k => if t.acked.has k then s else s.neResend die t.mid k) s else s.neFail die t.mid 0x10

/-- NE_NOT_READY_RETRY (R333). -/
def execNeNotReadyRetry (die i : Nat) (s : State) : Out :=
  .next (match s.txAt die i with
    | some t =>
      if t.notReady.any (fun n => decide (n + 10000 ≤ s.time)) ∧ t.parked = none then
        t.missing.foldl (fun s k => s.neSendPkt die i k 2) (s.modTx die i fun t => { t with notReady := none })
      else s
    | none => s)

/-- NE_MATCH_TIMEOUT (R332). -/
def execNeMatchTimeout (die i : Nat) (s : State) : Out :=
  .next (match s.txAt die i with
    | some t => if t.notReady.isSome ∧ t.started + 100000000 ≤ s.time then s.neFail die i 0x12 else s
    | none => s)

/-- NE_ACK_ARRIVAL (R329, R383): an acknowledgement of the own module is one in flight. A SACK that first marks a packet four above a
missing one resends that one. -/
def State.neAck (s : State) (die : Nat) (a : Ack) : State :=
  let s := match a.kind with | .state => s.neStat die 0x18 | _ => s
  let die := a.mid % 4
  match s.txAt die a.mid with
  | none => s
  | some t =>
    if a.src ≠ t.dmod ∨ t.waitRoom ∨ t.isRequest then s  -- at the NE of a port, for a message of another die's (R328)
    else match a.kind with
      | .notReady => s.modTx die a.mid fun t => { t with notReady := some (t.notReady.getD s.time) }
      | .failed c => s.neFail die a.mid c
      | .state =>
        let marks := (List.range t.sent).filter fun k => decide (k < a.cum) || (decide (a.cum ≤ k) && decide (k < a.cum + 64) && a.sack.getLsbD (k - a.cum))
        let acked := marks.foldl NSet.add t.acked
        let above (l : NSet) (k : Nat) : Bool := l.any fun j => decide (k + 4 ≤ j)
        let s := s.modTx die a.mid fun t => { t with acked := acked }
        if (List.range t.total).all acked.has then s.neFinish die a.mid
        else if t.rod then s
        else ((List.range t.sent).filter fun k => !acked.has k && above acked k && !above t.acked k).foldl (fun s k => s.neResend die a.mid k) s

/-- The first entry of a list that passes, taken out of it. -/
def takeFirst {α : Type} (p : α → Bool) : List α → Option (α × List α)
  | [] => none
  | x :: t => if p x then some (x, t) else (takeFirst p t).map fun r => (r.1, x :: r.2)

def execNeAckArrival (die : Nat) (a : Ack) (s : State) : Out :=
  .next (if a.src = s.modid.toNat then
      match takeFirst (fun f => f == .ack die a) s.flight with
      | some (_, fl) => { s with flight := fl }.neAck die a
      | none => s
    else s.neAck die a)

/-- PORT_STATE_CHANGE (R328): a message whose every port is down ends with 0x15. -/
def execPortStateChange (port : Fin 18) (up : Bool) (s : State) : Out :=
  let s := { s with ports := if up then s.ports.del port else s.ports.add port }
  .next ([0, 1, 2].foldl (fun s die =>
    ((s.dieAt die).tx.filter fun t => !t.waitRoom && !s.neRoute die t.dmod).foldl (fun s (t : NeTx) => s.neFail die t.mid 0x15) s) s)

/-! ## Messages being received -/

def State.rxAt (s : State) (die src mid : Nat) : Option NeRx := (s.dieAt die).rx.find? fun x => x.src == src && x.mid == mid
/-- A record of a message put in its place. -/
def State.putRx (s : State) (die : Nat) (x : NeRx) : State :=
  s.modDie die fun d =>
    { d with rx := if d.rx.any (fun y => y.src == x.src && y.mid == x.mid) then d.rx.map fun y => if y.src = x.src ∧ y.mid = x.mid then x else y else d.rx ++ [x] }

/-- The number of a message among the commands of the module, for the sides of shadow regions. -/
def NeRx.no (x : NeRx) : Nat := 2 ^ 40 + x.mid * 2 ^ 16 + x.src
/-- How many packets from 0 on have arrived without a gap. -/
def gapFree (got : NSet) : Nat → Nat → Nat
  | 0, k => k
  | n + 1, k => if got.has k then gapFree got n (k + 1) else k
def NeRx.cum (x : NeRx) : Nat := gapFree x.got x.total 0

/-- The acknowledgement of a packet (R329, R383); to another module it leaves the model (log entry 71). -/
def State.neReply (s : State) (p : Packet) (x : Option NeRx) (kind : AckKind) : State :=
  let cum := match x with | some x => x.cum | none => 0
  let sack := match x with | some x => BitVec.ofNat 64 (x.got.foldl (fun a k => if cum ≤ k ∧ k < cum + 64 then a + 2 ^ (k - cum) else a) 0) | none => 0
  if p.src = s.modid.toNat then { s with flight := s.flight ++ [.ack (p.mid % 4) ⟨s.modid.toNat, p.mid, cum, sack, kind⟩] } else s

/-- Bytes placed at an address; false where an access is refused. -/
def placeAt (w : Who) (va : Nat) (bs : List PByte) : Eng Bool := tryWrites w va bs (pieces va bs.length)

/-- The bytes placed at each cluster of an NE.XSEND. -/
def placeEach (no job off : Nat) (bs : List PByte) : List Nat → Eng Bool
  | [] => pure true
  | c :: t => do if ← placeAt ⟨c, 0, job, no, none⟩ (0x400000 + off) bs then placeEach no job off bs t else pure false

/-- The accesses of a message at its receiver. -/
def NeRx.who (x : NeRx) : Who := ⟨x.ck, 0, x.job, x.no, none⟩

/-- The placement of a packet (R329). -/
def NeRx.place (x : NeRx) (p : Packet) : Eng Bool :=
  match x.body with
  | .write daddr _ _ => placeAt x.who (daddr + p.off) p.data
  | .xsend cls doff _ _ => placeEach x.no x.job (doff + p.off) p.data cls
  | .handler .. => pure true
  | _ => match x.target with
    | some t => placeAt x.who (t.base + p.off) p.data
    | none => pure false

/-- The record of NE.POST (R333). -/
def NeRx.record (x : NeRx) (code : Nat) : Eng Bool :=
  match x.body, x.target with
  | .send _ imm len, some t =>
    placeAt x.who t.crec (pbytes 8 (imm.toNat * 2 ^ 32 + len) false ++ pbytes 8 (code * 2 ^ 16 + x.src) false)
  | _, _ => pure true

/-- The error of a placement that is refused (R226, R332): 0x14 where the sender named the address. -/
def refusalOf : Body → Nat → Nat
  | .write .., _ => 0x14
  | .xsend .., _ => 0x14
  | _, c => c

/-- The words of a handler message. -/
def msgOf (h0 h1 : W64) (bs : List PByte) : Msg :=
  let n := bs.length / 8
  ⟨h0, h1, (List.range n).map fun k => pdw bs k, (List.range n).map fun k => ppois ((bs.drop (8 * k)).take 8)⟩

/-- A handler message or reply of another module at its HQM (R334). -/
def State.neHandler (s : State) (ck : Nat) (m : Msg) : State :=
  if hVn m.h0 then s.landReply m else s.deliver ck m (hUrg m.h0) true (coreField m.h0)

/-- The end of a message at its receiver (R331, R333, R335): the receive or read it fills, or the counter it names. -/
def State.neDone (s : State) (die : Nat) (x : NeRx) (p : Packet) (code : Nat) : State :=
  let s := (s.putRx die { x with done := true, err := code }).unlatch x.job x.no
  match x.body with
  | .send .. => match x.target with | some t => s.endCmd x.ck 5 0 t.cmd code x.ck | none => s
  | .readData req _ => if code = 0 then s.neFinish (dieOf x.ck) req else s.neFail (dieOf x.ck) req code
  | .write _ (some c) _ => if code = 0 then s.counterUpdate x.ck x.job c (.add 1) else s
  | .xsend cls _ c _ => if code = 0 then cls.foldl (fun s k => s.counterUpdate k x.job c (.add 1)) s else s
  | .handler h0 h1 => if code = 0 then s.neHandler x.ck (msgOf h0 h1 p.data) else s
  | _ => s

/-- A packet without contents, for an end that no packet brings. -/
def noPacket : Packet := ⟨0, 0, 0, 0, 0, 1, 0, [], true, true, false, none, .srcmod⟩

/-- A message ends in error at its receiver: the record is filled first, and the end waits while it cannot be written. -/
def State.neEndRx (s : State) (die : Nat) (x : NeRx) (code : Nat) : State :=
  match (x.record code).run s with
  | (.ok _, t) => t.neDone die x noPacket code
  | (.error (.park d pg va k t2 wr loc), _) => (s.recordFault d pg va k t2 wr loc).putRx die { x with err := code }
  | (.error _, _) => s.putRx die { x with err := code }

/-- The record of a new message (R332, R333, R382), or the answer that turns it away. The first packet that answers a read acknowledges its
request (log entry 70). -/
def State.neOpen (s : State) (die : Nat) (p : Packet) : Except AckKind (State × NeRx) :=
  let x : NeRx := ⟨p.src, p.mid, p.ck, p.job, p.body, p.total, [], none, s.time, false, p.rod, 0⟩
  let j := s.jobAt p.job
  let here := !(j.jstate == 0 || j.jstate == 3)
  match p.body with
  | .handler .. => .ok (s.putRx die x, x)
  | .send rq _ len =>
    if !(here && j.place.has p.ck) then .error (.failed 0x14)
    else match takeFirst (fun r => r.job == p.job && r.rq == rq) (s.clusterAt p.ck).recvs with
      | none => .error .notReady
      | some (r, l) =>
        let x : NeRx := { x with target := some r, err := if r.len < len then 0x13 else 0 }
        .ok ((s.modCluster p.ck fun c => { c with recvs := l }).putRx die x, x)
  | .write _ c _ =>
    if here && j.place.has p.ck && (match c with | some c => decide (c < j.img.allot) | none => true) then .ok (s.putRx die x, x) else .error (.failed 0x14)
  | .xsend cls doff c len =>
    if here && decide (c < j.img.allot) && cls.all (fun k => j.place.has k && match s.runOf k p.job with | some r => decide (doff + len ≤ r.n * 65536) | none => false)
    then .ok (s.putRx die x, x) else .error (.failed 0x14)
  | .readData req _ =>
    match s.txAt (dieOf p.ck) req with
    | some t =>
      match t.cmd with
      | some c =>
        if t.isRequest ∧ t.job = p.job then
          let x : NeRx := { x with target := some ⟨t.job, 0, t.src, t.len, 0, c⟩ }
          .ok ((s.modTx (dieOf p.ck) req fun t => { t with acked := t.acked.add 0 }).putRx die x, x)
        else .error (.failed 0x14)
      | none => .error (.failed 0x14)
    | none => .error (.failed 0x14)
  | _ => .error (.failed 0x14)

/-- Whether a ROD packet stands above a gap: of its message, or behind a message before it that is not complete here (R329). -/
def State.aboveGap (s : State) (die : Nat) (p : Packet) (x : NeRx) : Bool :=
  p.rod && (decide (x.cum < p.num) || match p.prev with
    | some m => !((s.rxAt die p.src m).any fun y => y.done)
    | none => false)

/-- A packet of a message with its record: placed, counted, and with the last one the message's end (R329, R331). `orig` is the state
that a placement that must wait leaves. A duplicate counts (R337), and one of a message that has ended without error is placed where it can be, and
acknowledged (R383). -/
def State.neInto (s : State) (orig : State) (die : Nat) (p : Packet) (x : NeRx) (seen : Nat) : State :=
  let dup (t : State) : State := if x.got.has p.num then t.neStat die 0x28 else t
  let x : NeRx := if x.done then x else { x with last := s.time }
  let bad (c : Nat) : State :=
    if x.done then (dup s).neReply p (some x) .state else ((dup s).neEndRx die x c).neReply p none (.failed c)
  if x.done ∧ x.err ≠ 0 then (dup s).neReply p none (.failed x.err)
  else if s.aboveGap die p x then (s.putRx die x).neReply p (some x) .state
  else if x.err ≠ 0 then bad x.err
  else if seen = 2 then bad (refusalOf x.body 1)
  else
    let y : NeRx := { x with got := x.got.add p.num }
    let whole := !x.done && y.got.length == x.total
    let m : Eng (Bool × Bool) := do
      let a ← x.place p
      let b ← if a && whole then x.record 0 else pure true
      pure (a, b)
    match m.run s with
    | (.ok (false, _), _) => bad (refusalOf x.body 2)
    | (.ok (true, rec), t) =>
      let t := t.putRx die y
      let t := if x.done then t.unlatch x.job x.no else t
      let t := dup t
      let t := if x.cum < p.num then t.neStat die 0x20 else t
      let t := if whole then t.neDone die y p (if rec then 0 else 2) else t
      t.neReply p (some y) .state
    | (.error (.park d pg va k t2 wr loc), _) =>
      let u := (s.recordFault d pg va k t2 wr loc).putRx die x
      { u with flight := u.flight ++ [.pkt die p (some pg) 1] }
    | (.error _, _) => orig

/-- A packet at an NE. -/
def State.neReceive (s : State) (orig : State) (die : Nat) (p : Packet) (seen : Nat) : State :=
  let notice : Bool := match p.body with | .srcmod => true | .refused .. => true | _ => false
  if !p.good ∨ p.total ≤ p.num then s.neStat die 0x40
  else
  let s := if seen = 0 ∧ notice = false then s.neStat die 0x08 else s
  if !p.supported then s.neStat die 0x48
  else match p.body with
    | .srcmod => match s.rxAt die p.src p.mid with
      | some x => if x.done then s else (s.neStat die 0x30).neEndRx die x 0x11
      | none => s
    | .refused req code => match s.txAt die req with
      | some t => if t.isRequest ∧ t.dmod = p.src then s.neFail die req code else s
      | none => s
    | _ =>
      match s.rxAt die p.src p.mid with
      | some x => s.neInto orig die p x seen
      | none => match s.neOpen die p with
        | .ok (t, x) => t.neInto orig die p x seen
        | .error .notReady => (s.neStat die 0x38).neReply p none .notReady
        | .error k => s.neReply p none k

/-- The die whose NE a packet reaches, where its body fixes one. -/
def packetFits (p : Packet) (die : Nat) : Bool :=
  match p.body with | .xsend .. => true | .srcmod => true | _ => die == dieOf p.ck

/-- NE_PACKET_ARRIVAL (R329): a packet of the own module, or one whose placement parked, is one in flight. -/
def execNePacketArrival (die : Nat) (p : Packet) (s : State) : Out :=
  .next (match takeFirst (fun f => match f with | .pkt d q none _ => d == die && q == p | _ => false) s.flight with
    | some (.pkt _ _ _ seen, fl) => { s with flight := fl }.neReceive s die p seen
    | _ => if p.src = s.modid.toNat ∨ 3 ≤ die ∨ packetFits p die = false then s else s.neReceive s die p 0)

/-- NE_RECEIVE_TIMEOUT (R329): 10 ms without a packet of message number i of the list; an end whose record waited is tried again. -/
def execNeReceiveTimeout (die i : Nat) (s : State) : Out :=
  .next (match (s.dieAt die).rx[i]? with
    | some x =>
      if x.done then s
      else if x.err ≠ 0 then s.neEndRx die x x.err
      else if x.last + 10000000 ≤ s.time then s.neEndRx die x 0x10 else s
    | none => s)

/-! ## Remote reads (R333) -/

/-- The answer to a read request, where one is being sent. -/
def State.readAnswer (s : State) (die : Nat) (r : ReadReq) : Option NeTx :=
  (s.dieAt die).tx.find? fun t => t.isAnswer && t.dmod == r.src && match t.body with | .readData req _ => req == r.mid | _ => false

/-- NE_READ_REQUEST_ARRIVAL (R333): the bytes are read and returned as a write, under the RUD rules; a request whose answer is being sent is a duplicate. The local
window is that of the cluster with the number of the one that asks (log entry 30). -/
def execNeReadRequestArrival (die : Nat) (r : ReadReq) (s : State) : Out :=
  let taken := takeFirst (fun f => f == .readReq die r) s.flight
  if (r.src == s.modid.toNat && taken.isNone) ∨ 3 ≤ die then .next s
  else
    let s := ((match taken with | some (_, fl) => { s with flight := fl } | none => s) : State).neStat die 0x08
    .next (match s.readAnswer die r with
      | some _ => s.neStat die 0x28
      | none =>
        let mid := s.neNext die
        let t : NeTx := NeTx.new mid mid r.ck r.job none ⟨r.psize, true, false⟩ r.src r.ck (.readData r.mid r.len) r.len r.daddr
        let j := s.jobAt r.job
        if j.jstate = 0 ∨ j.jstate = 3 then s.neNotice die t (.refused r.mid 0x14)
        else if t.short then (s.neAdd die [t]).neLaunch die mid
        else ((s.neAdd die [t]).modTx die mid fun x => { x with waitRoom := false, started := s.time }).neSendPkt die mid 0 0)

/-! ## Pages, and removal -/

/-- A page resolved, or its resolution failed: messages parked on it go on, or end with 0x01 (R115, R226). -/
def State.wakeNe (s : State) (die : Nat) (pg : PageKey) (ok : Bool) : State :=
  let s := (s.dieAt die).tx.foldl (fun s t =>
    if t.parked = some pg then (if ok then s.modTx die t.mid fun t => { t with parked := none } else s.neFail die t.mid 1) else s) s
  if ok then s
  else (s.dieAt die).rx.foldl (fun s x => if x.err ≠ 0 ∧ !x.done ∧ x.job = pg.job then s.neDone die x noPacket x.err else s) s

/-- A removed job's NE commands given up without any counter update, and its posted receives discarded (R333, R378). -/
def State.dropNe (s : State) (job : Nat) : State :=
  let s := [0, 1, 2].foldl (fun s die =>
    let s := ((s.dieAt die).tx.filter fun t => t.job == job && (t.cmd.isSome || match t.body with | .readData .. => true | _ => false)).foldl
      (fun s (t : NeTx) =>
        let s := (s.dropTx die t).freeSlotOf t.slot
        match t.parked with | some pg => s.dropWaiter (dieOf t.ck) pg | none => s) s
    s.modDie die fun d => { d with rx := d.rx.filter fun x => x.job != job, tx := d.tx.map fun t => if t.job = job then { t with slot := none } else t }) s
  (List.range 192).foldl (fun s ck => s.modCluster ck fun c => { c with recvs := c.recvs.filter fun r => r.job != job }) s

end Sys2Proof.Machine
end

