-- ==== Sys2Proof/Machine/Tts.lean ====
section
/-! DEFINITION. The tile-task scheduler (R230 to R235) and the instructions that reach the engines: ENGQ (R236), TPOST (R237), ENGST (R238). -/

namespace Sys2Proof.Machine

/-! ## Tile-task records -/

/-- A doubleword of a record. -/
def recDw (ws : List W64) (k : Nat) : W64 := ws.getD k 0
/-- NT: the number of TCWs, and the words of TCW t. -/
def recNt (ws : List W64) : Nat := fld (recDw ws 0) 10 2
def recTcw (ws : List W64) (t k : Nat) : W64 := recDw ws (8 + 4 * t + k)
/-- Mode, base and length of region i. -/
def recMode (ws : List W64) (i : Nat) : Nat := fld (recDw ws 0) (2 + 2 * i) 2
def recRBase (ws : List W64) (i : Nat) : Nat := (recDw ws (2 + 2 * i)).toNat
def recRLen (ws : List W64) (i : Nat) : Nat := (recDw ws (3 + 2 * i)).toNat

/-- Whether the header of a record is malformed (R231). -/
def recBad (ws : List W64) : Bool :=
  let nt := recNt ws
  !only (recDw ws 0) [(2, 6), (10, 2)] || recDw ws 1 != 0 || nt == 0 || nt == 3 ||
    (nt == 1 && (List.range 4).any fun k => recTcw ws 1 k != 0) ||
    (nt == 2 && tcwClass (recTcw ws 0 0) == tcwClass (recTcw ws 1 0)) ||
    (List.range 3).any fun i =>
      if recMode ws i = 0 then recRBase ws i != 0 || recRLen ws i != 0
      else decide (2 ^ 56 ≤ recRBase ws i ∨ 2 ^ 40 ≤ recRLen ws i ∨ recRLen ws i = 0 ∨ 2 ^ 56 < recRBase ws i + recRLen ws i)

/-- The projected tile that a class 0 TCW names (R224, R227). -/
def State.dimsOf (s : State) (ck : Nat) (w0 : W64) : Dims :=
  let t := s.projected ck (tcwCmdf w0 % 4)
  ⟨t.rows, t.cols⟩

/-- The subcode of the first check of R38 and R224 that a TCW for cluster `ck` fails. -/
def State.tcwCheck (s : State) (ck job : Nat) (w0 w1 w2 w3 : W64) : Option Nat :=
  tcwError (s.jobAt job).img.allot (!s.engGone ck (tcwClass w0)) (s.dimsOf ck w0) w0 w1 w2 w3

/-- The ENGFAULT value of a record (R38, R231): its header first, then TCW 0, then TCW 1 (log entry 24). -/
def State.recFault (s : State) (ck job : Nat) (ws : List W64) : Option W64 :=
  let one (t : Nat) : Option W64 :=
    (s.tcwCheck ck job (recTcw ws t 0) (recTcw ws t 1) (recTcw ws t 2) (recTcw ws t 3)).map (engTval (recTcw ws t 0))
  if recBad ws then some (engTval (recTcw ws 0 0) 8)
  else match one 0 with
    | some v => some v
    | none => if recNt ws = 2 then one 1 else none

/-! ## The pool (R232 to R234) -/

/-- The tiles that a record's OPA TCWs name. -/
def recTiles (ws : List W64) : List Nat :=
  ((List.range (recNt ws)).filter fun t => tcwClass (recTcw ws t 0) == 0).map fun t => tcwCmdf (recTcw ws t 0) % 4

/-- Whether two records conflict (R232). -/
def TtsRec.conflicts (a b : TtsRec) : Bool :=
  a.job == b.job &&
  ((List.range 3).any (fun i => (List.range 3).any fun j =>
      recMode a.words i != 0 && recMode b.words j != 0 && (recMode a.words i / 2 == 1 || recMode b.words j / 2 == 1) &&
      decide (recRBase a.words i < recRBase b.words j + recRLen b.words j ∧ recRBase b.words j < recRBase a.words i + recRLen a.words i)) ||
   (recTiles a.words).any fun t => (recTiles b.words).contains t)

/-- A pooled record that no older record of the pool conflicts with. -/
def Cluster.recReady (c : Cluster) (r : TtsRec) : Bool := r.st == .pooled && !c.tts.any fun q => decide (q.id < r.id) && q.conflicts r

/-- Whether an engine class is free (R234). -/
def State.classFree (s : State) (ck cls : Nat) : Bool :=
  let e := s.engAt ck cls
  e.q == [] && (cls != 4 || decide (e.runs.length < 4))

/-- The TCW of a record that would issue now: TCW 0 where both classes are free (R234); a retired class takes none, but a record all of
whose classes are retired meets 0x06. -/
def State.recPick (s : State) (ck : Nat) (r : TtsRec) : Option Nat :=
  let ts := List.range (recNt r.words)
  let live := ts.filter fun t => !s.engGone ck (tcwClass (recTcw r.words t 0))
  if live = [] then some 0 else live.find? fun t => s.classFree ck (tcwClass (recTcw r.words t 0))

/-- A record's TCW as a queued command. -/
def TtsRec.cmd (r : TtsRec) (t : Nat) : QCmd :=
  ⟨recTcw r.words t 0, recTcw r.words t 1, recTcw r.words t 2, recTcw r.words t 3, r.job, some r.id⟩

/-- The execution error that a TCW meets when it is issued from the pool, 0 for none (R226, R227): 0x06 where its engine is retired, 0x07 where a check of
R38 or R224 fails by now, 0x04 and 0x03 against the projected tile. -/
def State.issueError (s : State) (ck : Nat) (c : QCmd) : Nat :=
  let cls := tcwClass c.w0
  if s.engGone ck cls then 6
  else if (s.tcwCheck ck c.job c.w0 c.w1 c.w2 c.w3).isSome then 7
  else if cls ≠ 0 then 0
  else
    let t := s.projected ck (tcwCmdf c.w0 % 4)
    if t.foreign c.job then 4
    else if (match c.instr with | some i => t.broken i | none => false) then 3 else 0

/-- TTS_RECORD_ISSUE (R234). -/
def execTtsRecordIssue (ck : Nat) (s : State) : Out :=
  let c := s.clusterAt ck
  .next (match (c.tts.filter fun r => c.recReady r).findSome? fun r => (s.recPick ck r).map fun t => (r, t) with
    | none => s
    | some (r, t) =>
      let q := r.cmd t
      let e := s.issueError ck q
      if e ≠ 0 then (s.failLoad ck (tcwClass q.w0) q).endCmd ck (tcwClass q.w0) 0 q e ck
      else
        let s := s.modCluster ck fun c => { c with tts := c.tts.map fun x => if x.id = r.id then { x with st := .issued } else x }
        s.modEng ck (tcwClass q.w0) fun e => { e with q := e.q ++ [q] })

/-- A record put into the pool. -/
def State.pool (s : State) (ck job : Nat) (ws : List W64) : State :=
  s.modCluster ck fun c => { c with tts := c.tts ++ [⟨c.ttsNext, job, ws, .pooled⟩], ttsNext := c.ttsNext + 1 }

/-- A record that reaches the pool, or is spilled (R233). -/
def State.arriveRecord (s : State) (ck job : Nat) (ws : List W64) : State :=
  let j := s.jobAt job
  if j.gone then s
  else if j.placedOn ck ∧ (s.clusterAt ck).tts.length < 64 ∧ j.section ck 2 = [] then s.pool ck job ws
  else s.spill ck 2 job ⟨job, 0, false, none, false, none, ⟨0, 0, [], []⟩⟩ ws

/-- The message of a counter's record that is not posted (R235, R392): 0xFFF drops it and counts. Its header is that of a counter's message (R194), which
R235 does not say (DESIGN CHOICE, log entry 80). -/
def State.recordMessage (s : State) (ck job n : Nat) (ttra val : W64) : State :=
  let j := s.jobAt job
  if j.errh = 0xFFF then s.putJob job { j with postFault := j.postFault + 1 }
  else s.enqueue ck ⟨job, j.errh, false, none, true, none, ⟨0, 1#64 <<< 35, [val, ttra, w64 n], []⟩⟩

/-- The record of a counter's firing read at TTRA (R235): parked alone on a page that is not present. A TTRA that is no multiple of 128 makes the record a
malformed one, subcode 0x08 (the spec does not say: DESIGN CHOICE, log entry 80). -/
def State.postRecord (s : State) (k ck job n : Nat) (ttra : W64) : State :=
  let gone := { s with flight := s.flight.eraseIdx k }
  match (tryBytes ⟨ck, 0, job, 2 ^ 40, none⟩ ttra.toNat 128).run gone with
  | (.ok (some bs), t) =>
    let ws := (List.range 16).map (pdw bs)
    let bad := if ppois bs ∨ ttra.toNat % 128 ≠ 0 then some (engTval (recTcw ws 0 0) 8) else t.recFault ck job ws
    let t := t.unlatch job (2 ^ 40)
    match bad with
    | some v => t.recordMessage ck job n ttra v
    | none => t.arriveRecord ck job ws
  | (.ok none, t) => t.recordMessage ck job n ttra 8
  | (.error (.park die pg va kind t2 wr loc), _) =>
    { s.recordFault die pg va kind t2 wr loc with flight := s.flight.set k (.post ck job n ttra (some pg)) }
  | (.error _, _) => s

/-- TTS_RECORD_ARRIVAL (R233, R235). -/
def execTtsRecordArrival (k : Nat) (s : State) : Out :=
  .next (match s.flight[k]? with
    | some (.record _ ck _ job ws) => if mayArrive s.flight k then { s with flight := s.flight.eraseIdx k }.arriveRecord ck job ws else s
    | some (.post ck job n ttra none) => if (s.jobAt job).placedOn ck then s.postRecord k ck job n ttra else s
    | _ => s)

/-- The head of a job's post section moved into the pool, where an entry is free. -/
def State.refillPost (s : State) (ck job : Nat) : State :=
  let j := s.jobAt job
  match j.section ck 2 with
  | [] => s
  | e :: _ =>
    if (s.clusterAt ck).tts.length < 64 ∧ j.placedOn ck then
      let s := s.mergeEntry e.loc
      (s.putJob job { j with carafe := j.carafe.erase e, carFull := false }).pool ck job (s.carRec e)
    else s

/-- TTS_REFILL (R233): the heads of the post sections in increasing job id, one for each free entry. -/
def execTtsRefill (ck : Nat) (s : State) : Out := .next ((s.jobs.map Prod.fst).foldl (fun s job => s.refillPost ck job) s)

/-! ## ENGQ (R236) -/

/-- Bits of TILESTATE's TVAL. -/
def tileTval (w0 : W64) : W64 := w64 (tcwTag w0 * 2 ^ 20 + tcwCmd w0 * 2 ^ 12 + tcwClass w0 * 2 ^ 8 + tcwCmdf w0 % 4)

/-- The checks of a class 0 command against the projected tile (R227). -/
def tileChecks (s : State) (w0 : W64) (i : Option Instr) : Res Unit :=
  if tcwClass w0 ≠ 0 then .ok s ()
  else
    let t := s.projected s.ck (tcwCmdf w0 % 4)
    (check s (!t.foreign s.jid) 7 (engTval w0 0x10)).bind fun s _ =>
      check s (match i with | some i => !t.broken i | none => true) 8 (tileTval w0)

/-- ENGQ (R236). -/
def execEngq (rd : Reg) (vs : VReg) (s : State) : Out :=
  if vs = 15 then .next (illegal s (.engq rd vs))
  else
    let v := s.b.getV vs
    let w0 := dwOf v 0; let w1 := dwOf v 1; let w2 := dwOf v 2; let w3 := dwOf v 3
    finish ((check s (s.b.poisV vs == 0) 0x0E (w64 (32 + vs))).bind fun s _ =>
      match s.tcwCheck s.ck s.jid w0 w1 w2 w3 with
      | some c => .trap s 7 (engTval w0 c)
      | none =>
        (tileChecks s w0 (tcwInstr w0 w1 w2 w3 ⟨1, 1⟩)).bind fun s _ =>
          let e := s.engAt s.ck (tcwClass w0)
          if depthOf (tcwClass w0) ≤ e.q.length then .ok (s.modB fun b => b.setX rd 0 false) ()
          else .ok ((s.modEng s.ck (tcwClass w0) fun e => { e with q := e.q ++ [⟨w0, w1, w2, w3, s.jid, none⟩] }).modB fun b => b.setX rd 1 false) ())

/-! ## TPOST (R237) -/

/-- Local posts that the bank holds. -/
def Bank.localPosts (b : Bank) : Nat := (b.buf.filter fun e => match e.eff with | .record .. => e.sq.isNone | _ => false).length

/-- Four aligned 32-byte reads, from an address that a checked operation computes (R80). -/
def readRec (a : W64) (rs1 : Reg) (s : State) : Res (List W64 × Bool) :=
  let one (k : Nat) (s : State) : Res Got := s.read (a + w64 (32 * k)) 32 0 rs1
  (checked s).bind fun s _ => (one 0 s).bind fun s g0 => (one 1 s).bind fun s g1 => (one 2 s).bind fun s g2 => (one 3 s).bind fun s g3 =>
    .ok s ([g0, g1, g2, g3].flatMap fun g => (List.range 4).map fun k => w64 (g.v / 2 ^ (64 * k)), g0.p || g1.p || g2.p || g3.p)

/-- TPOST (R237). -/
def execTpost (rs1 rs2 : Reg) (s : State) : Out :=
  finish ((clean s [rs1, rs2]).bind fun s _ =>
    let a := s.b.getX rs1
    let t := s.b.getX rs2
    (check s (fld t 21 43 == 0 && fld t 0 12 == 0) 5 t).bind fun s _ =>
    (check s (fld t 20 1 == 1 || s.inPlace s.jid (fld t 18 2) (fld t 12 6)) 4 t).bind fun s _ =>
    (check s (a.toNat % 128 == 0) 2 a).bind fun s _ =>
    (readRec a rs1 s).bind fun s r =>
    (check s (!r.2) 0x0E 32).bind fun s _ =>
      let ck := if fld t 20 1 = 1 then s.ck else fld t 18 2 * 64 + fld t 12 6
      match s.recFault ck s.jid r.1 with
      | some v => .trap s 7 v
      | none =>
        if ck = s.ck then
          (needEntry s (decide (s.b.localPosts < 4)) t).bind fun s _ => .ok (s.bufferFree (.record ck r.1)) ()
        else (needEntry s (s.sqFreeTo s.cur) t).bind fun s _ => .ok (s.buffer (.record ck r.1)) ())

/-! ## ENGST (R238) -/

/-- ENGST (R238). -/
def execEngst (rd rs1 : Reg) (s : State) : Out :=
  finish ((clean s [rs1]).bind fun s _ =>
    let r := s.b.getX rs1
    let cls := fld r 0 4
    let unit := fld r 4 2
    let sel := fld r 8 1 == 1
    (check s (fld r 9 55 == 0 && fld r 6 2 == 0 && decide (cls ≤ 5) && (unit == 0 || cls == 4) && (!sel || cls == 0)) 5 r).bind fun s _ =>
      .ok (s.modB fun b => b.setX rd (if sel then s.rowprogWord s.ck else s.engWord s.ck cls unit) false) ())

end Sys2Proof.Machine
end

