-- ==== Sys2Proof/Machine/Paging.lean ====
section
/-! DEFINITION. Faults after they are recorded: the decision on an entry and the record for the host (R115, R117), ZF resolution and frame
pools (R393), the end of every wait on a page (R115, R116), migration (R362) and invalidation (R113); bank retention (R126) and the leaf
turn of a shadow region (R150). -/

namespace Sys2Proof.Machine

/-! ## Entries of a fault buffer (R114 to R117) -/

/-- The record of R117. -/
def FaultEnt.rec0 (f : FaultEnt) : W64 := w64 (f.va / 4096 % 2 ^ 44 * 4096 + f.wr.toNat * 16 + f.kind)
def FaultEnt.rec1 (f : FaultEnt) (die : Nat) : W64 := w64 (min f.waiters 0xFFFF * 2 ^ 48 + die * 2 ^ 15 + f.pg.job)

/-- Whether faults of a tier are left to the host (R115, R366). -/
def State.faultByHost (s : State) (t2 : Bool) : Bool := s.assisted (if t2 then 4 else 3)

/-- An entry that has come into the buffer of 4,096 is given its mode; the host is asked where it decides. A migrated page waits for its
migrator. -/
def State.decideFault (s : State) (die : Nat) (f : FaultEnt) : State :=
  let host := f.kind != 2 && s.faultByHost f.t2
  let s := s.modDie die fun d => { d with faults := d.faults.map fun g => if g.pg = f.pg then { g with mode := if host then 2 else 1 } else g }
  if host then s.post 3 f.pg.job die f.rec0 (f.rec1 die) 0 else s

/-- An entry leaves its buffer, and the fault-resolved message goes out: to the waiters of one die, or with die 3 to all (R115). -/
def State.resolve (s : State) (die : Nat) (pg : PageKey) (ok : Bool) (tgt : Nat) : State :=
  let s := s.modDie die fun d => { d with faults := d.faults.filter fun f => f.pg != pg }
  { s with flight := s.flight ++ [.resolved pg ok tgt] }

/-! ## Frames (R393) -/

/-- Whether a block of n bytes holds a byte of a channel that is to be retired, or is (R362). -/
def State.badFrame (s : State) (pa n : Nat) : Bool :=
  let us := (s.units.filter fun e => decide (7 * 2 ^ 28 ≤ e.1 ∧ e.1 < 9 * 2 ^ 28) && (e.2.st == .draining || e.2.st == .retired)).map Prod.fst
  us != [] && (List.range (n / 64)).any fun i => us.contains (channelOf (pa + 64 * i))

/-- The first free block of n bytes from `pa` on, of `fuel` blocks. -/
def State.firstFree (s : State) (taken : List (Nat × Nat)) (n : Nat) : Nat → Nat → Option Nat
  | 0, _ => none
  | fuel + 1, pa =>
    if taken.any (fun t => decide (t.1 < pa + n ∧ pa < t.1 + t.2)) ∨ s.badFrame pa n then s.firstFree taken n fuel (pa + n) else some pa

/-- The frame of n bytes that a job's pool gives next. -/
def State.frameFor (s : State) (job : Nat) (t2 : Bool) (n : Nat) : Option Nat :=
  let j := s.jobAt job
  let p := if t2 then j.pool2 else j.pool1
  let base := fld p 21 31 * 2 ^ 21
  let lo := (base + n - 1) / n * n
  s.firstFree j.taken n ((base + fld p 0 21 * 2 ^ 21 - lo) / n) lo

/-- Memory without the bytes and poison of a range. -/
def State.wipe (s : State) (lo n : Nat) : State :=
  { s with mem := s.mem.filter (fun e => !(decide (lo ≤ e.1 ∧ e.1 < lo + n))), pois := s.pois.filter (fun k => !(decide (lo ≤ k ∧ k < lo + n))),
           stale := freshAt s.stale lo n }

/-- A frame zero-filled: storage, second backing, commutative lines. -/
def State.zeroFrame (s : State) (pa n : Nat) : State :=
  let s := { s with comm := s.comm.filter fun c => !(decide (pa ≤ c.loc ∧ c.loc < pa + n)) }
  (s.wipe pa n).wipe (side1 pa) n

/-- A frame taken from a job's pool. -/
def State.takeFrame (s : State) (job pa n : Nat) : State := s.modJob job fun j => { j with taken := j.taken ++ [(pa, n)] }

/-- ZF_RESOLUTION (R115, R116): an entry that is present by now resolves; a ZF entry at L2 to L4 takes a zero-filled frame; anything
else fails. -/
def execZfResolution (die i : Nat) (s : State) : Out :=
  .next (match (s.dieAt die).faults[i]? with
    | none => s
    | some f =>
      let s := s.mergeLine f.loc
      if fld (s.dwAt f.loc) 0 1 = 1 then s.resolve die f.pg true 3
      else if f.mode ≠ 1 ∨ f.kind = 2 then s
      else
        let n := leafSize f.pg.lvl false
        match (if f.kind = 1 ∧ 2 ≤ f.pg.lvl then s.frameFor f.pg.job f.t2 n else none) with
        | none => s.resolve die f.pg false 3
        | some pa => ((((s.zeroFrame pa n).takeFrame f.pg.job pa n).poke f.loc (leBytes 8 (pa + 0xF)) false)).resolve die f.pg true 3)

/-! ## The end of a wait on a page (R115) -/

/-- Whether a wait is on a page, at a die or at any. -/
def Wait.onPage (w : Wait) (pg : PageKey) (tgt : Nat) : Bool :=
  match w with | .parked p die .. => p == pg && (tgt == 3 || die == tgt) | _ => false

/-- The bank that waits on a page walks again, or takes PAGEFAULT. One that has been pre-empted, and whose context is not yet saved, waits on it no
more: its access is made anew. -/
def State.wakeBankPage (s : State) (pg : PageKey) (ok : Bool) (tgt bk : Nat) : State :=
  let s := if (s.bankAt bk).owed.onPage pg tgt then s.modBank bk fun b => { b with owed := .none } else s
  match (s.bankAt bk).waitsFor with
  | .parked p die va _ _ _ =>
    if p = pg ∧ (tgt = 3 ∨ die = tgt) then (if ok then s.modBank bk Bank.again else (s.modBank bk Bank.unRedo).trapBank bk 3 (w64 va)) else s
  | _ => s

/-- The saved activations of a cluster that wait on a page become ready: their accesses are made anew. -/
def State.wakeSavedPage (s : State) (pg : PageKey) (tgt ck : Nat) : State :=
  ((s.clusterAt ck).saved.filter fun x => x.waits && x.bank.owed.onPage pg tgt).foldl (fun s x => s.wakeSaved ck x.idx) s

/-- Units in flight that wait on a page: they go on, or are dropped as their rules say. -/
def wakeFlight (pg : PageKey) (ok : Bool) (tgt : Nat) (f : Flight) : Option Flight :=
  let here (d : Nat) : Bool := tgt == 3 || d == tgt
  match f with
  | .atomic src ck p (some g) => if g = pg ∧ here (dieOf ck) then (if ok then some (.atomic src ck p none) else none) else some f
  | .post ck job c ttra (some g) => if g = pg ∧ here (dieOf ck) then (if ok then some (.post ck job c ttra none) else none) else some f
  | .pkt d p (some g) _ => if g = pg ∧ here d then some (.pkt d p none (if ok then 1 else 2)) else some f
  | _ => some f

/-- A posted update or record whose page failed. -/
def State.failFlight (s : State) (pg : PageKey) (tgt : Nat) (f : Flight) : State :=
  match f with
  | .atomic _ ck p (some g) => if g = pg ∧ (tgt = 3 ∨ dieOf ck = tgt) then s.postFault p.job else s
  | .post ck job c ttra (some g) => if g = pg ∧ (tgt = 3 ∨ dieOf ck = tgt) then s.recordMessage ck job c ttra 8 else s
  | _ => s

/-- Every access parked on a page, at one die or with die 3 at all, walks again or fails (R115, R116). -/
def State.faultResolved (s : State) (pg : PageKey) (ok : Bool) (tgt : Nat) : State :=
  let s := if tgt = 3 then [0, 1, 2].foldl (fun s d => s.modDie d fun x => { x with faults := x.faults.filter fun f => f.pg != pg }) s else s
  let s := (s.banks.map Prod.fst).foldl (fun s bk => s.wakeBankPage pg ok tgt bk) s
  let cks := (s.clusters.map Prod.fst).filter fun ck => tgt == 3 || dieOf ck == tgt
  let s := (s.clusters.map Prod.fst).foldl (fun s ck => s.wakeSavedPage pg tgt ck) s
  let s := cks.foldl (fun s ck => ([0, 1, 2, 3, 4, 5].foldl (fun s cls => s.wakeEngine ck cls pg ok) s).wakeFr ck pg ok) s
  let old := s.flight
  let s := { s with flight := s.flight.filterMap (wakeFlight pg ok tgt) }
  let s := if ok then s else old.foldl (fun s f => s.failFlight pg tgt f) s
  ([0, 1, 2].filter fun d => tgt == 3 || d == tgt).foldl (fun s d => s.wakeNe d pg ok) s

/-- FAULT_RESOLVED (R115): the broadcast arrives. -/
def execFaultResolved (k : Nat) (s : State) : Out :=
  .next (match s.takeFlight k with
    | some (.resolved pg ok tgt, s) => s.faultResolved pg ok tgt
    | _ => s)

/-- An entry that comes into the buffer: its table entry is read again, and accesses whose page is present by now resume at once (R116). -/
def State.enterFault (s : State) (die : Nat) (f : FaultEnt) : State :=
  let s := s.mergeLine f.loc
  if fld (s.dwAt f.loc) 0 1 = 1 then
    (s.modDie die fun d => { d with faults := d.faults.filter fun g => g.pg != f.pg }).faultResolved f.pg true die
  else s.decideFault die f

def State.decideFaults (s : State) : State :=
  [0, 1, 2].foldl (fun s die => (((s.dieAt die).faults.take 4096).filter fun f => f.mode == 0).foldl (fun s f => s.enterFault die f) s) s

/-! ## Migration (R362) -/

/-- The tables from one on as a reader of them leaves them: their lines merged (R132). -/
def State.mergeTable (s : State) : Nat → Nat → Nat → State
  | 0, _, _ => s
  | fuel + 1, l, table =>
    let n := if l = 0 then 256 else 512
    let s := (List.range (n / 8)).foldl (fun s k => s.mergeLine (table + 64 * k)) s
    (List.range n).foldl (fun s i => match s.tableEntry l (table + 8 * i) with
      | .pointer pa => s.mergeTable fuel (l + 1) pa
      | _ => s) s

/-- The leaves of a job's table (R108): level, whether large, physical address, first virtual address, and place of the entry. -/
def State.leaves (s : State) : Nat → Nat → Nat → Nat → List (Nat × Bool × Nat × Nat × Nat)
  | 0, _, _, _ => []
  | fuel + 1, l, table, va =>
    (List.range (if l = 0 then 256 else 512)).flatMap fun i =>
      let loc := table + 8 * i
      match s.tableEntry l loc with
      | .leaf big pa _ _ => [(l, big, pa, va + i * 2 ^ lvlShift l, loc)]
      | .pointer pa => s.leaves fuel (l + 1) pa (va + i * 2 ^ lvlShift l)
      | _ => []

/-- The tables of every job as a reader of them leaves them. -/
def State.mergeTables (s : State) : State :=
  ((s.jobs.filter fun e => e.2.jstate != 0).map fun e => e.2.root).foldl (fun s root => s.mergeTable 5 0 root) s

/-- The leaves of the jobs of the module. -/
def State.allLeaves (s : State) : List (Nat × Nat × Bool × Nat × Nat × Nat) :=
  s.jobs.flatMap fun e => if e.2.jstate = 0 then [] else (s.leaves 5 0 e.2.root 0).map fun l => (e.1, l)

/-- Whether a page of n bytes holds a byte of a channel. -/
def pageHolds (u pa n : Nat) : Bool := (List.range (n / 64)).any fun i => channelOf (pa + 64 * i) == u

/-- Whether some page of some job holds a byte of a channel. -/
def State.pagesHold (s : State) (u : Nat) : Bool :=
  (s.unitAt u).moving.isSome || s.allLeaves.any fun e => pageHolds u e.2.2.2.1 (leafSize e.2.1 e.2.2.1)

/-- Cells of a range put at another place. -/
def moveCells {α : Type} [DecidableEq α] (d : α) (m : FMap α) (lo n tgt : Nat) : FMap α :=
  (m.filter fun e => decide (lo ≤ e.1 ∧ e.1 < lo + n)).foldl (fun m e => FMap.set d m (tgt + (e.1 - lo)) e.2) m

/-- The contents of n bytes copied with their poison to a frame that is zero. -/
def State.copyFrame (s : State) (lo n tgt : Nat) : State :=
  { s with mem := moveCells 0 s.mem lo n tgt,
           pois := (s.pois.filter fun k => decide (lo ≤ k ∧ k < lo + n)).foldl (fun p k => p.add (tgt + (k - lo))) s.pois }

/-- The translations of a job that n bytes from an address meet, dropped from every cache (R113). -/
def State.invalidate (s : State) (job va n : Nat) : State :=
  { s with tlb := s.tlb.filter fun e =>
      !(e.job == job && decide (e.idx * leafSize e.lvl e.big < va + n ∧ va < (e.idx + 1) * leafSize e.lvl e.big)) }

/-- Whether an access that used a place of n bytes has not completed (R113): one that a stall holds. -/
def State.pageBusy (s : State) (pa n : Nat) : Bool := s.pend.any fun p => decide (physOf p.loc < pa + n ∧ pa < physOf p.loc + p.n)

/-- The entry of a page being migrated (R111). -/
def migEntry (old : Nat) : Nat := 2 + 8 * (inT2 old).toNat

/-- The first half of a move: a frame taken, and every entry of the page marked MIG = 1, so that accesses park (R111, R362). -/
def State.markMove (s : State) (u job lvl : Nat) (big : Bool) (old new va loc : Nat) : State :=
  let n := leafSize lvl big
  let group := if big then (List.range 16).map fun k => loc / 128 * 128 + 8 * k else [loc]
  let m : PageMove := ⟨job, va / n * n, n, old, new, group.map fun l => (l, (s.dwAt l).toNat % 4096)⟩
  (group.foldl (fun s l => (s.mergeLine l).poke l (leBytes 8 (migEntry old)) false) (s.takeFrame job new n)).modUnit u fun x =>
    { x with migneed := false, moving := some m }

/-- The second half, once no access that used the old leaf is left: the page copied, every entry written, the old leaf invalidated, and accesses
parked on the page resolved (R113, R115, R362). -/
def State.endMove (s : State) (u : Nat) (m : PageMove) : State :=
  let s := (s.comm.filter fun c => decide (m.old ≤ physOf c.loc ∧ physOf c.loc < m.old + m.n)).foldl (fun s c => s.mergeLine c.loc) s
  let s := ((s.zeroFrame m.new m.n).copyFrame m.old m.n m.new).copyFrame (side1 m.old) m.n (side1 m.new)
  let s := m.ents.foldl (fun s e => (s.mergeLine e.1).poke e.1 (leBytes 8 (e.2 + m.new)) false) s
  let s := (s.invalidate m.job m.va m.n).modUnit u fun x => { x with moving := none }
  let here : List (Nat × PageKey) := [0, 1, 2].flatMap fun die =>
    ((s.dieAt die).faults.filter fun f => m.ents.any fun e => e.1 == f.loc).map fun f => (die, f.pg)
  here.foldl (fun s e => s.resolve e.1 e.2 true 3) s

/-- A step of the migrator on a draining channel (R362): the move under way ends, or a page of the channel starts to move to a free frame of its
tier, or the host is told that there is none. -/
def State.migrate (s : State) (u job va : Nat) : State :=
  match (s.unitAt u).moving with
  | some m => if s.pageBusy m.old m.n then s else s.endMove u m
  | none =>
    let s := s.mergeTable 5 0 (s.jobAt job).root
    match (s.leaves 5 0 (s.jobAt job).root 0).find? fun l => decide (l.2.2.2.1 ≤ va ∧ va < l.2.2.2.1 + leafSize l.1 false) with
    | none => s
    | some (lvl, big, pa, lva, loc) =>
      let n := leafSize lvl big
      if pageHolds u pa n = false then s
      else match s.frameFor job (inT2 pa) n with
        | some new => s.markMove u job lvl big pa new lva loc
        | none =>
          if (s.unitAt u).migneed then s
          else (s.post 0xB job (u / 2 ^ 26 % 4) (w64 u) (if inT2 pa then 2 else 1) 0).modUnit u fun x => { x with migneed := true }

/-! ## Retention (R126) -/

/-- RETENTION_ENTRY (R126): a bank idle for IDLE µs starts to enter retention, and then is in it. -/
def execRetentionEntry (ck b : Nat) (s : State) : Out :=
  let c := s.clusterAt ck
  .next (if 16 ≤ b ∨ c.retEn = false ∨ c.inret.has b ∨ (s.unitAt (unitOf 6 ck b)).st ≠ .inService ∨
      s.pend.any (fun p => isSpad p.loc && spadCk p.loc == ck && spadBank p.loc == b) then s
    else if c.entering.has b then s.putCluster ck { c with entering := c.entering.del b, inret := c.inret.add b }
    else if c.lastAcc.get 0 b + c.retIdle * 1600 ≤ s.cycles then s.putCluster ck { c with entering := c.entering.add b }
    else s)

/-- RETENTION_EXIT (R126): the bank is back in service, and waiting accesses proceed. -/
def execRetentionExit (ck b : Nat) (s : State) : Out :=
  .next (s.modCluster ck fun c => { c with inret := c.inret.del b, entering := c.entering.del b, lastAcc := c.lastAcc.set 0 b s.cycles })

/-! ## The leaf turn (R150) -/

/-- The other side of a place of a shadow region. -/
def otherSide (loc : Nat) : Nat := if 2 ^ 58 ≤ loc then loc - 2 ^ 58 else side1 loc

/-- LEAF_TURN (R150): with TGT above GEN and no command that writes the hidden side, GEN advances; a load of the region that a stall holds reads the
side that is visible when it is performed (R149). -/
def execLeafTurn (job g : Nat) (s : State) : Out :=
  .next (match (s.jobAt job).regions[g]? with
    | some r =>
      if r.tgt = r.gen ∨ r.latches.any (fun l => l.2.2 && l.2.1 == (r.gen + 1) % 2) then s
      else { s.setRegion job g { r with gen := (r.gen + 1) % 2 ^ 48 } with
               pend := s.pend.map fun p =>
                 if p.job = job ∧ (regionAt (s.jobAt job).regions p.va).map Prod.fst = some g then { p with loc := otherSide p.loc } else p }
    | none => s)

end Sys2Proof.Machine
end

