-- ==== Sys2Proof/Machine/Str.lean ====
section
/-! DEFINITION. The streamer (R297, R298), its watermark channels (R299, R306) and the class 3 commands (R301 to R307). A command moves one
piece of a 64-byte granule at a step, any one that is left. -/

namespace Sys2Proof.Machine

/-! ## Pieces (R298) -/

/-- A piece of a copy: source, destination, bytes. -/
structure Piece where
  src : Nat
  dst : Nat
  n : Nat
  deriving DecidableEq, Repr

/-- A row split at the granule boundaries of its destination. -/
def rowPieces (src dst len : Nat) : List Piece := (pieces dst len).map fun p => ⟨src + (p.1 - dst), p.1, p.2⟩

/-- The pieces of rows. -/
def copyPieces (rows src dst len ss ds : Nat) : List Piece := (List.range rows).flatMap fun r => rowPieces (src + r * ss) (dst + r * ds) len

/-- Whether some row of n bytes at one stride meets one of another (R298; log entry 28). -/
def rangesMeet (ra a sa la rb b sb lb : Nat) : Bool :=
  (List.range ra).any fun i => (List.range rb).any fun j => decide (a + i * sa < b + j * sb + lb ∧ b + j * sb < a + i * sa + la)

/-- The pieces that are not done, with their numbers. -/
def leftOf {α : Type} (l : List α) (done : List Nat) : List (α × Nat) := l.zipIdx.filter fun e => !done.contains e.2

def addAux (l : List Nat) : Eng Unit := modify fun s => s.modRun fun r => { r with aux := r.aux ++ l }

/-- One piece copied, read and written as `rd` and `wr` say. -/
def movePiece (rd wr : Who) (p : Piece) : Eng Unit := do writeBytes wr p.dst (← readBytes rd p.src p.n)

/-- A step of a copy: any piece that is left; `true` when it was the last. -/
def copyStep (r : RunCmd) (wr : Who) (ps : List Piece) (after : Piece → List Piece → Eng Unit) : Eng Bool := do
  let l := leftOf ps r.aux
  match anyOf (← get) l with
  | none => pure true
  | some (p, i) =>
    movePiece { wr with fill := none } wr p
    addAux [i]
    after p ((l.filter fun e => e.2 != i).map Prod.fst)
    pure (decide (l.length ≤ 1))

/-! ## CP.GET and CP.PUT (R302) -/

/-- The check of CHV: the channel armed, the job's own, and every destination byte in its range. -/
def State.fillOk (s : State) (ck job ch rows dst len ds : Nat) : Bool :=
  let w := (s.clusterAt ck).wmAt ch
  w.armed && w.owner == some job &&
    (List.range rows).all fun r => decide (0x400000 + w.base ≤ dst + r * ds ∧ dst + r * ds + len ≤ 0x400000 + w.base + w.len)

/-- The granule of a piece filled once no other piece of the command touches it (R299). -/
def fillGranule (ck ch : Nat) (p : Piece) (left : List Piece) : Eng Unit :=
  modify fun s => s.modWm ck ch fun w =>
    let g := (p.dst - 0x400000 - w.base) / 64
    if left.any fun q => q.dst / 64 == p.dst / 64 then w else { w with bits := w.bits.add g }

/-- CP.GET (R298, R299, R302). -/
def execCpGet (rows sbase : Nat) (ch : Option (Fin 16)) (dbase rlen sstr dstr : Nat) (s : State) : Out :=
  command (fun r => do
    let s ← get
    let ck := s.cmd.ck
    if r.prog = 0 then
      must (match ch with | some c => s.fillOk ck r.cmd.job c rows dbase rlen dstr | none => true) 0x10
      must (!rangesMeet rows sbase sstr rlen rows dbase dstr rlen) 0x13
      setProg 1
      pure false
    else
      copyStep r { r.who s with fill := ch.map Fin.val } (copyPieces rows sbase dbase rlen sstr dstr) fun p left =>
        match ch with | some c => fillGranule ck c p left | none => pure ()) s

/-- The cluster that a scratchpad address names. -/
def windowCk (ck a : Nat) : Nat := if inRemote a then a / 2 ^ 28 % 4 * 64 + a / 2 ^ 22 % 64 else ck

/-- CP.PUT (R302): with RCV = 1 its counter is that of the cluster that DBASE names. -/
def execCpPut (rcv : Bool) (rows sbase dbase rlen sstr dstr : Nat) (s : State) : Out :=
  command (fun r => do
    let s ← get
    if r.prog = 0 then
      must (!rangesMeet rows sbase sstr rlen rows dbase dstr rlen) 0x13
      must (!rcv || decide (tcwCtr r.cmd.w0 < (s.jobAt r.cmd.job).img.allot)) 0x10
      setProg 1
      pure false
    else
      let done ← copyStep r (r.who s) (copyPieces rows sbase dbase rlen sstr dstr) fun _ _ => pure ()
      if done && rcv then
        modify fun s => s.endRunAt 0 (windowCk s.cmd.ck dbase)
        pure false
      else pure done) s

/-! ## CP.MC (R303) -/

/-- A branch of a descriptor. -/
structure Branch where
  slots : Nat
  dst : Nat
  jn : Bool
  ctr : Nat
  dstr : Nat
  deriving DecidableEq, Repr

/-- Branch b of a descriptor of 64 bytes. -/
def branchAt (bs : List PByte) (b : Nat) : Branch :=
  let x := pdw bs (2 * b)
  let y := pdw bs (2 * b + 1)
  ⟨fld x 56 8, fld x 0 56, fld y 47 1 == 1, fld y 32 12, fld y 0 32⟩

/-- The checks on a descriptor (R303, R392). -/
def mcOk (allot tlen : Nat) (bs : List PByte) : Bool :=
  let l := (List.range 4).map (branchAt bs)
  !ppois bs && (l.any fun b => b.slots != 0) && ((List.range 4).all fun b => only (pdw bs (2 * b + 1)) [(0, 44), (47, 1)]) &&
  l.all fun b => (b.slots == 0 || decide (b.dst % 8 = 0 ∧ b.dstr % 8 = 0 ∧ tlen ≤ b.dstr)) && (!b.jn || decide (b.ctr < allot))

/-- What CP.MC keeps: six numbers a branch (the branch, and its counter's value at the start), how many bytes of the tile being written and of the
next one have been fetched, those bytes with their poison, then the numbers of the pieces written. -/
def branchNums (b : Branch) (base : Nat) : List Nat := [b.slots, b.dst, b.jn.toNat, b.ctr, b.dstr, base]
def savedBranch (aux : List Nat) (b : Nat) : Branch :=
  ⟨aux.getD (6 * b) 0, aux.getD (6 * b + 1) 0, aux.getD (6 * b + 2) 0 == 1, aux.getD (6 * b + 3) 0, aux.getD (6 * b + 4) 0⟩
def savedBase (aux : List Nat) (b : Nat) : Nat := aux.getD (6 * b + 5) 0
def byteCode (b : PByte) : Nat := b.1.toNat + 256 * b.2.toNat
def byteOf (n : Nat) : PByte := (BitVec.ofNat 8 n, bitOf n 8)

/-- The two tiles of a CP.MC under way, and the pieces of the first that have been written. -/
structure McTiles where
  cur : List Nat
  next : List Nat
  done : List Nat
  deriving DecidableEq, Repr

def mcTiles (aux : List Nat) : McTiles :=
  let a := aux.getD 24 0
  let b := aux.getD 25 0
  ⟨(aux.drop 26).take a, (aux.drop (26 + a)).take b, aux.drop (26 + a + b)⟩
def McTiles.kept (m : McTiles) (aux : List Nat) : List Nat := aux.take 24 ++ [m.cur.length, m.next.length] ++ m.cur ++ m.next ++ m.done

/-- Whether the join permits tile t: every branch that takes part has a free slot. -/
def State.permits (s : State) (r : RunCmd) (t : Nat) : Bool :=
  (List.range 4).all fun b =>
    let x := savedBranch r.aux b
    x.slots == 0 || !x.jn ||
      decide (t + 1 ≤ x.slots + ((s.counterAt (cntKey s.cmd.ck r.cmd.job x.ctr)).count.toNat + 2 ^ 32 - savedBase r.aux b) % 2 ^ 32)

/-- The start of CP.MC. -/
def mcStart (r : RunCmd) (sbase mbase nt tlen tstr : Nat) : Eng Bool := do
  let s ← get
  let bs ← readBytes (r.who s) mbase 64
  must (mcOk (s.jobAt r.cmd.job).img.allot tlen bs) 0x11
  let l := (List.range 4).map (branchAt bs)
  must (l.all fun b => b.slots == 0 || !rangesMeet nt sbase tstr tlen (min nt b.slots) b.dst b.dstr tlen) 0x13
  addAux ((l.flatMap fun b => branchNums b (s.counterAt (cntKey s.cmd.ck r.cmd.job b.ctr)).count.toNat) ++ [0, 0])
  setProg 1
  pure false

/-- The pieces of tile t: offset in the tile, destination, bytes. -/
def mcPieces (r : RunCmd) (t tlen : Nat) : List Piece :=
  (List.range 4).flatMap fun b =>
    let x := savedBranch r.aux b
    if x.slots = 0 then [] else rowPieces 0 (x.dst + t % x.slots * x.dstr) tlen

/-- What CP.MC can do next: fetch the next piece of a tile, or write piece i. -/
inductive McDo where
  | fetch (va n : Nat)
  | write (p : Piece) (i : Nat)
  deriving DecidableEq, Repr

/-- The next piece of tile t to fetch, of which some bytes are there: none before the join permits the tile. -/
def mcFetch (s : State) (r : RunCmd) (t sbase tlen tstr : Nat) (got : List Nat) : List McDo :=
  if got = [] ∧ s.permits r t = false then []
  else match pieces (sbase + t * tstr + got.length) (tlen - got.length) with
    | [] => []
    | (va, n) :: _ => [.fetch va n]

/-- CP.MC (R303): each tile is fetched once, piece by piece, and written to the branches in any order, while the next one is fetched. -/
def execCpMc (sbase mbase nt tlen tstr : Nat) (s : State) : Out :=
  command (fun r => do
    let s ← get
    if r.prog = 0 then mcStart r sbase mbase nt tlen tstr
    else
      let t := r.prog - 1
      let m := mcTiles r.aux
      let keep (m : McTiles) : Eng Unit := modify fun s => s.modRun fun r => { r with aux := m.kept r.aux }
      let left := leftOf (mcPieces r t tlen) m.done
      let l :=
        if m.cur.length < tlen then mcFetch s r t sbase tlen tstr m.cur
        else (left.map fun e => McDo.write e.1 e.2) ++ if t + 1 < nt then mcFetch s r (t + 1) sbase tlen tstr m.next else []
      match anyOf s l with
      | none => throw .stall
      | some (.fetch va n) =>
        let bs := (← readBytes (r.who s) va n).map byteCode
        keep (if m.cur.length < tlen then { m with cur := m.cur ++ bs } else { m with next := m.next ++ bs })
        pure false
      | some (.write p i) =>
        writeBytes (r.who s) p.dst (((m.cur.drop p.src).take p.n).map byteOf)
        if 1 < left.length then
          keep { m with done := m.done ++ [i] }
          pure false
        else
          keep ⟨m.next, [], []⟩
          setProg (r.prog + 1)
          pure (decide (nt ≤ t + 1))) s

/-! ## CP.SHD (R305) -/

/-- CP.SHD (R149, R305). -/
def execCpShd (pub : Bool) (sbase g len off etgt : Nat) (s : State) : Out :=
  command (fun r => do
    let s ← get
    match (s.jobAt r.cmd.job).regions[g]? with
    | none => fail 0x12
    | some reg =>
      must (reg.len != 0 && decide (off + len ≤ reg.len)) 0x12
      let dst := reg.base + off
      if r.prog = 0 then
        must (!rangesMeet 1 sbase 0 len 1 dst 0 len) 0x13
        setProg 1
        pure false
      else
        let done ← copyStep r (r.who s) (copyPieces 1 sbase dst len 0 0) fun _ _ => pure ()
        if done && pub then
          modify fun s => s.modJob r.cmd.job fun j => match j.regions[g]? with
            | some x => if x.tgt = etgt then { j with regions := j.regions.set g { x with tgt := (x.tgt + 1) % 2 ^ 48 } } else j
            | none => j
        pure done) s

/-! ## CP.WM (R299, R306) -/

/-- The channel for a command of a job: 0x04 where another job owns it. -/
def ownWm (r : RunCmd) (ch : Nat) : Eng Wm := do
  let s ← get
  let w := (s.clusterAt s.cmd.ck).wmAt ch
  must (w.owner == none || w.owner == some r.cmd.job) 4
  pure w

/-- CP.WM, arm. -/
def execCpWmArm (ch : Fin 16) (base len : Nat) (s : State) : Out :=
  command (fun r => do
    let _ ← ownWm r ch
    let s ← get
    must (inLocal base && match s.runOf s.cmd.ck r.cmd.job with
      | some x => decide (base - 0x400000 + len ≤ x.n * 65536)
      | none => false) 2
    modify fun s => s.modWm s.cmd.ck ch fun _ => ⟨some r.cmd.job, true, false, base - 0x400000, len, []⟩
    pure true) s

/-- CP.WM, disarm. -/
def execCpWmDisarm (ch : Fin 16) (s : State) : Out :=
  command (fun r => do
    let _ ← ownWm r ch
    modify fun s => s.modWm s.cmd.ck ch fun _ => Wm.init
    pure true) s

/-- The two doublewords of a read record; zeros for a free channel. -/
def Wm.record (w : Wm) : Nat × Nat :=
  if w.owner = none then (0, 0)
  else (w.armed.toNat * 2 ^ 63 + w.err.toNat * 2 ^ 62 + 0x400000 + w.mark, w.base * 2 ^ 32 + w.len)

/-- CP.WM, read. -/
def execCpWmRead (ch : Fin 16) (sbase : Nat) (s : State) : Out :=
  command (fun r => do
    let w ← ownWm r ch
    writeBytes (r.who (← get)) sbase (pbytes 8 w.record.1 false ++ pbytes 8 w.record.2 false)
    pure true) s

/-- A removed job's watermark channels disarmed and freed (R299, R319). -/
def State.freeWms (s : State) (ck job : Nat) : State :=
  (List.range 16).foldl (fun s ch => s.modWm ck ch fun w => if w.owner = some job then Wm.init else w) s

end Sys2Proof.Machine
end

