-- ==== Sys2Proof/Machine/Pfu.lean ====
section
/-! DEFINITION. The prefetch units (R308 to R318): kernels, gather descriptors, the recent-index filter, and the class 4 commands. A command
takes one index position at a step, in increasing order (R389). -/

namespace Sys2Proof.Machine

/-! ## Kernels (R41, R309, R310) -/

def kOp (w : W32) : Nat := w.toNat / 2 ^ 28
def kGd (w : W32) : Nat := w.toNat / 2 ^ 24 % 16
def kGa (w : W32) : Nat := w.toNat / 2 ^ 20 % 16
def kGb (w : W32) : Nat := w.toNat / 2 ^ 16 % 16
def kImm (w : W32) : Nat := w.toNat % 2 ^ 16

/-- Whether word k of a kernel of n words passes the checks of R41 and R310. -/
def kWordOk (n k : Nat) (w : W32) : Bool :=
  let d := decide (4 ≤ kGd w)
  let reg := d && kImm w == 0
  let imm := d && kGb w == 0
  match kOp w with
  | 0x0 => reg | 0x2 => reg | 0x3 => reg | 0x4 => reg | 0x5 => reg | 0xA => reg
  | 0x1 => imm | 0x8 => imm | 0xF => imm
  | 0x6 => imm && decide (kImm w < 64)
  | 0x7 => imm && decide (kImm w < 64)
  | 0x9 => imm && kGa w == 0
  | 0xC => kGd w == 0 && kGb w == 0 && kImm w == 0
  | 0xD => kGd w == 0 && kGa w == 0 && kGb w == 0 && kImm w == 0
  | _ => kGd w == 0 && kImm w != 0 && decide (k + 1 + kImm w < n)

def kernelOk (ws : List W32) : Bool := ws.zipIdx.all fun e => kWordOk ws.length e.2 e.1

/-- The registers of a kernel. -/
def kReg (g : List W64) (i : Nat) : W64 := g.getD i 0
/-- IMM sign-extended. -/
def kSimm (w : W32) : W64 := BitVec.ofInt 64 (sextNat 16 w.toNat)

/-- The result of a word that writes gd from registers and IMM. -/
def kValue (g : List W64) (w : W32) : W64 :=
  let a := kReg g (kGa w)
  let b := kReg g (kGb w)
  match kOp w with
  | 0x0 => a + b
  | 0x1 => a + kSimm w
  | 0x2 => a - b
  | 0x3 => a * b
  | 0x4 => a &&& b
  | 0x5 => a ||| b
  | 0x6 => a <<< kImm w
  | 0x7 => a >>> kImm w
  | 0x9 => kSimm w
  | 0xA => a ^^^ b
  | _ => a &&& w64 (kImm w)

/-- What an index leads to. -/
inductive Target where
  | row (a : Nat)
  | invalid
  | missing
  deriving DecidableEq, Repr

/-- A kernel run from word k on (R309, R310). -/
def runKernel (w : Who) (ws : List W32) : Nat → Nat → List W64 → Eng Target
  | 0, _, _ => pure .invalid
  | fuel + 1, k, g =>
    match ws[k]? with
    | none => pure .invalid
    | some x =>
      let a := kReg g (kGa x)
      let skip := k + 1 + kImm x
      match kOp x with
      | 0xC => pure (.row a.toNat)
      | 0xD => pure .invalid
      | 0xB => runKernel w ws fuel (if kReg g (kGb x) ≤ a then skip else k + 1) g
      | 0xE => runKernel w ws fuel (if a = kReg g (kGb x) then skip else k + 1) g
      | 0x8 => do
        let va := (a + kSimm x).toNat
        match ← if va % 8 = 0 then tryBytes w va 8 else pure none with
        | none => pure .missing
        | some bs => if ppois bs then pure .missing else runKernel w ws fuel (k + 1) (g.set (kGd x) (w64 (pnum bs)))
      | _ => runKernel w ws fuel (k + 1) (g.set (kGd x) (kValue g x))

def Cluster.kernAt (c : Cluster) (k : Nat) : Option (Nat × List W32) := c.kern.get none k

/-- The accesses of a PFU, through its own translation cache (R112). -/
def RunCmd.pfu (r : RunCmd) (s : State) : Who := { r.who s with via := 64 + s.cmd.unit }

/-- G.KERN (R310, R317): it waits while a running command uses the slot. -/
def execGKern (slot : Fin 4) (base nw : Nat) (s : State) : Out :=
  command (fun r => do
    let s ← get
    let c := s.clusterAt s.cmd.ck
    must (match c.kernAt slot with | some k => k.1 == r.cmd.job | none => true) 4
    if (c.engAt 4).runs.any fun x => x.gather.isSome && fld (w64 (x.aux.getD 5 0)) 27 1 == 1 && fld (w64 (x.aux.getD 5 0)) 24 2 == slot.val then throw .stall
    else
      let bs ← readBytes (r.pfu s) base (4 * nw)
      let ws := (List.range nw).map fun k => w32 (pfield bs (4 * k) 4)
      must (!ppois bs && kernelOk ws) 0x12
      modify fun s => s.modCluster s.cmd.ck fun c => { c with kern := c.kern.set none slot (some (r.cmd.job, ws)) }
      pure true) s

/-- A removed job's kernel slots emptied (R319). -/
def State.freeKernels (s : State) (ck job : Nat) : State :=
  s.modCluster ck fun c => { c with kern := c.kern.filter fun e => !(match e.2 with | some k => k.1 == job | none => true) }

/-! ## Gather descriptors (R311) -/

/-- A descriptor; the command keeps its first six doublewords. -/
structure GDesc where
  i64 : Bool
  ibase : Nat
  tbase : Nat
  dbase : Nat
  n : Nat
  nrows : Nat
  tstr : Nat
  dstr : Nat
  bag : Nat
  kern : Option Nat
  rlen : Nat
  deriving DecidableEq, Repr

def gdesc (d : Nat → W64) : GDesc :=
  { i64 := fld (d 0) 63 1 == 1, ibase := fld (d 0) 0 56, tbase := fld (d 1) 0 56, dbase := fld (d 2) 0 56, n := fld (d 3) 32 32, nrows := fld (d 3) 0 32,
    tstr := fld (d 4) 32 32, dstr := fld (d 4) 0 32, bag := fld (d 5) 32 16,
    kern := if fld (d 5) 27 1 = 1 then some (fld (d 5) 24 2) else none, rlen := fld (d 5) 0 24 }

def GDesc.isz (g : GDesc) : Nat := if g.i64 then 8 else 4
/-- The descriptor that a running command keeps. -/
def RunCmd.gd (r : RunCmd) : GDesc := gdesc fun k => w64 (r.aux.getD k 0)

/-- The kinds of gather. -/
inductive GKind where
  | rows (pf zf : Bool)
  | emb (q4 bf16 zf : Bool)
  | scat (op : Nat)
  deriving DecidableEq, Repr

/-- The element size that bases, strides and RLEN keep. -/
def GKind.esz : GKind → Nat
  | .scat 0 => 4 | .scat 1 => 8 | .emb _ bf16 _ => if bf16 then 2 else 4 | _ => 1
def GKind.isScat : GKind → Bool | .scat _ => true | _ => false
/-- The bytes of a row-code image of n columns (R61). -/
def imageSize (q4 : Bool) (n : Nat) : Nat := 4 + (if q4 then (n + 1) / 2 else n)
/-- The bytes of a table row, and those that a position writes. -/
def GDesc.inLen (g : GDesc) : GKind → Nat | .emb q4 _ _ => imageSize q4 g.rlen | _ => g.rlen
def GDesc.outLen (g : GDesc) (k : GKind) : Nat := match k with | .emb .. => g.rlen * k.esz | _ => g.rlen

/-- The checks on a descriptor of 64 bytes (R311, R314 to R316, R392). -/
def gdescOk (k : GKind) (bs : List PByte) : Bool :=
  let g := gdesc (pdw bs)
  let z := k.esz
  !ppois bs && only (pdw bs 0) [(0, 56), (63, 1)] && only (pdw bs 1) [(0, 56)] && only (pdw bs 2) [(0, 56)] &&
  only (pdw bs 5) [(0, 24), (24, 2), (27, 1), (32, 16)] && pdw bs 6 == 0 && pdw bs 7 == 0 &&
  g.ibase % g.isz == 0 && g.dbase % z == 0 && g.dstr % z == 0 && g.rlen != 0 && g.n != 0 &&
  match k with
  | .rows pf _ => g.bag == 0 && (!pf || g.dstr == 0)
  | .emb q4 _ _ => decide (g.rlen ≤ 4096 ∧ imageSize q4 g.rlen ≤ g.tstr ∧ g.outLen k ≤ g.dstr) && (g.bag == 0 || g.n % g.bag == 0)
  | .scat _ => g.bag == 0 && decide (g.tbase % z = 0 ∧ g.tstr % z = 0 ∧ g.rlen % z = 0)

/-- A gather at its start. -/
def Gather.init : Gather :=
  { next := 0, line := [], ahead := [], inval := 0, miss := 0, hits := 0, flags := 0, filter := [], bag := [], bagN := 0, bagP := false }

def sat32 (n : Nat) : Nat := min n 0xFFFFFFFF

/-- The bytes of a result record (R312). -/
def Gather.record (g : Gather) : List PByte :=
  pbytes 4 (sat32 g.next) false ++ pbytes 4 (sat32 g.inval) false ++ pbytes 4 (sat32 g.miss) false ++ pbytes 4 (sat32 g.hits) false ++
  pbytes 8 g.flags.toNat false ++ pbytes 8 0 false

/-- The flags of the record: PSN, OFL, INX, INV from bit 3 down. -/
def gFlags (f : Flags) : BitVec 4 := (if f &&& fINV = 0 then 0 else 1) ||| (if f &&& fINX = 0 then 0 else 2) ||| (if f &&& fOFL = 0 then 0 else 4)
def gPsn (p : Bool) : BitVec 4 := if p then 8 else 0
def Gather.flag (g : Gather) (f : BitVec 4) : Gather := { g with flags := g.flags ||| f }

def putGather (g : Gather) : Eng Unit := modify fun s => s.modRun fun r => { r with gather := some g }

/-- A gather's step by the engine itself: its start, and with every position processed and every partial applied, its end. -/
def gather (k : GKind) (desc res : Nat) (s : State) : Out :=
  command (fun r => do
    let s ← get
    match r.gather with
    | none =>
      let bs ← readBytes (r.pfu s) desc 64
      must (gdescOk k bs) 0x10
      match (gdesc (pdw bs)).kern with
      | some j => must (match (s.clusterAt s.cmd.ck).kernAt j with | some x => x.1 == r.cmd.job | none => false) 0x11
      | none => pure ()
      addAux ((List.range 6).map fun i => (pdw bs i).toNat)
      putGather Gather.init
      pure false
    | some g =>
      if g.next < r.gd.n ∨ (k.isScat ∧ g.filter ≠ []) then throw .stall
      else
        if res != 0 then writeBytes (r.pfu s) res g.record
        pure true) s

/-! ## One position (R312) -/

/-- The target of an index. -/
def targetOf (w : Who) (s : State) (d : GDesc) (i x : Nat) : Eng Target :=
  match d.kern with
  | some k =>
    match (s.clusterAt w.ck).kernAt k with
    | some kn => runKernel w kn.2 64 0 ([w64 x, w64 i, w64 d.tbase, w64 d.nrows] ++ List.replicate 12 0)
    | none => pure .invalid
  | none => pure (if x < d.nrows then .row (d.tbase + x * d.tstr) else .invalid)

/-- A part of a position's work that may park the position alone: none where it must wait, or its answer (R310, R312). -/
def posTry {α : Type} (key : Nat) (m : Eng (Option α)) : Eng (Option (Option α)) := do
  let s ← get
  match s.run?.bind fun r => r.held.find? fun h => h.1 == key with
  | some h =>
    if h.2.2 then
      modify fun s => s.modRun fun r => { r with held := r.held.filter fun h => h.1 != key }
      pure (some none)
    else pure none
  | none =>
    match m.run s with
    | (.ok x, t) => set t; pure (some x)
    | (.error (.park die pg va kind t2 wr loc), _) =>
      set ((s.recordFault die pg va kind t2 wr loc).modRun fun r => { r with held := r.held ++ [(key, pg, false)] })
      pure none
    | (.error e, _) => throw e

/-- A filter entry made the most recent. -/
def touchFilter (f : List FEnt) (e : FEnt) : List FEnt := f.filter (fun x => x.target != e.target) ++ [e]

/-- The dequantised columns of a row image (R61, R78): FP32 codes or those of a format, and flags. -/
def dequant (q4 : Bool) (f : FF) (n : Nat) (bs : List PByte) : List Nat × Flags :=
  let sg := FF.fp16.value (pfield bs 0 2)
  let om := FF.fp16.value (pfield bs 2 2)
  let q (j : Nat) : Nat := if q4 then pfield bs (4 + j / 2) 1 / 16 ^ (j % 2) % 16 else pfield bs (4 + j) 1
  let rs := (List.range n).map fun j => let v := Val.ofInt (q j); f.result .rne (sg.fma .rne v om) [sg, v, om]
  (rs.map Prod.fst, rs.foldl (fun a r => a ||| r.2) 0)

/-- The sum of two pooled rows, each addition rounded (R315). -/
def addRows (a b : List Nat) : List Nat × Flags :=
  let rs := (a.zip b).map fun p => let x := FF.fp32.value p.1; let y := FF.fp32.value p.2; FF.fp32.result .rne (x.add .rne y) [x, y]
  (rs.map Prod.fst, rs.foldl (fun a r => a ||| r.2) 0)

/-- The position that follows. -/
def Gather.step (g : Gather) : Gather :=
  { g with next := g.next + 1, line := g.line.tail, ahead := g.ahead.filter fun e => decide (g.next < e.1) }

/-- The output row of a position that is invalid or missing: nothing, or zeros under ZF. -/
def gapRow (w : Who) (d : GDesc) (k : GKind) (i : Nat) : Eng Unit :=
  match k with
  | .rows pf zf => if zf && !pf then writeBytes w (d.dbase + i * d.dstr) (pbytes (d.outLen k) 0 false) else pure ()
  | .emb _ _ zf => if zf && d.bag == 0 then writeBytes w (d.dbase + i * d.dstr) (pbytes (d.outLen k) 0 false) else pure ()
  | .scat _ => pure ()

/-- The last position of a bag writes its row (R315). -/
def endBag (w : Who) (d : GDesc) (bf16 : Bool) (g : Gather) : Eng Gather := do
  if d.bag = 0 ∨ g.next % d.bag ≠ 0 then pure g
  else
    let k := g.next / d.bag - 1
    let f := if bf16 then FF.bf16 else FF.fp32
    let z := if bf16 then 2 else 4
    let vs := if g.bagN = 0 then (List.replicate d.rlen (0, (0 : Flags))) else g.bag.map fun v => f.ofVal .rne (FF.fp32.value v.toNat)
    writeBytes w (d.dbase + k * d.dstr) (vs.flatMap fun v => pbytes z v.1 g.bagP)
    pure { (g.flag (gFlags (vs.foldl (fun a v => a ||| v.2) 0))) with bag := [], bagN := 0, bagP := false }

/-- A row put into the bag at hand. -/
def Gather.pool (g : Gather) (vs : List Nat) (p : Bool) : Gather :=
  let r := if g.bagN = 0 then (vs, (0 : Flags)) else addRows (g.bag.map BitVec.toNat) vs
  { (g.flag (gFlags r.2)) with bag := r.1.map w32, bagN := g.bagN + 1, bagP := g.bagP || p }

/-- The row of a position written: G.ROWS its bytes, G.EMB its values. -/
def writeRow (w : Who) (d : GDesc) (k : GKind) (i : Nat) (bs : List PByte) (g : Gather) : Eng Gather := do
  let p := ppois bs
  let g := g.flag (gPsn p)
  match k with
  | .rows _ _ => writeBytes w (d.dbase + i * d.dstr) bs; pure g
  | .emb q4 bf16 _ =>
    if d.bag = 0 then
      let v := dequant q4 (if bf16 then FF.bf16 else FF.fp32) d.rlen bs
      writeBytes w (d.dbase + i * d.dstr) (v.1.flatMap fun x => pbytes k.esz x p)
      pure (g.flag (gFlags v.2))
    else
      let v := dequant q4 FF.fp32 d.rlen bs
      pure ((g.flag (gFlags v.2)).pool v.1 p)
  | .scat _ => pure g

/-- An output row read where the command wrote it: on the side of a shadow region that its writes go to (R149, R313). -/
def readBack (w : Who) : List (Nat × Nat) → Eng (List PByte)
  | [] => pure []
  | (va, n) :: t => do
    match ← tryPlace w .write va n with
    | none => fail 2
    | some loc =>
      modify fun s => (s.mergeLine loc).touch loc
      let bs := (← get).pbytesAt loc n
      pure (bs ++ (← readBack w t))

/-- A hit of G.ROWS or G.EMB: the row copied from the output row of the target's first position, or pooled again (R313). -/
def hitRow (w : Who) (d : GDesc) (k : GKind) (i : Nat) (e : FEnt) (g : Gather) : Eng Gather := do
  match k with
  | .rows true _ => pure g
  | .emb _ _ _ =>
    if d.bag = 0 then
      let bs ← readBack w (pieces (d.dbase + e.row * d.dstr) (d.outLen k))
      writeBytes w (d.dbase + i * d.dstr) bs
      pure (g.flag (gPsn (ppois bs)))
    else writeRow w d k i e.part g
  | _ =>
    let bs ← readBack w (pieces (d.dbase + e.row * d.dstr) (d.outLen k))
    writeBytes w (d.dbase + i * d.dstr) bs
    pure (g.flag (gPsn (ppois bs)))

/-- Whether a prefetch passes over a target, one in a scratchpad (R314). -/
def GKind.passes (k : GKind) (a : Nat) : Bool := match k with | .rows true _ => inLocal a || inRemote a | _ => false

/-- The row access of G.ROWS and G.EMB. -/
def fetchRow (w : Who) (d : GDesc) (k : GKind) (a : Nat) : Eng (Option (List PByte)) :=
  if k.passes a then pure (some [])
  else match k with
  | .rows true _ => tryBytes w a d.rlen
  | _ => tryBytes w a (d.inLen k)

/-! ## Updates of G.SCAT (R316) -/

/-- One element of a row. -/
def elemAt (bs : List PByte) (z j : Nat) : Nat := pfield bs (z * j) z

/-- Two rows added element by element. -/
def addBytes (z : Nat) (a b : List PByte) : List PByte :=
  (List.range (b.length / z)).flatMap fun j =>
    let x := elemAt a z j
    let y := elemAt b z j
    let p := ppois ((a.drop (z * j)).take z) || ppois ((b.drop (z * j)).take z)
    pbytes z (if z = 4 then (fadd32 (w32 x) (w32 y)).toNat else (x + y) % 2 ^ 64) p

/-- A commutative update of one element at its place (R131): at the atomic node of a scratchpad, else into the cluster's partial. Poison of the
operand is stored, or marks the partial (R120, R133). -/
def State.commAt (s : State) (ck loc z v : Nat) (p : Bool) : State :=
  if isSpad loc then
    let r := s.readNow loc z
    if r.2.p then r.1
    else
      let new := if z = 4 then (fadd32 (w32 r.2.v) (w32 v)).toNat else (r.2.v + v) % 2 ^ 64
      r.1.poke loc (leBytes z new) p
  else
    let s := s.commAdd ck loc (z == 8) (w64 v)
    if p then { s with comm := s.comm.map fun c => if c.loc = lineOf loc then { c with pois := true } else c } else s

/-- The places of the elements of an update; none where one is refused. -/
def elemPlaces (w : Who) (a z : Nat) : List Nat → Eng (Option (List Nat))
  | [] => pure (some [])
  | j :: t => do
    match ← tryPlace w .both (a + z * j) z with
    | none => pure none
    | some loc => match ← elemPlaces w a z t with
      | none => pure none
      | some r => pure (some (loc :: r))

/-- One update of a table row: none where it is refused, a misaligned element among the causes, and then nothing is written (R118, R312). -/
def applyRow (w : Who) (op : Nat) (a : Nat) (bs : List PByte) : Eng (Option Unit) := do
  if op = 2 then
    let s ← get
    if ← tryWrites w a bs (pieces a bs.length) then pure (some ())
    else
      set s
      pure none
  else
    let z := if op = 0 then 4 else 8
    match ← if a % z = 0 then elemPlaces w a z (List.range (bs.length / z)) else pure none with
    | none => pure none
    | some locs =>
      modify fun s => locs.zipIdx.foldl (fun s e =>
        (s.touch e.1).commAt w.ck e.1 z (elemAt bs z e.2) (ppois ((bs.drop (z * e.2)).take z))) s
      pure (some ())

/-! ## The steps of a gather -/

/-- The page key of an index position, and of a filter entry, among those that a command is parked on. -/
def entKey (e : FEnt) : Nat := 2 ^ 64 + e.target

/-- Position i of G.SCAT with its target. -/
def scatPos (w : Who) (d : GDesc) (op i a : Nat) (g : Gather) : Eng Unit := do
  let src ← readBytes w (d.dbase + i * d.dstr) d.rlen
  let g0 := g
  let g := g.flag (gPsn (ppois src))
  if 256 < d.rlen then
    match ← posTry i (applyRow w op a src) with
    | none => putGather g0
    | some (some _) => putGather g.step
    | some none => putGather { g.step with miss := g.miss + 1 }
  else
    match g.filter.find? fun e => e.target == a with
    | some e =>
      let part := if op = 2 then src else addBytes (if op = 0 then 4 else 8) e.part src
      putGather { g.step with hits := g.hits + 1, filter := touchFilter g.filter { e with part := part, pos := e.pos + 1 } }
    | none =>
      if 64 ≤ g.filter.length then putGather g0
      else putGather { g.step with filter := g.filter ++ [⟨a, i, src, 1⟩] }

/-- Position i of G.ROWS or G.EMB with its target, which enters the filter once its row has been fetched (R313). -/
def rowPos (w : Who) (d : GDesc) (k : GKind) (i a : Nat) (g : Gather) : Eng Unit := do
  let bf16 := match k with | .emb _ b _ => b | _ => false
  match g.filter.find? fun e => e.target == a with
  | some e =>
    let g ← hitRow w d k i e g
    putGather (← endBag w d bf16 { g.step with hits := g.hits + 1, filter := touchFilter g.filter { e with pos := e.pos + 1 } })
  | none =>
    match ← posTry i (fetchRow w d k a) with
    | none => putGather g
    | some none =>
      gapRow w d k i
      putGather (← endBag w d bf16 { g.step with miss := g.miss + 1 })
    | some (some bs) =>
      let g ← match k with | .rows true _ => pure g | _ => writeRow w d k i bs g
      let f := if k.passes a then g.filter else g.filter ++ [⟨a, i, bs, 1⟩]
      putGather (← endBag w d bf16 { g.step with filter := f.drop (f.length - 64) })

/-- The index line that holds the next position, read (R308). -/
def readLine (w : Who) (d : GDesc) (g : Gather) : Eng Gather := do
  let va := d.ibase + d.isz * g.next
  let n := min (d.n - g.next) ((64 - va % 64) / d.isz)
  let bs ← readBytes w va (n * d.isz)
  pure { g with line := (List.range n).map fun j => (pfield bs (d.isz * j) d.isz, ppois ((bs.drop (d.isz * j)).take d.isz)) }

/-- A target as the gather keeps it for a position. -/
def Target.kept : Target → Nat × Nat
  | .row a => (0, a) | .invalid => (1, 0) | .missing => (2, 0)

/-- The target of position i, index x: found before, or by the kernel, which may park the index alone (R310). -/
def findTarget (w : Who) (d : GDesc) (i x : Nat) (g : Gather) : Eng (Gather × Option (Nat × Nat)) := do
  match g.ahead.find? fun e => e.1 == i with
  | some e => pure (g, some e.2)
  | none =>
    match ← posTry (2 ^ 62 + i) ((targetOf w (← get) d i x).map some) with
    | none => pure (g, none)
    | some t =>
      let t := match t with | some t => t.kept | none => (2, 0)
      pure ({ g with ahead := g.ahead ++ [(i, t)] }, some t)

/-- While the target of the next position is not known, the kernel of the first index behind it in the line whose target is not known either and
which is not parked (R308, R310). -/
def runAhead (w : Who) (d : GDesc) (r : RunCmd) (g : Gather) : Eng Gather := do
  let l := g.line.zipIdx.filter fun e => e.2 != 0 && !e.1.2 && !(g.ahead.any fun h => h.1 == g.next + e.2) &&
    !(r.held.any fun h => h.1 == 2 ^ 62 + (g.next + e.2) && !h.2.2)
  match l with
  | [] => pure g
  | ((x, _), j) :: _ => pure (← findTarget w d (g.next + j) x g).1

/-- The next position of a gather (R312): positions are looked up in increasing order (R389). -/
def nextPos (k : GKind) (r : RunCmd) (g : Gather) : Eng Unit := do
  let w := r.pfu (← get)
  let d := r.gd
  let g ← if g.line = [] then readLine w d g else pure g
  match g.line with
  | [] => pure ()
  | (x, p) :: _ =>
    let i := g.next
    let bf16 := match k with | .emb _ b _ => b | _ => false
    let gap (g : Gather) : Eng Unit := do gapRow w d k i; putGather (← endBag w d bf16 g)
    if p then gap { g.step with miss := g.miss + 1 }
    else
      match ← findTarget w d i x g with
      | (g, none) => putGather (← runAhead w d r g)
      | (g, some (1, _)) => gap { g.step with inval := g.inval + 1 }
      | (g, some (2, _)) => gap { g.step with miss := g.miss + 1 }
      | (g, some (_, a)) => match k with
        | .scat op => scatPos w d op i a g
        | _ => rowPos w d k i a g

/-- The gather that a command is. -/
def gkindOf : Option Instr → Option GKind
  | some (.gRows pf zf _ _) => some (.rows pf zf)
  | some (.gEmb q b z _ _) => some (.emb q b z)
  | some (.gScatFadd ..) => some (.scat 0)
  | some (.gScatIadd ..) => some (.scat 1)
  | some (.gScatOverwrite ..) => some (.scat 2)
  | _ => none

/-- A step of the gather that a PFU runs. -/
def gatherEvent (ck unit : Nat) (m : GKind → RunCmd → Gather → Eng Unit) (s : State) : Out :=
  let s := { s with cmd := ⟨ck, 4, unit, 0⟩ }
  .next (match s.run? with
    | none => s
    | some r =>
      match r.gather, gkindOf (tcwInstr r.cmd.w0 r.cmd.w1 r.cmd.w2 r.cmd.w3 ⟨0, 0⟩) with
      | some g, some k => if r.parked.isSome ∨ s.clusterGone ck then s else s.engRun (do m k r g; pure false)
      | _, _ => s)

/-- PFU_INDEX_LINE (R308, R312): the line of the next position read where none is at hand, and that position processed. -/
def execPfuIndexLine (ck unit : Nat) (s : State) : Out :=
  gatherEvent ck unit (fun k r g => if g.next < r.gd.n then nextPos k r g else pure ()) s

/-- Whether the least recently used partial must leave: the filter is full and the next position has a target that it does not hold, or no position
is left (R313, R389). -/
def Gather.evicts (g : Gather) (n : Nat) : Bool :=
  decide (n ≤ g.next) || (decide (64 ≤ g.filter.length) &&
    g.ahead.any fun e => e.1 == g.next && e.2.1 == 0 && !(g.filter.any fun x => x.target == e.2.2))

/-- FILTER_PARTIAL_EVICT (R313): the least recently used partial is applied as one update. -/
def execFilterPartialEvict (ck unit : Nat) (s : State) : Out :=
  gatherEvent ck unit (fun k r g => do
    match k, g.filter with
    | .scat op, e :: t =>
      if g.evicts r.gd.n = false then pure ()
      else
        match ← posTry (entKey e) (applyRow (r.pfu (← get)) op e.target e.part) with
        | none => pure ()
        | some (some _) => putGather { g with filter := t }
        | some none => putGather { g with filter := t, miss := g.miss + e.pos }
    | _, _ => pure ()) s

/-- G.ROWS (R314). -/
def execGRows (pf zf : Bool) (desc res : Nat) (s : State) : Out := gather (.rows pf zf) desc res s
/-- G.EMB (R315). -/
def execGEmb (q4 bf16 zf : Bool) (desc res : Nat) (s : State) : Out := gather (.emb q4 bf16 zf) desc res s
/-- G.SCAT, FP32 add (R316). -/
def execGScatFadd (desc res : Nat) (s : State) : Out := gather (.scat 0) desc res s
/-- G.SCAT, INT64 add (R316). -/
def execGScatIadd (desc res : Nat) (s : State) : Out := gather (.scat 1) desc res s
/-- G.SCAT, overwrite (R316). -/
def execGScatOverwrite (desc res : Nat) (s : State) : Out := gather (.scat 2) desc res s

end Sys2Proof.Machine
end

