-- ==== Sys2Proof/Machine/Rta.lean ====
section
/-! DEFINITION. The rotator array (R245 to R258): mantissas, rotations and gains, triangle sets, and the class 1 commands (R259 to R267).
A command proceeds one input row or vector at a step. -/

namespace Sys2Proof.Machine

/-! ## Numbers in the array -/

/-- An integer divided by 2^d, rounded to nearest, ties to even; a negative d shifts left. -/
def shrRne (m : Int) (d : Int) : Int :=
  if d ≤ 0 then m * 2 ^ (-d).toNat
  else let u := roundAt .rne false (.rat m.natAbs 1) d; if m < 0 then -(u : Int) else u

/-- An alignment shift (R62): 40 or more gives 0. -/
def alignShift (m : Int) (d : Int) : Int := if 40 ≤ d then 0 else shrRne m d

def maxAbs (l : List Int) : Nat := l.foldl (fun a m => max a m.natAbs) 0

/-- Renormalised mantissas with an exponent of 10 bits (R62, R250). The spec does not say what the exponent becomes where it leaves −512 to 511. Below it is
taken as −512, the one that R385 lets differ least (DEDUCED); above it is a free value (DESIGN CHOICE; log entry 60). -/
def fitRow (ms : List Int) (x : Int) : List Int × Int :=
  (ms, if x < -512 then -512 else if 511 < x then ((Config.farRow ms x).val : Int) - 512 else x)

/-- Mantissas with one exponent renormalised (R250). -/
def renorm (ms : List Int) (x : Int) : List Int × Int :=
  let mx := maxAbs ms
  if mx = 0 then (ms, 0)
  else
    let d : Int := (Nat.log2 mx : Int) - 37
    let out := ms.map fun m => shrRne m d
    if 2 ^ 38 ≤ maxAbs out then fitRow (ms.map fun m => shrRne m (d + 1)) (x + d + 1) else fitRow out (x + d)

/-- K32² = ∏ (1 + 2^(−2k)) as a quotient (R247). -/
def k2Num : Nat := (List.range 32).foldl (fun a k => a * (2 ^ (2 * k) + 1)) 1
def k2Den : Nat := 2 ^ 992

/-- K32^d as a magnitude. -/
def kPow (d : Int) : Mag :=
  if 0 ≤ d then .sqrt (k2Num ^ d.toNat) (k2Den ^ d.toNat) else .sqrt (k2Den ^ (-d).toNat) (k2Num ^ (-d).toNat)

/-- κ_d, as an integer of 40 significant bits and a power of two (R252). -/
def kappa (d : Int) : Nat × Int :=
  let q := (kPow d).log2 - 39
  (roundAt .rne false (kPow d) q, q)

/-- Mantissas multiplied by κ_d: the product rounded once, as it is renormalised (R252; log entry 26). -/
def scaleK (ms : List Int) (x : Int) (d : Int) : List Int × Int :=
  let k := kappa d
  renorm (ms.map fun m => m * k.1) (x + k.2)

/-- m · 2^(x−38) · K32^(−g) as a magnitude (R247, R254). -/
def entryMag (m : Int) (x : Int) (g : Nat) : Mag :=
  let e := x - 38
  if g = 0 then Mag.dyad m.natAbs e
  else
    let n := m.natAbs * m.natAbs * k2Den ^ g
    let d := k2Num ^ g
    if 0 ≤ e then .sqrt (n * 2 ^ (2 * e.toNat)) d else .sqrt n (d * 2 ^ (2 * (-e).toNat))

/-- An entry rounded to a format under rne, with its flags. -/
def entryTo (f : FF) (m : Int) (x : Int) (g : Nat) : Nat × Flags := f.round .rne (decide (m < 0)) (entryMag m x g)

/-! ## Rotations (R251) -/

/-- Micro-rotations i, i+1, … of a vectoring rotation; the direction bits are gathered. -/
def vectorBits : Nat → Nat → Int → Int → Nat → Int × Int × Nat
  | 0, _, u, v, b => (u, v, b)
  | fuel + 1, i, u, v, b =>
    if 0 ≤ v then vectorBits fuel (i + 1) (u + (v >>> i)) (v - (u >>> i)) (b + 2 ^ i)
    else vectorBits fuel (i + 1) (u - (v >>> i)) (v + (u >>> i)) b

/-- Micro-rotations under a given direction word. -/
def rotateBits (sig : Nat) : Nat → Nat → Int → Int → Int × Int
  | 0, _, u, v => (u, v)
  | fuel + 1, i, u, v =>
    if bitOf sig i then rotateBits sig fuel (i + 1) (u + (v >>> i)) (v - (u >>> i))
    else rotateBits sig fuel (i + 1) (u - (v >>> i)) (v + (u >>> i))

/-- A vectoring rotation of aligned mantissas: the new pair and the SIG32 word. -/
def vectoring (u v : Int) : Int × Int × Nat :=
  let r := vectorBits 32 0 (u * 256) (v * 256) 0
  (shrRne r.1 8, shrRne r.2.1 8, r.2.2)

/-- A rotation by a SIG32 word and a flip bit. -/
def rotation (sig : Nat) (flip : Bool) (u v : Int) : Int × Int :=
  let f : Int := if flip then -256 else 256
  let r := rotateBits sig 32 0 (u * f) (v * f)
  (shrRne r.1 8, shrRne r.2 8)

/-! ## Angles (R267) -/

/-- Tᵢ. -/
def angleT (i : Nat) : Int :=
  if i = 0 then 2 ^ 37
  else roundAt .rne false (.rat ((atanTerms true (2 ^ i) 140 0 (fxOne / 2 ^ i)).toNat * 2 ^ 39) fxPi) 0

/-- BAM32 to SIG32: FLIP and the word. -/
def bamToSig (n : Nat) : Bool × Nat :=
  let th := sextNat 32 n * 256
  let f := decide (2 ^ 38 < th ∨ th < -(2 ^ 38))
  let t0 := if 2 ^ 38 < th then th - 2 ^ 39 else if th < -(2 ^ 38) then th + 2 ^ 39 else th
  let r := (List.range 32).foldl (fun (a : Int × Nat) i => if 0 ≤ a.1 then (a.1 - angleT i, a.2) else (a.1 + angleT i, a.2 + 2 ^ i)) (t0, 0)
  (f, r.2)

/-- SIG32 to BAM32. -/
def sigToBam (flip : Bool) (sig : Nat) : Nat :=
  let t := (List.range 32).foldl (fun (a : Int) i => if bitOf sig i then a - angleT i else a + angleT i) 0
  lowBits 32 (shrRne (t + (if flip then 2 ^ 39 else 0)) 8)

/-! ## Triangle sets (R247, R248) -/

/-- The flags of a set. -/
def sINV : BitVec 5 := 1
def sOFL : BitVec 5 := 2
def sSING : BitVec 5 := 4
def sPSN : BitVec 5 := 8
def sCHK : BitVec 5 := 16

/-- The empty row i of a set of nc columns. -/
def blankRow (nc i : Nat) : TriRow := ⟨List.replicate (nc - i) 0, 0, 0, false⟩
/-- The set cleared for nc columns (R260). -/
def Tri.cleared (t : Tri) (nc : Nat) : Tri :=
  { t with nc := nc, rows := (List.range nc).map (blankRow nc), nabs := 0, flags := 0, skipped := 0 }
/-- An empty set given nc columns; a poisoned row stays poisoned (R255, R260). -/
def Tri.resized (t : Tri) (nc : Nat) : Tri :=
  { t with nc := nc, rows := (List.range nc).map fun i => { blankRow nc i with pois := (t.rows.getD i (blankRow nc i)).pois } }
def TriRow.empty (r : TriRow) : Bool := r.ms.all fun m => m == 0
def Tri.empty (t : Tri) : Bool := t.rows.all TriRow.empty
def Tri.row (t : Tri) (i : Nat) : TriRow := t.rows.getD i (blankRow t.nc i)
def Tri.flag (t : Tri) (f : BitVec 5) : Tri := { t with flags := t.flags ||| f }
/-- Entry (i, j), for i ≤ j. -/
def Tri.ent (t : Tri) (i j : Nat) : Int := (t.row i).ms.getD (j - i) 0
def Tri.foreign (t : Tri) (job : Nat) : Bool := !t.free && t.owner != job
def Tri.take (t : Tri) (job : Nat) : Tri := if t.free then { t with free := false, owner := job } else t

/-- The status word of a set. -/
def Tri.word (t : Tri) : W64 :=
  w64 (t.nabs * 2 ^ 48 + (t.nc - 1) * 2 ^ 32 + t.free.toNat * 2 ^ 31 + (if t.free then 0 else t.owner) * 2 ^ 16 + t.empty.toNat * 2 ^ 7 +
    t.flags.toNat)

/-! ## Absorption (R249, R252, R253) -/

/-- The input vector on its way: mantissas from column i on, exponent, gain, poison. -/
structure InVec where
  ms : List Int
  x : Int
  h : Nat
  pois : Bool
  deriving DecidableEq, Repr

/-- Values as mantissas with one exponent (R249); the largest magnitude lies in [2^(e−1), 2^e). -/
def toMantissas (vs : List Val) : List Int × Int :=
  let e := (vs.filter fun v => !v.isZero).foldl (fun (m : Int) v => if m < v.mag.log2 + 1 then v.mag.log2 + 1 else m) (-100000)
  (vs.map fun v => let u : Int := roundAt .rne v.neg v.mag (e - 38); if v.neg then -u else u, e)

/-- A row compensated by R253. -/
def TriRow.compensate (r : TriRow) : TriRow :=
  if r.empty then r
  else
    let c := min 32 r.g
    let y := scaleK r.ms r.x (-(c : Int))
    { r with ms := y.1, x := y.2, g := if y.1.all (· == 0) then 0 else r.g - c }

/-- Exponents aligned (R250); an all-zero operand takes the exponent of the other (log entry 26). -/
def alignRow (ms : List Int) (x : Int) (vs : List Int) (y : Int) : List Int × List Int × Int :=
  if ms.all (· == 0) then (ms, vs, y)
  else if vs.all (· == 0) then (ms, vs, x)
  else if x < y then (ms.map fun m => alignShift m (y - x), vs, y)
  else (ms, vs.map fun m => alignShift m (x - y), x)

/-- Row i meets the vector (R252): the new row and the vector that leaves it. `hit` says that a rotation of this row mismatched (R255). -/
def meetRow (r : TriRow) (v : InVec) (hit : Bool) : TriRow × InVec :=
  let a := alignRow r.ms r.x v.ms v.x
  let k := vectoring (a.1.headD 0) (a.2.1.headD 0)
  let ps := (a.1.tail.zip a.2.1.tail).map fun p => rotation k.2.2 false p.1 p.2
  let row := renorm (k.1 :: ps.map Prod.fst) a.2.2
  let vec := renorm (ps.map Prod.snd) a.2.2
  let pois := r.pois || v.pois || hit
  let g := v.h + 1
  (⟨row.1, row.2, if row.1.all (· == 0) then 0 else g, pois⟩, ⟨vec.1, vec.2, g, pois⟩)

/-- Gains made equal before row i is met: an empty row adopts the vector's. -/
def equalGain (r : TriRow) (v : InVec) : TriRow × InVec :=
  if r.empty then ({ r with g := v.h }, v)
  else if v.h < r.g then let y := scaleK v.ms v.x ((r.g : Int) - v.h); (r, { v with ms := y.1, x := y.2, h := r.g })
  else if r.g < v.h then let y := scaleK r.ms r.x ((v.h : Int) - r.g); ({ r with ms := y.1, x := y.2, g := v.h }, v)
  else (r, v)

/-- The rows from i on absorb the vector; `hit` names the row whose rotation mismatched. -/
def absorbFrom (hit : Option Nat) : Nat → Nat → Tri → InVec → Tri
  | 0, _, t, _ => t
  | fuel + 1, i, t, v =>
    let e := equalGain (t.row i) v
    let t := { t with rows := t.rows.set i e.1 }
    let full := e.1.g == 63
    let t := if full then { t with rows := t.rows.map TriRow.compensate } else t
    let v := if full then let c := min 32 e.2.h; let y := scaleK e.2.ms e.2.x (-(c : Int)); { e.2 with ms := y.1, x := y.2, h := e.2.h - c } else e.2
    let m := meetRow (t.row i) v (hit == some i)
    let t := { t with rows := t.rows.set i m.1 }
    let t := if m.1.pois then t.flag sPSN else t
    let t := if hit = some i then t.flag sCHK else t
    absorbFrom hit fuel (i + 1) t m.2

/-- An input row absorbed (R249, R252). -/
def Tri.absorb (t : Tri) (vs : List Val) (pois : Bool) (hit : Option Nat) : Tri :=
  let t := { t with nabs := min (t.nabs + 1) 0xFFFF }
  if vs.any (fun v => !v.isFin) then { t.flag sINV with skipped := min (t.skipped + 1) 0xFFFF }
  else if vs.all Val.isZero then t
  else let m := toMantissas vs; absorbFrom (hit.map fun l => l % t.nc) t.nc 0 t ⟨m.1, m.2, 0, pois⟩

/-! ## Solving (R263) -/

/-- What a solve gathers: unknowns from i on (bits, value, depends on poison), SING, OFL, and an invalid operation. -/
structure Solve where
  xs : List (Nat × Bool)
  sing : Bool
  ofl : Bool
  inv : Bool
  deriving DecidableEq, Repr

/-- The row sum m(i, n) − Σ m(i, j)·xⱼ, and whether an operation in it is invalid. -/
def rowSum (t : Tri) (i n : Nat) (xs : List (Nat × Bool)) : Val × Bool :=
  xs.zipIdx.foldl (fun (a : Val × Bool) e =>
    let x := FF.fp32.value e.1.1
    let p := (Val.ofInt (t.ent i (i + 1 + e.2))).mul x
    let r := a.1.add .rne p.negate
    (r, a.2 || (p.isNan && !x.isNan) || (r.isNan && !a.1.isNan && !p.isNan))) (Val.ofInt (t.ent i n), false)

/-- xᵢ, from the unknowns above it. -/
def solveRow (t : Tri) (n i : Nat) (s : Solve) : Solve :=
  let d := t.ent i i
  let dep := (t.row i).pois || s.xs.any Prod.snd
  if d = 0 then { s with xs := (0x7FC00000, dep) :: s.xs, sing := true }
  else
    let r := rowSum t i n s.xs
    let q := FF.fp32.ofVal .rne (r.1.div (Val.ofInt d))
    { s with xs := (q.1, dep) :: s.xs, ofl := s.ofl || q.2 &&& fOFL == fOFL, inv := s.inv || r.2 }

/-- The rows n−1 down to 0. -/
def solveFrom (t : Tri) (n : Nat) : Nat → Solve → Solve
  | 0, s => s
  | i + 1, s => solveFrom t n i (solveRow t n i s)

/-- The bytes that a solve writes, and the set with its flags. -/
def Tri.solve (t : Tri) : List PByte × Tri :=
  let n := t.nc - 1
  let s := solveFrom t n n ⟨[], false, false, false⟩
  let rho := entryTo FF.fp32 ((t.ent n n).natAbs) (t.row n).x (t.row n).g
  let ofl := s.ofl || rho.2 &&& fOFL == fOFL
  let st := s.sing.toNat + (t.rows.any TriRow.pois).toNat * 2 + (s.inv || t.flags &&& sINV == sINV).toNat * 4 + ofl.toNat * 8 + t.skipped * 2 ^ 16
  (s.xs.flatMap (fun x => pbytes 4 x.1 x.2) ++ pbytes 4 rho.1 (t.row n).pois ++ pbytes 4 st false,
   t.flag ((if s.sing then sSING else 0) ||| (if ofl then sOFL else 0)))

/-! ## The state of the array -/

def State.rtaAt (s : State) (ck : Nat) : Rta := (s.clusterAt ck).rta
def State.modRta (s : State) (ck : Nat) (f : Rta → Rta) : State := s.modCluster ck fun c => { c with rta := f c.rta }
def Rta.set (a : Rta) (t : Nat) : Tri := a.sets.get Tri.init t
def Rta.putSet (a : Rta) (t : Nat) (x : Tri) : Rta := { a with sets := a.sets.set Tri.init t x }
def Rta.group (a : Rta) (q : Nat) : RtaGroup := a.groups.get RtaGroup.init q
def Rta.putGroup (a : Rta) (q : Nat) (g : RtaGroup) : Rta := { a with groups := a.groups.set RtaGroup.init q g }
def Rta.enabled (a : Rta) : List Nat := (List.range 4).filter fun q => (a.group q).act

def theRta : Eng Rta := do pure ((← get).rtaAt (← get).cmd.ck)
def putRta (a : Rta) : Eng Unit := modify fun s => s.modRta s.cmd.ck fun _ => a

/-- A set that a command names: 0x04 where another job owns it, else taken (R248). -/
def takeSet (r : RunCmd) (t : Nat) : Eng Tri := do
  let a ← theRta
  let x := a.set t
  must (!x.foreign r.cmd.job) 4
  putRta (a.putSet t (x.take r.cmd.job))
  pure (x.take r.cmd.job)

def putSet (t : Nat) (x : Tri) : Eng Unit := do putRta ((← theRta).putSet t x)

/-! ## ROT.CFG (R260) -/

/-- The groups of a configuration with their sets. -/
def cfgGroups (act tsel : Nat) (nc : List Nat) : List (Nat × Nat × Nat) :=
  ((List.range 4).filter (bitOf act)).map fun q => (q, tselOf tsel q, nc.getD q 0)

/-- ROT.CFG on the array. -/
def Rta.configure (a : Rta) (job : Nat) (rel z : Bool) (part act tsel : Nat) (nc : List Nat) : Rta :=
  let named := cfgGroups act tsel nc
  let groups : FMap RtaGroup := named.foldl (fun m e => m.set RtaGroup.init e.1 ⟨true, e.2.2, e.2.1, 0, none, 0, false⟩) []
  let a := { a with free := false, owner := job, part := part, groups := groups }
  let a := named.foldl (fun a e =>
    let t := (a.set e.2.1).take job
    a.putSet e.2.1 (if z then t.cleared e.2.2 else if t.empty then t.resized e.2.2 else t)) a
  if rel then
    let a := named.foldl (fun a e => a.putSet e.2.1 { a.set e.2.1 with free := true, owner := 0 }) a
    { a with free := true, owner := 0, part := 0, groups := [] }
  else a

/-- ROT.CFG (R248, R260). -/
def execRotCfg (rel z : Bool) (part : Fin 3) (act tsel : Nat) (nc : List Nat) (s : State) : Out :=
  command (fun r => do
    let a ← theRta
    let job := r.cmd.job
    must (a.free || a.owner == job) 4
    must ((cfgGroups act tsel nc).all fun e => !(a.set e.2.1).foreign job) 4
    must (z || (cfgGroups act tsel nc).all fun e => (a.set e.2.1).empty || (a.set e.2.1).nc == e.2.2) 3
    putRta (a.configure job rel z part act tsel nc)
    pure true) s

/-! ## ROT.TRI (R261, R262) -/

/-- A row descriptor: format, base, rows, stride. -/
structure RowDesc where
  fmt : Nat
  base : Nat
  n : Nat
  str : Nat
  deriving DecidableEq, Repr

/-- The format of AFMT or VFMT, and its size. -/
def rtaFmt (f : Nat) : FF := if f = 0 then FF.fp32 else if f = 1 then FF.bf16 else FF.fp16
def rtaSize (f : Nat) : Nat := if f = 0 then 4 else 2

/-- A row descriptor read from 16 bytes under the checks of R261, for nc columns. -/
def rowDesc (nc : Nat) (bs : List PByte) : Option RowDesc :=
  let a := pdw bs 0
  let b := pdw bs 1
  let d : RowDesc := ⟨fld a 61 3, fld a 0 56, fld b 32 24, fld b 0 20⟩
  let z := rtaSize d.fmt
  if only a [(0, 56), (61, 3)] && only b [(0, 20), (32, 24)] && decide (d.fmt < 3 ∧ d.base % z = 0 ∧ d.str % z = 0 ∧ nc * z ≤ d.str) && !ppois bs
  then some d else none

/-- The values that bytes hold. -/
def rtaValues (fmt n : Nat) (bs : List PByte) : List Val :=
  (List.range n).map fun i => (rtaFmt fmt).value (pfield bs (rtaSize fmt * i) (rtaSize fmt))

/-- Whether a row or vector is rotated at all: every value finite, and one not zero (R249, R266). -/
def turns (vs : List Val) : Bool := vs.all Val.isFin && !vs.all Val.isZero

/-- A group absorbs the row that stands next. A mismatch of nature waits for a row that is rotated (R22, R255). -/
def absorbRow (w : Who) (q : Nat) (d : RowDesc) : Eng Unit := do
  let a ← theRta
  let g := a.group q
  let bs ← readBytes w (d.base + (d.n - g.left) * d.str) (g.nc * rtaSize d.fmt)
  let vs := rtaValues d.fmt g.nc bs
  let hit ← if turns vs then mishapNow else pure none
  let a := a.putGroup q { g with left := g.left - 1 }
  putRta (a.putSet g.set ((a.set g.set).absorb vs (ppois bs) hit))

/-- The checks that STREAM and AUTO share (R248, R258). -/
def groupChecks (r : RunCmd) : Eng Rta := do
  let a ← theRta
  must (a.free || a.owner == r.cmd.job) 4
  must (!a.free) 0x10
  must (a.enabled.all fun q => !(a.set (a.group q).set).foreign r.cmd.job) 4
  pure a

/-- The sets of the enabled groups taken. -/
def Rta.takeSets (a : Rta) (job : Nat) : Rta := a.enabled.foldl (fun a q => a.putSet (a.group q).set ((a.set (a.group q).set).take job)) a

/-- The descriptor that STREAM saved for a group. -/
def savedDesc (aux : List Nat) (q : Nat) : RowDesc := ⟨aux.getD (4 * q) 0, aux.getD (4 * q + 1) 0, aux.getD (4 * q + 2) 0, aux.getD (4 * q + 3) 0⟩
def descNums (d : RowDesc) : List Nat := [d.fmt, d.base, d.n, d.str]

/-- The numbers of four groups, changed for one. -/
def setNums (aux : List Nat) (w q : Nat) (l : List Nat) : List Nat :=
  let full := (List.range (4 * w)).map fun i => aux.getD i 0
  full.take (w * q) ++ l ++ full.drop (w * q + w)

def setAux (l : List Nat) : Eng Unit := modify fun s => s.modRun fun r => { r with aux := l }

/-- A STREAM descriptor read and checked: any failure ends the command with 0x02 (R261, R392). -/
def streamDesc (w : Who) (gbase : Nat) (a : Rta) (q : Nat) : Eng RowDesc := do
  match rowDesc (a.group q).nc (← readBytes w (gbase + 16 * q) 16) with
  | some d => pure d
  | none => fail 2

/-- The start of STREAM: every descriptor checked before a row is absorbed; a set whose NC differs from its group's is 0x03. -/
def streamStart (r : RunCmd) (gbase : Nat) : Eng Bool := do
  let a ← groupChecks r
  let w := r.who (← get)
  let ds ← a.enabled.mapM fun q => streamDesc w gbase a q
  must (a.enabled.all fun q => (a.set (a.group q).set).empty || (a.set (a.group q).set).nc == (a.group q).nc) 3
  let qs := a.enabled.zip ds
  setAux (qs.foldl (fun l e => setNums l 4 e.1 (descNums e.2)) [])
  putRta (qs.foldl (fun a e =>
    let g := a.group e.1
    let t := a.set g.set
    (a.putGroup e.1 { g with left := e.2.n, fin := e.2.n == 0 }).putSet g.set
      (if t.empty then t.resized g.nc else t)) (a.takeSets r.cmd.job))
  setProg 1
  pure (ds.all fun d => d.n == 0)

/-- ROT.TRI in STREAM mode (R261): a row of any group that has rows left, at a step. -/
def execRotTriStream (gbase : Nat) (s : State) : Out :=
  command (fun r => do
    if r.prog = 0 then streamStart r gbase
    else
      let a ← theRta
      match anyOf (← get) (a.enabled.filter fun q => (a.group q).left != 0) with
      | none => pure true
      | some q =>
        absorbRow (r.who (← get)) q (savedDesc r.aux q)
        let a ← theRta
        putRta (a.putGroup q { a.group q with fin := (a.group q).left == 0 })
        pure ((← theRta).enabled.all fun q => (a.group q).left == 0)) s

/-- The phases of a group under AUTO: it pops for the first time, pops again, reads its descriptor, absorbs, has no work left. -/
def phFirst : Nat := 0
def phPop : Nat := 1
def phDesc : Nat := 2
def phRows : Nat := 3
def phIdle : Nat := 4

/-- The six numbers of a group under AUTO: phase, then its descriptor, then XBASE. -/
def autoNums (ph : Nat) (d : RowDesc) (x : Nat) : List Nat := ph :: descNums d ++ [x]
def autoPhase (aux : List Nat) (q : Nat) : Nat := aux.getD (6 * q) 0
def autoDesc (aux : List Nat) (q : Nat) : RowDesc := savedDesc ((aux.drop (6 * q + 1)).take 4) 0
def autoX (aux : List Nat) (q : Nat) : Nat := aux.getD (6 * q + 5) 0
def noDesc : RowDesc := ⟨0, 0, 0, 0⟩

/-- The deque that AUTO pops from: empty on a retired core. -/
def State.autoDq (s : State) (dqc : Nat) : List Range := if s.coreRetired (s.cmd.ck * 16 + dqc) then [] else (s.coreAt (s.cmd.ck * 16 + dqc)).dq

/-- A pop of AUTO (R170, R262): the problem index, and the deque after. -/
def autoPop (job : Nat) (dq : List Range) : Option (Nat × List Range) :=
  (popTop job dq).map fun x => (x.1.lo, if 1 < x.1.hi - x.1.lo then insertTop x.1 dq else x.2)
where
  /-- The top entry of the job's view advanced in its place. -/
  insertTop (x : Range) (dq : List Range) : List Range :=
    let n := (dq.reverse.takeWhile fun r => r.job != job).length
    dq.set (dq.length - 1 - n) { x with lo := x.lo + 1 }

/-- A problem that is not solved: BADP counts, and the group pops again (R262). -/
def badProblem (q : Nat) (aux : List Nat) : Eng Unit := do
  let a ← theRta
  let g := a.group q
  putRta (a.putGroup q { g with badp := min (g.badp + 1) 0xFFFF })
  setAux (setNums aux 6 q (autoNums phPop noDesc 0))

/-- The parking of a group alone on the page of its descriptor (R262). -/
def holdGroup (s : State) (q die : Nat) (pg : PageKey) (va kind : Nat) (t2 wr : Bool) (loc : Nat) : State :=
  (s.recordFault die pg va kind t2 wr loc).modRun fun r => { r with held := r.held ++ [(q, pg, false)] }

/-- A problem descriptor under the checks of R262. -/
def probDesc (nc : Nat) (bs : List PByte) : Option (RowDesc × Nat) :=
  let x := pdw bs 2
  if only x [(0, 56)] && fld x 0 56 % 4 == 0 && pdw bs 3 == 0 && !ppois bs then (rowDesc nc (bs.take 16)).map fun d => (d, fld x 0 56) else none

/-- A step of one group (R262). -/
def autoStep (r : RunCmd) (w : Who) (pbase dqc pmax q : Nat) : Eng Unit := do
  let s ← get
  let a ← theRta
  let g := a.group q
  let ph := autoPhase r.aux q
  if r.held.any fun h => h.1 == q && h.2.2 then
    modify fun s => s.modRun fun r => { r with held := r.held.filter fun h => h.1 != q }
    badProblem q r.aux
  else if ph = phFirst ∨ ph = phPop then
    match autoPop r.cmd.job (s.autoDq dqc) with
    | none =>
      putRta (a.putGroup q { g with fin := true })
      setAux (setNums r.aux 6 q (autoNums phIdle noDesc 0))
    | some (p, dq) =>
      let k := s.cmd.ck * 16 + dqc
      set (s.putCore k { s.coreAt k with dq := dq })
      putRta (a.putGroup q { g with prob := some p, left := 0 })
      if pmax ≤ p then badProblem q r.aux else setAux (setNums r.aux 6 q (autoNums phDesc noDesc 0))
  else if ph = phDesc then
    match (tryBytes w (pbase + 32 * g.prob.getD 0) 32).run s with
    | (.ok bs?, t) =>
      set t
      match bs?.bind (probDesc g.nc) with
      | none => badProblem q r.aux
      | some (d, x) =>
        putRta ((a.putSet g.set ((a.set g.set).cleared g.nc)).putGroup q { g with left := d.n })
        setAux (setNums r.aux 6 q (autoNums phRows d x))
    | (.error (.park die pg va kind t2 wr loc), _) => set (holdGroup s q die pg va kind t2 wr loc)
    | (.error e, _) => throw e
  else if 0 < g.left then absorbRow w q (autoDesc r.aux q)
  else
    let x := (a.set g.set).solve
    writeBytes w (autoX r.aux q) x.1
    putRta (a.putSet g.set x.2)
    setAux (setNums r.aux 6 q (autoNums phPop noDesc 0))
    modify fun s => if tcwCv r.cmd.w0 then s.counterUpdate s.cmd.ck r.cmd.job (tcwCtr r.cmd.w0) (.add 1) else s

/-- Groups that may move: not idle, not waiting for a page, and first pops in increasing group number. -/
def autoReady (r : RunCmd) (a : Rta) : List Nat :=
  a.enabled.filter fun q =>
    autoPhase r.aux q != phIdle && !(r.held.any fun h => h.1 == q && !h.2.2) &&
      (autoPhase r.aux q != phFirst || a.enabled.all fun p => decide (q ≤ p) || autoPhase r.aux p != phFirst)

/-- ROT.TRI in AUTO mode (R262). Its start sets BADP and FIN of the enabled groups to 0, which R264 does not say (DESIGN CHOICE, log entry 81). -/
def execRotTriAuto (pbase dqc pmax : Nat) (s : State) : Out :=
  command (fun r => do
    if r.prog = 0 then
      let a ← groupChecks r
      let a := a.takeSets r.cmd.job
      putRta (a.enabled.foldl (fun a q => a.putGroup q { a.group q with badp := 0, fin := false }) a)
      setProg 1
      pure (a.enabled == [])
    else
      let a ← theRta
      match anyOf (← get) (autoReady r a) with
      | none => throw .stall
      | some q =>
        autoStep r (r.who (← get)) pbase dqc pmax q
        let s ← get
        pure (match s.run? with
          | some r => a.enabled.all fun q => autoPhase r.aux q == phIdle
          | none => false)) s

/-- A row of a RAW image (R264, R261): none where it is malformed. An empty row has x = 0 and g = 0 (R247). -/
def rawRow (nc i : Nat) (bs : List PByte) : Option TriRow :=
  let h := pdw bs 0
  let ms := (List.range nc).map fun j => (pdw bs (1 + j)).toInt
  if only h [(0, 10), (16, 6)] && ms.all (fun m => decide (m.natAbs < 2 ^ 38)) && (ms.take i).all (· == 0) then
    let up := ms.drop i
    some (if up.all (· == 0) then ⟨up, 0, 0, ppois bs⟩
      else ⟨if up.headD 0 < 0 then up.map fun m => -m else up, sextNat 10 (fld h 0 10), fld h 16 6, ppois bs⟩)
  else none

/-- ROT.TRI in LOAD mode (R261). -/
def execRotTriLoad (set_ : Fin 4) (ibase : Nat) (s : State) : Out :=
  command (fun r => do
    let t ← takeSet r set_
    let w := r.who (← get)
    let hb ← readBytes w ibase 8
    let h := pdw hb 0
    must (only h [(0, 5), (7, 1), (16, 21), (48, 16)]) 0x12
    let nc := fld h 32 5 + 1
    let rows ← (List.range nc).mapM fun i => do
      match rawRow nc i (← readBytes w (ibase + 8 + 8 * (nc + 1) * i) (8 * (nc + 1))) with
      | some x => pure { x with pois := x.pois || ppois hb }
      | none => fail 0x12
    let f := BitVec.ofNat 5 (fld h 0 5)
    putSet set_ { t with nc := nc, rows := rows, nabs := fld h 48 16, flags := if rows.any TriRow.pois then f ||| sPSN else f }
    pure true) s

/-! ## ROT.SOLVE, ROT.READ, ROT.GAIN (R263 to R265) -/

/-- ROT.SOLVE (R263). -/
def execRotSolve (set_ : Fin 4) (xbase : Nat) (s : State) : Out :=
  command (fun r => do
    let t ← takeSet r set_
    let x := t.solve
    writeBytes (r.who (← get)) xbase x.1
    putSet set_ x.2
    pure true) s

/-- ROT.READ in FP32 form (R254, R264): one row at a step. -/
def execRotReadFp32 (set_ : Fin 4) (obase ostr : Nat) (s : State) : Out :=
  command (fun r => do
    let t ← takeSet r set_
    must (decide (4 * t.nc ≤ ostr)) 3
    let i := r.prog
    let row := t.row i
    let es := (List.range t.nc).map fun j => if j < i then (0, (0 : Flags)) else entryTo FF.fp32 (t.ent i j) row.x row.g
    writeBytes (r.who (← get)) (obase + i * ostr) (es.flatMap fun e => pbytes 4 e.1 row.pois)
    putSet set_ (if es.any fun e => e.2 &&& fOFL == fOFL then t.flag sOFL else t)
    setProg (i + 1)
    pure (decide (t.nc ≤ i + 1))) s

/-- One row of a RAW image. -/
def Tri.rawBytes (t : Tri) (i : Nat) : List PByte :=
  let row := t.row i
  pbytes 8 (row.g * 2 ^ 16 + lowBits 10 row.x) row.pois ++
    (List.range t.nc).flatMap fun j => pbytes 8 (if j < i then 0 else lowBits 64 (t.ent i j)) row.pois

/-- ROT.READ in RAW form (R264): the status word, then one row at a step. -/
def execRotReadRaw (set_ : Fin 4) (obase : Nat) (s : State) : Out :=
  command (fun r => do
    let t ← takeSet r set_
    let w := r.who (← get)
    if r.prog = 0 then
      writeBytes w obase (pbytes 8 t.word.toNat false)
      setProg 1
      pure false
    else
      let i := r.prog - 1
      writeBytes w (obase + 8 + 8 * (t.nc + 1) * i) (t.rawBytes i)
      setProg (r.prog + 1)
      pure (decide (t.nc ≤ r.prog))) s

/-- The 96 bytes of STAT (R264). -/
def Rta.statBytes (a : Rta) (job : Nat) : List PByte :=
  (List.range 4).flatMap (fun q =>
    let g := a.group q
    pbytes 8 (g.prob.getD 0xFFFFFFFF * 2 ^ 32 + g.left) false ++ pbytes 8 (g.badp * 2 ^ 16 + g.fin.toNat * 2 + g.act.toNat) false) ++
  (List.range 4).flatMap fun t => pbytes 8 (if (a.set t).foreign job then 0 else (a.set t).word.toNat) false

/-- ROT.READ in STAT form (R264). -/
def execRotReadStat (obase : Nat) (s : State) : Out :=
  command (fun r => do
    writeBytes (r.who (← get)) obase ((← theRta).statBytes r.cmd.job)
    pure true) s

/-- ROT.GAIN (R265). -/
def execRotGain (set_ : Fin 4) (mask : W32) (s : State) : Out :=
  command (fun r => do
    let t ← takeSet r set_
    let take (e : TriRow × Nat) : TriRow :=
      if mask.getLsbD e.2 then let y := scaleK e.1.ms e.1.x (-(e.1.g : Int)); { e.1 with ms := y.1, x := y.2, g := 0 } else e.1
    putSet set_ { t with rows := t.rows.zipIdx.map take }
    pure true) s

/-! ## ROT.APPLY (R266) -/

/-- The header of ROT.APPLY. -/
structure ApplyHdr where
  q : Nat
  n : Nat
  l : Nat
  s : Nat
  vstr : Nat
  ystr : Nat
  deriving DecidableEq, Repr

def applyHdr (z zy : Nat) (bs : List PByte) : Option ApplyHdr :=
  let a := pdw bs 0
  let b := pdw bs 1
  let c := pdw bs 2
  let d := pdw bs 3
  let h : ApplyHdr := ⟨fld a 0 56, fld b 40 24, fld b 32 6, fld b 16 12, fld c 0 20, fld d 0 20⟩
  if only a [(0, 56)] && only b [(16, 12), (32, 6), (40, 24)] && only c [(0, 20)] && only d [(0, 20)] && !ppois bs &&
      decide (2 ≤ h.l ∧ h.l ≤ 32 ∧ h.n ≠ 0 ∧ h.s ≠ 0 ∧ h.l * z ≤ h.vstr ∧ h.l * zy ≤ h.ystr ∧ h.q % 8 = 0) then some h else none

/-- A sequence entry: word, flip, and the pair of elements. -/
structure SeqEnt where
  sig : Nat
  flip : Bool
  i : Nat
  j : Nat
  deriving DecidableEq, Repr

def seqEnt (l : Nat) (bs : List PByte) : Option SeqEnt :=
  let w := pdw bs 0
  let i := fld w 40 5
  let j := fld w 48 5
  if only w [(0, 34), (40, 5), (48, 5)] && decide (i ≠ j ∧ i < l ∧ j < l) && !ppois bs then
    let x := if fld w 33 1 = 1 then bamToSig (fld w 0 32) else (fld w 32 1 == 1, fld w 0 32)
    some ⟨x.2, x.1, i, j⟩
  else none

/-- A vector on its way through a sequence: mantissas, exponent, a gain for each element. -/
structure AppVec where
  ms : List Int
  x : Int
  gs : List Nat
  deriving DecidableEq, Repr

/-- Elements multiplied by κ_d, each product rounded once, as the vector is renormalised (R252; log entry 26). -/
def AppVec.scale (v : AppVec) (es : List Nat) (d : Int) : AppVec :=
  let k := kappa d
  let ms : List Int := v.ms.zipIdx.map fun e => if es.contains e.2 then e.1 * k.1 * 2 ^ k.2.toNat else e.1 * 2 ^ (-k.2).toNat
  let y := renorm ms (v.x - (-k.2).toNat)
  { v with ms := y.1, x := y.2, gs := v.gs.zipIdx.map fun e => if es.contains e.2 then ((e.1 : Int) + d).toNat else e.1 }

/-- One rotation of a vector (R266). -/
def AppVec.turn (v : AppVec) (e : SeqEnt) : AppVec :=
  let gi := v.gs.getD e.i 0
  let gj := v.gs.getD e.j 0
  let v := if gi < gj then v.scale [e.i] ((gj : Int) - gi) else if gj < gi then v.scale [e.j] ((gi : Int) - gj) else v
  let v := if max gi gj = 63 then v.scale [e.i, e.j] (-32) else v
  let g := v.gs.getD e.i 0
  let r := rotation e.sig e.flip (v.ms.getD e.i 0) (v.ms.getD e.j 0)
  let y := renorm ((v.ms.set e.i r.1).set e.j r.2) v.x
  ⟨y.1, y.2, (v.gs.set e.i (g + 1)).set e.j (g + 1)⟩

/-- The elements that a vector gives. -/
def applySeq (f : FF) (vs : List Val) (es : List SeqEnt) : List Nat :=
  if vs.any (fun v => !v.isFin) then vs.map fun _ => f.nan
  else if vs.all Val.isZero then vs.map fun _ => 0
  else
    let m := toMantissas vs
    let v := es.foldl AppVec.turn ⟨m.1, m.2, vs.map fun _ => 0⟩
    (v.ms.zip v.gs).map fun e => (entryTo f e.1 v.x e.2).1

/-- The header as the command keeps it. -/
def ApplyHdr.nums (h : ApplyHdr) : List Nat := [h.q, h.n, h.l, h.s, h.vstr, h.ystr]
def savedHdr (aux : List Nat) : ApplyHdr := ⟨aux.getD 0 0, aux.getD 1 0, aux.getD 2 0, aux.getD 3 0, aux.getD 4 0, aux.getD 5 0⟩

/-- ROT.APPLY (R248, R266): its header, then one vector at a step. -/
def execRotApply (bf16 : Bool) (vfmt : Fin 3) (vbase ybase hbase : Nat) (s : State) : Out :=
  command (fun r => do
    let a ← theRta
    must (a.free || a.owner == r.cmd.job) 4
    let w := r.who (← get)
    let zy := if bf16 then 2 else 4
    if r.aux = [] then
      match applyHdr (rtaSize vfmt) zy (← readBytes w hbase 32) with
      | none => fail 0x11
      | some h => setAux h.nums; pure false
    else
      let h := savedHdr r.aux
      let bs ← readBytes w (vbase + r.prog * h.vstr) (h.l * rtaSize vfmt)
      let vs := rtaValues vfmt h.l bs
      let es ← (List.range h.s).mapM fun k => do
        match seqEnt h.l (← readBytes w (h.q + 8 * k) 8) with
        | some e => pure e
        | none => fail 0x11
      let hit ← if turns vs then mishapNow else pure none
      let ys := applySeq (if bf16 then FF.bf16 else FF.fp32) vs es
      writeBytes w (ybase + r.prog * h.ystr) (ys.flatMap fun y => pbytes zy y (ppois bs || hit.isSome))
      setProg (r.prog + 1)
      pure (decide (h.n ≤ r.prog + 1))) s

/-! ## ROT.ANG (R267) -/

/-- ROT.ANG, BAM32 to SIG32: one word at a step. -/
def execRotAngToSig32 (sbase dbase n : Nat) (s : State) : Out :=
  command (fun r => do
    let w := r.who (← get)
    let bs ← readBytes w (sbase + 4 * r.prog) 4
    let x := bamToSig (pnum bs)
    writeBytes w (dbase + 8 * r.prog) (pbytes 8 (x.1.toNat * 2 ^ 32 + x.2) (ppois bs))
    setProg (r.prog + 1)
    pure (decide (n ≤ r.prog + 1))) s

/-- ROT.ANG, SIG32 to BAM32. -/
def execRotAngToBam32 (sbase dbase n : Nat) (s : State) : Out :=
  command (fun r => do
    let w := r.who (← get)
    let bs ← readBytes w (sbase + 8 * r.prog) 8
    let v := pdw bs 0
    writeBytes w (dbase + 4 * r.prog) (pbytes 4 (sigToBam (fld v 32 1 == 1) (fld v 0 32)) (ppois bs))
    setProg (r.prog + 1)
    pure (decide (n ≤ r.prog + 1))) s

/-! ## Retirement and removal (R257) -/

/-- The triangle sets and the configuration lost. -/
def State.loseRta (s : State) (ck : Nat) : State := s.modRta ck fun _ => ⟨true, 0, 0, [], []⟩
/-- A removed job's configuration and sets cleared and freed. -/
def State.freeRta (s : State) (ck job : Nat) : State :=
  s.modRta ck fun a =>
    let a := if !a.free && a.owner == job then { a with free := true, owner := 0, part := 0, groups := [] } else a
    (List.range 4).foldl (fun a t => if (a.set t).free || (a.set t).foreign job then a else a.putSet t Tri.init) a

end Sys2Proof.Machine
end

