-- ==== Sys2Proof/Machine/Service.lean ====
section
/-! DEFINITION. Leases, suspicion and retirement: units and capacity (R354, R355), leases (R356 to R359), scores (R360), retirement and its
consequences (R361, R362, R365), capacity-change messages (R363, R364), LEASEQ, SUSPR, CAPACK and RETRD (R367 to R369). -/

namespace Sys2Proof.Machine

/-! ## Units (R354) -/

def kindOf (u : Nat) : Nat := u / 2 ^ 28
def unitDie (u : Nat) : Nat := u / 2 ^ 26 % 4
def unitCk (u : Nat) : Nat := unitDie u * 64 + u / 2 ^ 20 % 64
def unitIdx (u : Nat) : Nat := u % 256

/-- How many units of a kind a cluster, or for channels a die, holds. -/
def indexCount (kind die : Nat) : Nat :=
  match kind with
  | 1 => 16 | 2 => 1 | 3 => 1 | 4 => 1 | 5 => 2 | 6 => 18 | 7 => 128 | 8 => if die = 2 then 40 else 44 | 9 => 1 | _ => 0

/-- Whether an id names a unit. -/
def unitValid (u : Nat) : Bool :=
  decide (u < 2 ^ 32 ∧ unitDie u < 3 ∧ u / 256 % 4096 = 0 ∧ unitIdx u < indexCount (kindOf u) (unitDie u)) &&
    (!(kindOf u == 7 || kindOf u == 8) || u / 2 ^ 20 % 64 == 0)

/-- Kinds whose capacity is counted over their cluster, and the full count of a kind. -/
def ofCluster (kind : Nat) : Bool := [1, 2, 3, 4, 6].contains kind
def fullCount (kind : Nat) : Nat :=
  match kind with | 1 => 16 | 2 => 1 | 3 => 1 | 4 => 1 | 5 => 384 | 6 => 18 | 7 => 384 | 8 => 128 | _ => 192

/-- The capacity count of a unit's kind (R354). -/
def State.capacity (s : State) (u : Nat) : Nat :=
  fullCount (kindOf u) -
    (s.units.filter fun e => kindOf e.1 == kindOf u && (!ofCluster (kindOf u) || unitCk e.1 == unitCk u) && !e.2.serving).length

/-- STATE of a unit (R355). -/
def UnitSt.code : UnitSt → Nat
  | .inService => 0 | .leased => 1 | .held => 2 | .draining => 3 | .retired => 4

/-- The clusters that a unit counts toward (R357). -/
def unitClusters (u : Nat) : List Nat :=
  if kindOf u = 5 then [unitCk u, neighbour (unitCk u) (if unitIdx u = 0 then 1 else 2)] else if kindOf u = 7 ∨ kindOf u = 8 then [] else [unitCk u]

/-- Whether two links belong to one ring. -/
def sameRing (u v : Nat) : Bool :=
  kindOf u == 5 && kindOf v == 5 && unitIdx u == unitIdx v &&
    (if unitIdx u = 0 then torusY (unitCk u) == torusY (unitCk v) else torusX (unitCk u) == torusX (unitCk v))

/-! ## Capacity-change messages (R363, R364) -/

/-- The cluster that a job's notification goes to. -/
def Job.notifyCk (j : Job) (u : Nat) : Option Nat := if ofCluster (kindOf u) ∧ unitDie u < 3 then some (unitCk u) else j.place.head?

/-- A notification delivered; its SEQ is given here, so that the delivered numbers rise without a gap (R363, R368; DEDUCED, log 31). -/
def State.deliverNote (s : State) (job : Nat) (n : CapNote) : State :=
  let j := s.jobAt job
  let n := { n with lost := j.lostMark, seq := (j.capLast + 1) % 2 ^ 32 }
  let s := s.putJob job { j with lostMark := false, capLast := n.seq, unacked := j.unacked ++ [n] }
  match j.notifyCk n.unit.toNat with
  | none => s
  | some ck =>
    let pay := [w64 (n.unit.toNat * 2 ^ 32 + n.lost.toNat * 2 ^ 16 + n.reason), w64 (n.old * 2 ^ 32 + n.new), w64 (n.seq % 2 ^ 32), n.time]
    s.enqueue ck ⟨job, j.caph, false, none, true, none, ⟨mkHandle 4 false false j.caph job 15 (ck % 64) (dieOf ck) s.modid.toNat, 0, pay, []⟩⟩

/-- A notification delivered, or held behind four that are unacknowledged; CAPLOST names the unit of the notification discarded (R364, log 31). -/
def State.notifyJob (s : State) (job u reason old new : Nat) : State :=
  let j := s.jobAt job
  let n : CapNote := ⟨w32 u, false, reason, old, new, 0, w64 s.time⟩
  if j.unacked.length < 4 then s.deliverNote job n
  else if j.held.any (fun h => h.unit == n.unit) then
    s.modJob job fun j => { j with held := j.held.map fun h => if h.unit = n.unit then n else h }
  else if j.held.length < 60 then s.modJob job fun j => { j with held := j.held ++ [n] }
  else
    let old := ((j.held.head?.map CapNote.unit).getD 0).toNat
    (s.modJob job fun j => { j with held := j.held.drop 1 ++ [n], lostMark := true }).post 0xA job (unitDie old) (w64 old) 0 0

/-- Whether an installed job is affected by a unit and has a capacity handler. -/
def Job.affected (j : Job) (u : Nat) : Bool :=
  (j.jstate == 1 || j.jstate == 2) && j.caph != 0xFFF && (!ofCluster (kindOf u) || j.place.has (unitCk u))

/-- The messages of one event of a unit. -/
def State.notify (s : State) (u reason old new : Nat) : State :=
  ((s.jobs.filter fun e => e.2.affected u).map Prod.fst).foldl (fun s job => s.notifyJob job u reason old new) s

/-- A change of a unit with its messages: the counts before and after. -/
def State.unitEvent (s : State) (u reason : Nat) (f : UnitRec → UnitRec) : State :=
  let t := s.modUnit u f
  t.notify u reason (s.capacity u) (t.capacity u)

/-! ## Activations and messages discarded (R361, R378) -/

/-- An activation discarded with its buffered effects and its outstanding loads. -/
def State.discardAct (s : State) (ck : Nat) (b : Bank) (removed : Bool) : State :=
  let s := (b.buf.foldl State.dropEffect s).dropLoads (ck * 2 ^ 32 + b.seq)
  (s.freeSlotOf b.msg.slot).lateMsg ck b.job b.msg.m removed

/-- What a job has on a cluster discarded: queued messages, carafe sections, saved and running activations. -/
def State.discardJob (s : State) (ck job : Nat) (removed : Bool) : State :=
  let c := s.clusterAt ck
  let j := s.jobAt job
  let qs := c.queue.filter fun q => q.job == job
  let s := (s.putCluster ck { c with queue := c.queue.filter (fun q => q.job != job), saved := c.saved.filter fun x => x.bank.job != job }).putJob job
    { j with carafe := j.carafe.filter fun e => e.ck != ck }
  let s := qs.foldl (fun s q => (s.freeSlotOf q.slot).lateMsg ck job q.m removed) s
  let s := (j.carafe.filter fun e => e.ck == ck && e.sec != 2).foldl (fun s e => let s := s.mergeEntry e.loc; s.lateMsg ck job (s.carMsg e).m removed) s
  let s := (c.saved.filter fun x => x.bank.job == job).foldl (fun s x => (s.discardAct ck x.bank removed).poke (ctxLoc ck (1024 * x.idx)) (dw (fld (s.ctxDw ck x.idx 0) 0 63)) false) s
  (s.banks.filter fun e => ckOf e.1 == ck && e.2.st != .free && e.2.job == job).foldl
    (fun s e => ((s.leavePage e.2).discardAct ck e.2 removed).modBank e.1 Bank.freed) s

/-! ## Retirement (R361, R365) -/

/-- The 64 bytes of a retirement record, and with its signatures. -/
def recBytes (r : RetRec) : List Byte := r.dws.flatMap fun (w : W64) => leBytes 8 w.toNat
def recSigned (r : RetRec) : List Byte := recBytes r ++ Config.rsaSign (recBytes r) ++ Config.slhSign (recBytes r)

/-- Four doublewords of the first 32 bytes of a hash. -/
def hashWords (h : List Byte) : List W64 := (List.range 4).map fun k => w64 (leNat ((h.drop (8 * k)).take 8))

/-- The record of a retirement appended to flash; with flash full Karmos reports it instead. -/
def State.record (s : State) (u : Nat) : State :=
  let k := s.karmos
  let x := s.unitAt u
  if 4096 ≤ k.recs.length then { s with karmos := { k with side := k.side ++ [.flashFull] } }
  else
    let prev := match k.recs.getLast? with | some r => hashWords (Config.sha384 (recSigned r)) | none => [0, 0, 0, 0]
    let r : RetRec := ⟨[w64 (u * 2 ^ 32 + x.reason * 2 ^ 24 + 2 ^ 16), w64 s.time, w64 (k.boots * 2 ^ 32 + k.recs.length),
      w64 (x.score * 2 ^ 48 + x.failed.toNat * 2 ^ 32 + x.lseq % 2 ^ 32)] ++ prev, true, false⟩
    { s with karmos := { k with recs := k.recs ++ [r] } }

/-- The lowest-numbered core of a cluster in service. -/
def State.servingCore (s : State) (ck : Nat) : Option Nat :=
  ((List.range 16).map fun c => ck * 16 + c).find? fun core => s.coreServes core

/-- A range pushed onto the top of a deque, or lost and counted. -/
def State.moveRange (s : State) (core : Nat) (r : Range) : State :=
  let c := s.coreAt core
  if c.dq.length < 64 then s.putCore core { c with dq := c.dq ++ [r] } else s.modJob r.job fun j => { j with lostRange := j.lostRange + 1 }

/-- The deque of a retired core moves to the lowest-numbered core in service. -/
def State.moveDeque (s : State) (core : Nat) : State :=
  let l := (s.coreAt core).dq
  let s := s.putCore core { s.coreAt core with dq := [] }
  match s.servingCore (core / 16) with
  | some tgt => l.foldl (fun s r => s.moveRange tgt r) s
  | none => l.foldl (fun s r => s.modJob r.job fun j => { j with lostRange := j.lostRange + 1 }) s

/-- Whether a gang waits to be placed. -/
def Job.gangWaits (j : Job) : Bool := j.gang && (j.jstate == 1 || j.jstate == 2) && j.placed == [] && j.marked == []

/-- The payload of GANGSTALL (R168). -/
def gangPayload (job wait lack reason : Nat) : W64 := w64 (min (wait / 1000) 0xFFFFFFFF * 2 ^ 32 + lack * 2 ^ 24 + reason * 2 ^ 16 + job)

/-- Segments a job needs on a cluster (R105). -/
def Job.segments (j : Job) : Nat := max 1 ((j.img.spad.length + 65535) / 65536)

/-- Where the first n free places of 64 begin, beside the runs that are taken. -/
def firstGap (taken : List Run) (n : Nat) : Option Nat :=
  (List.range (65 - n)).find? fun k => !taken.any fun r => decide (k < r.seg + r.n ∧ r.seg < k + n)
/-- The first run of n free segments of a cluster (R105). -/
def Cluster.freeRun (c : Cluster) (n : Nat) : Option Nat := firstGap c.runs n
/-- The first run of free counters of a cluster for an allotment, in blocks of 64: they are shared out as segments are (R192). -/
def Cluster.freeCounters (c : Cluster) (allot : Nat) : Option Nat := firstGap c.cnts (allot / 64)

/-- Whether a cluster is reserved for a gang that keeps a job out (R167): of two gangs the one that has waited longer goes first. -/
def State.reservedFrom (s : State) (ck job : Nat) : Bool :=
  let j := s.jobAt job
  s.jobs.any fun e => e.1 != job && e.2.gangWaits && e.2.reserved.has ck &&
    !(j.gangWaits && j.reserved.has ck && decide (j.gangSince < e.2.gangSince ∨ (j.gangSince = e.2.gangSince ∧ job < e.1)))

/-- Whether a cluster can take a job now (R105, R167, R192). -/
def State.canTake (s : State) (ck job : Nat) : Bool :=
  let j := s.jobAt job
  let c := s.clusterAt ck
  !s.clusterGone ck && (c.freeRun j.segments).isSome && (c.freeCounters j.img.allot).isSome && !s.reservedFrom ck job

/-- A gang that waits and that a retired cluster makes unplaceable: its reservations end, and the host is told, once (R168). -/
def State.gangLost (s : State) (job : Nat) : State :=
  let j := s.jobAt job
  if j.gangWaits = false ∨ j.hopeless then s
  else
    let lack := (j.place.filter fun ck => !s.canTake ck job).length
    (s.putJob job { j with reserving := false, reserved := [], hopeless := true, stalled := true }).post 4 job 0
      (gangPayload job (s.time - j.gangSince) lack 2) 0 0

/-- A unit retired with another one, with a record of its own, unless it is retired already; a reason that is fixed stays (R361, R365). -/
def State.retireWith (s : State) (u : Nat) : State :=
  if (s.unitAt u).st = .retired then s
  else (s.modUnit u fun x => { x with st := .retired, due := none, run := none, leaving := none, askRetire := false, reason := if x.reason = 0 then 9 else x.reason }).record u

/-- A cluster taken out of a job's placement (R361). -/
def Job.without (j : Job) (ck : Nat) : Job :=
  { j with place := j.place.del ck, placed := j.placed.del ck, marked := j.marked.del ck, reserved := j.reserved.del ck, moved := j.moved.filter fun m => m.ck != ck }

/-- The units of a cluster that retire with it. -/
def clusterUnits (ck : Nat) : List Nat :=
  ((List.range 16).map fun i => unitOf 1 ck i) ++ [unitOf 2 ck 0, unitOf 3 ck 0, unitOf 4 ck 0] ++ (List.range 18).map fun i => unitOf 6 ck i

/-- Everything of a cluster gone with it (R361); its units retire with records of their own, and as it is in no placement any more they affect no job
(R363; log entry 36). -/
def State.retireCluster (s : State) (ck : Nat) : State :=
  let jobs := s.jobs.map Prod.fst
  let s := jobs.foldl (fun s job => s.discardJob ck job false) s
  let s := [0, 1, 2, 3, 4, 5].foldl (fun s cls => s.retireEngine ck cls) s
  let s := (s.groupsThrough ck).foldl (fun s g => s.disableGroup g.1 g.2) s
  let s := s.stopFr ck
  let s := (List.range 16).foldl (fun s c => s.moveDeque (ck * 16 + c)) s
  let s := (clusterUnits ck).foldl State.retireWith s
  let s := s.modCluster ck fun c => { Cluster.init with seq := c.seq, lost := c.lost, gated := c.gated, rrN := c.rrN, rrU := c.rrU, retEn := c.retEn, retIdle := c.retIdle }
  let s := { s with counters := s.counters.filter fun e => e.1 / 2 ^ 27 != ck }
  jobs.foldl (fun s job => (if (s.jobAt job).place.has ck then s.gangLost job else s).modJob job fun j => j.without ck) s

/-- Retired banks of a cluster. -/
def State.banksGone (s : State) (ck : Nat) : Nat := ((List.range 18).filter fun i => (s.unitAt (unitOf 6 ck i)).st == .retired).length

/-- A cluster retired: its record, its consequences, and then its messages, to placements that no longer hold it (R361, R363, R365). -/
def State.retireClusterUnit (s : State) (ck reason : Nat) : State :=
  let u := unitOf 9 ck 0
  if (s.unitAt u).st = .retired then s
  else
    let old := s.capacity u
    (((s.modUnit u fun x => { x with st := .retired, reason := reason }).record u).retireCluster ck).notify u reason old (old - 1)

/-- What the retirement of a unit brings (R361). -/
def State.consequences (s : State) (u : Nat) : State :=
  let ck := unitCk u
  match kindOf u with
  | 1 =>
    let s := s.moveDeque (ck * 16 + unitIdx u)
    if (s.servingCore ck).isNone then s.retireClusterUnit ck 9 else s
  | 2 => (s.retireEngine ck 0).loseTiles ck
  | 3 => (s.retireEngine ck 1).loseRta ck
  | 4 => (s.retireEngine ck 2).loseFr ck
  | 6 => if 2 ≤ s.banksGone ck then s.retireClusterUnit ck 9 else s
  | _ => s

/-- A unit retires with the reason it has: the record, the messages, the consequences (R361, R365). -/
def State.retireUnit (s : State) (u : Nat) : State :=
  if kindOf u = 9 then s.retireClusterUnit (unitCk u) (s.unitAt u).reason
  else
    let t := s.modUnit u fun x => { x with st := .retired, due := none, run := none, leaving := none, askRetire := false }
    let t' := (t.record u).notify u (s.unitAt u).reason (s.capacity u) (t.capacity u)
    t'.consequences u

/-- A scratchpad data bank that is an erasure rewritten from the code before it returns (R125, R358); a check bank that returns is recomputed to what
the model keeps in it, as both check banks follow every write. -/
def State.rewriteBank (s : State) (ck b : Nat) : State :=
  if (s.erasures ck).contains b then
    let rows := ((s.mem.map Prod.fst).filter fun k => isSpad k && spadCk k == ck) ++
      ((s.check.map fun e => e.1 / 128 * 1024 + e.1 / 2 % 64).filter fun k => spadCk k == ck)
    { s with mem := rows.foldl (fun m k => FMap.set 0 m (rowByte k b) (s.rebuilt (rowByte k b))) s.mem }
  else s

/-- The words of some data banks of a cluster poisoned. -/
def State.poisonBanks (s : State) (ck : Nat) (bs : List Nat) : State :=
  { s with pois := (List.range (2 ^ 19)).foldl (fun p k => if bs.contains (spadBank (spadLoc ck (8 * k))) then p.add (spadLoc ck (8 * k)) else p) s.pois }

/-- A scratchpad bank that is withdrawn or retired while two of its cluster already are: the code explains no three (R124), so the words of the data banks
among them are lost, and poisoned (R120; DESIGN CHOICE, log entry 76). -/
def State.bankLeaves (s : State) (u : Nat) : State :=
  let ck := unitCk u
  if kindOf u = 6 ∧ (s.unitAt u).serving ∧ 2 ≤ s.banksOut ck then
    ((s.erasures ck).foldl (fun s b => s.rewriteBank ck b) s).poisonBanks ck ((List.range 16).filter fun b => s.bankOut ck b || b == unitIdx u)
  else s

/-- A withdrawn unit back in service, with its messages (R358, R361); what it held of a failed cupping is void. -/
def State.returnUnit (s : State) (u reason : Nat) (f : UnitRec → UnitRec) : State :=
  let s := if kindOf u = 6 ∧ unitIdx u < 16 then s.rewriteBank (unitCk u) (unitIdx u) else s
  s.unitEvent u reason fun x => { f x with st := .inService, reason := 0, askRetire := false, leaving := none, failed := 0, lseq := 0 }

/-- Whether a unit is a link whose ring already holds a retired link (R361). -/
def State.ringSpent (s : State) (u : Nat) : Bool :=
  kindOf u == 5 && s.units.any fun e => e.1 != u && sameRing e.1 u && e.2.st == .retired

/-- A link that is not retired because its ring has lost one (R361): it stays in service, or returns to it, and LINKHOLD is posted once. -/
def State.keepLink (s : State) (u : Nat) : State :=
  let x := s.unitAt u
  let s := if x.withdrawn then s.returnUnit u (Config.linkReason (w32 u)).toNat id else s.modUnit u fun x => { x with reason := 0, askRetire := false }
  let s := s.modUnit u fun x => { x with linkhold := true }
  if x.linkhold then s else s.post 9 0 (unitDie u) (w64 u) 0 0

/-- A unit retires, unless it is a link that must stay (R361). -/
def State.retireOrKeep (s : State) (u : Nat) : State := if s.ringSpent u then s.keepLink u else s.retireUnit u

/-- Whether withdrawal is complete: no bank of a core holds an activation. -/
def State.withdrawalDone (s : State) (u : Nat) : Bool :=
  kindOf u != 1 || [0, 1, 2, 3, 4].all fun k => (s.bankAt ((unitCk u * 16 + unitIdx u) * 5 + k)).st == .free

/-- A withdrawn unit whose retirement has started: it retires at once, or is held until the host answers (R361). -/
def State.takeOut (s : State) (u : Nat) (atOnce : Bool) : State :=
  let s := s.bankLeaves u
  if atOnce then s.retireUnit u
  else (s.unitEvent u 4 fun x => { x with st := .held, heldAt := s.time }).post 7 0 (unitDie u) (w64 u) (w64 (s.unitAt u).score) 0

/-- Retirement starts (R361): a link whose ring already lost one stays; a channel drains; a core that still holds activations is withdrawn first, and
reads as Held meanwhile (log entry 31); else the mode decides. `host` says that the host has decided. -/
def State.startRetire (s : State) (u reason : Nat) (host : Bool) : State :=
  if s.ringSpent u then s.keepLink u
  else
    let s := s.modUnit u fun x => { x with reason := reason, askRetire := false }
    let atOnce := host || !s.assisted 1
    if kindOf u = 7 ∨ kindOf u = 8 then s.unitEvent u 0xA fun x => { x with st := .draining }
    else if s.withdrawalDone u then s.takeOut u atOnce
    else s.modUnit u fun x => { x with st := .held, leaving := some atOnce }

/-- A core that leaves and holds no activation any more is withdrawn (R361): the event counts from the capacity before. -/
def State.endLeave (s : State) (u : Nat) : State :=
  match (s.unitAt u).leaving with
  | some atOnce => if s.withdrawalDone u then (s.modUnit u fun x => { x with st := .inService, leaving := none }).takeOut u atOnce else s
  | none => s

/-! ## Leases (R356 to R359) -/

/-- The duration of a kind's cupping in ns (R356). -/
def duration (kind : Nat) : Nat :=
  match kind with
  | 1 => 120000 | 2 => 600000 | 3 => 300000 | 4 => 400000 | 5 => 40000 | 6 => 5000000 | 7 => 8000000 | _ => 20000000

/-- The period of a kind in seconds; 0 for none. -/
def State.period (s : State) (kind : Nat) : Nat := s.karmos.period.get 0 kind

/-- A PERIOD set over the side band applies from the next lease of its kind to end (R379). -/
def State.applyPeriod (s : State) (kind : Nat) : State :=
  match s.karmos.newPeriod.get none kind with
  | some p => { s with karmos := { s.karmos with period := s.karmos.period.set 0 kind p, newPeriod := s.karmos.newPeriod.erase kind } }
  | none => s

/-- Whether R357 lets a lease of a unit start. -/
def State.leaseOk (s : State) (u : Nat) : Bool :=
  let others := s.units.filter fun e => e.1 != u && e.2.withdrawn
  (s.unitAt u).st == .inService && kindOf u != 9 &&
    !(others.any fun e => (unitClusters e.1).any fun c => (unitClusters u).contains c) &&
    decide ((others.filter fun e => unitDie e.1 == unitDie u).length < 4) &&
    (kindOf u != 1 || decide (5 ≤ (s.clusterAt (unitCk u)).freeCtx)) &&
    (kindOf u != 5 || !(s.units.any fun e => e.1 != u && sameRing e.1 u && (e.2.withdrawn || e.2.st == .retired))) &&
    (kindOf u != 6 || s.banksGone (unitCk u) == 0)

/-- A doubleword of a lease record (R359, R372). -/
def State.putLease (s : State) (die ring k : Nat) (v : W64) : State :=
  s.modDie die fun d => { d with leases := d.leases.set 0 (4 * ring + k) v }

/-- The first doubleword of a lease record. -/
def leaseHead (u : Nat) (l : Lease) (outcome : Nat) : W64 :=
  w64 (u * 2 ^ 32 + (Config.cuppingId (w32 u)).toNat * 2 ^ 16 + outcome * 2 ^ 8 + l.host.toNat * 2 + l.early.toNat)

/-- A lease starts (R358): notice, the record, withdrawal. -/
def State.startLease (s : State) (u : Nat) (early host : Bool) : State :=
  let die := unitDie u
  let d := s.dieAt die
  let x := s.unitAt u
  let l : Lease := ⟨early, host, s.time, s.time, x.score, d.lrnext, d.lseq + 1, false, true⟩
  let s := s.modDie die fun d => { d with lrnext := (d.lrnext + 1) % 256, lseq := d.lseq + 1 }
  let s := s.putLease die l.ring 0 (leaseHead u l 0)
  let s := s.putLease die l.ring 1 0
  let s := s.putLease die l.ring 2 (w64 (s.period (kindOf u)))
  let s := s.putLease die l.ring 3 (w64 (x.score * 2 ^ 48 + x.score * 2 ^ 32 + l.seq % 2 ^ 32))
  s.unitEvent u (if early then 2 else 1) fun x => { x with st := .leased, due := none, run := some l }

/-- The end of a withdrawal noted: the lease's duration counts from here. -/
def State.noteHalt (s : State) (u : Nat) : State :=
  match (s.unitAt u).run with
  | some l =>
    if l.halted ∨ s.withdrawalDone u = false then s
    else (s.modUnit u fun x => { x with run := some { l with halted := true, start := s.time } }).putLease (unitDie u) l.ring 1 (w64 s.time)
  | none => s

/-- PERIODIC_LEASE_DUE (R356). -/
def execPeriodicLeaseDue (u : W32) (s : State) : Out :=
  let x := s.unitAt u.toNat
  let p := s.period (kindOf u.toNat)
  .next (if unitValid u.toNat = false ∨ kindOf u.toNat = 9 ∨ p = 0 ∨ x.due.isSome ∨ x.run.isSome ∨ x.st = .retired ∨ s.time < x.ended + p * 1000000000 then s
    else s.modUnit u.toNat fun x => { x with due := some ⟨false, false, s.time, 0, 0, 0, 0, false, false⟩ })

/-- Whether one due lease starts before another (R357). -/
def Lease.before (a b : Lease) : Bool := (a.early && !b.early) || (a.early == b.early && decide (a.since < b.since))

/-- LEASE_START (R357, R358): in hardware mode, a due lease that may start and none that may goes before it. -/
def execLeaseStart (u : W32) (s : State) : Out :=
  .next (match (s.unitAt u.toNat).due with
    | some l =>
      if s.assisted 0 ∨ s.leaseOk u.toNat = false ∨
          (s.units.any fun e => e.1 != u.toNat && unitDie e.1 == unitDie u.toNat && s.leaseOk e.1 && match e.2.due with | some m => m.before l | none => false) then s
      else s.startLease u.toNat l.early false
    | none => s)

/-- CUPPING_END (R358, R359, R361). -/
def execCuppingEnd (u : W32) (pass : Bool) (s : State) : Out :=
  let u := u.toNat
  .next (match (s.unitAt u).run with
    | none => s
    | some l =>
      if l.halted = false ∨ s.time < l.start + duration (kindOf u) then s
      else
        let p := s.period (kindOf u)
        let s := s.modUnit u fun x => { x with
          run := none, ended := s.time, score := if pass then x.score else min (x.score + 1024) 0xFFFF,
          failed := if pass then 0 else Config.cuppingId (w32 u), lseq := if pass then 0 else l.seq }
        let s := s.applyPeriod (kindOf u)
        let x := s.unitAt u
        let s := s.putLease (unitDie u) l.ring 0 (leaseHead u l (if pass then 1 else 2))
        let s := s.putLease (unitDie u) l.ring 2 (w64 ((s.time - l.start) / 1000 * 2 ^ 32 + p))
        let s := s.putLease (unitDie u) l.ring 3 (w64 (l.sc0 * 2 ^ 48 + x.score * 2 ^ 32 + l.seq % 2 ^ 32))
        if x.askRetire then s.startRetire u 8 true
        else if !pass then s.startRetire u 6 false
        else
          let s := s.returnUnit u 3 id
          if 1024 ≤ x.score then s.startRetire u 7 false else s)

/-- RETIRE_ANSWER_TIMEOUT (R361). -/
def execRetireAnswerTimeout (u : W32) (s : State) : Out :=
  let x := s.unitAt u.toNat
  .next (if x.st = .held ∧ x.leaving = none ∧ x.heldAt + 10000000000 ≤ s.time then s.retireOrKeep u.toNat else s)

/-- SCORE_HALVING (R360): once at each multiple of 24 h. -/
def execScoreHalving (die : Nat) (s : State) : Out :=
  let n := (s.dieAt die).halved
  .next (if 3 ≤ die ∨ s.time / 86400000000000 ≤ n then s
    else ((s.units.map Prod.fst).filter fun u => unitDie u == die).foldl (fun s u => s.modUnit u fun x => { x with score := x.score / 2 })
      (s.modDie die fun d => { d with halved := n + 1 }))

/-- PAGE_MIGRATION (R362): a page moved off a draining channel where the tier's pages are the die's to move, which a move that has begun does not ask
again (R366); the channel retires when no page holds a byte of it. -/
def execPageMigration (u : W32) (job va : Nat) (s : State) : Out :=
  .next (if (s.unitAt u.toNat).st ≠ .draining then s
    else
      let s := if s.faultByHost (kindOf u.toNat == 8) && (s.unitAt u.toNat).moving.isNone then s else s.migrate u.toNat job va
      let s := s.mergeTables
      if s.pagesHold u.toNat then s else s.retireUnit u.toNat)

/-! ## What falls due by itself -/

/-- A unit whose score has reached 1,024 starts retirement (R360). -/
def State.meetScore (s : State) (u : Nat) : State :=
  let x := s.unitAt u
  if x.reason ≠ 0 ∧ x.st = .inService then s.startRetire u x.reason false else s

/-- A core that leaves is withdrawn (R361); a score that reached its threshold has its effect; a due lease is told to the host that schedules leases (R366); a completed
withdrawal is noted (R358). -/
def State.settleUnit (s : State) (u : Nat) : State :=
  let s := (s.noteHalt u).endLeave u
  let x := s.unitAt u
  let s := match x.due with
    | some l =>
      if s.assisted 0 ∧ l.told = false then (s.modUnit u fun x => { x with due := some { l with told := true } }).post 8 0 (unitDie u) (w64 u) 0 0 else s
    | none => s
  s.meetScore u

def State.settleUnits (s : State) : State := (s.units.map Prod.fst).foldl (fun s u => s.settleUnit u) s

/-! ## LEASEQ, SUSPR, CAPACK, RETRD (R367 to R369) -/

/-- The number of LEASEQ (R367): seconds to the next periodic lease, or microseconds left. -/
def State.leaseLeft (s : State) (u : Nat) : Nat :=
  let x := s.unitAt u
  let p := s.period (kindOf u)
  match x.st, x.run with
  | .inService, _ => if p = 0 then 0xFFFFFFFF else (x.ended + p * 1000000000 - s.time) / 1000000000
  | .leased, some l => if l.halted then (l.start + duration (kindOf u) - s.time) / 1000 else duration (kindOf u) / 1000
  | _, _ => 0

/-- The unit that a register names. -/
def unitArg (u : W64) : Option Nat := if unitValid u.toNat then some u.toNat else none

/-- LEASEQ (R367). -/
def execLeaseq (rd rs1 : Reg) (s : State) : Out :=
  finish ((clean s [rs1]).bind fun s _ =>
    let v := s.b.getX rs1
    match unitArg v with
    | none => .trap s 5 v
    | some u =>
      let x := s.unitAt u
      .ok (s.modB fun b => b.setX rd (w64 (x.st.code * 2 ^ 60 + x.score * 2 ^ 32 + s.leaseLeft u)) false) ())

/-- SUSPR (R360, R367): with an rs2 field it is service-mode only, and charges the unit, the threshold test being part of the step. -/
def execSuspr (rd rs1 rs2 : Reg) (s : State) : Out :=
  if rs2 ≠ 0 ∧ s.b.service = false then .next (illegal s (.suspr rd rs1 rs2))
  else finish ((clean s [rs1, rs2]).bind fun s _ =>
    let v := s.b.getX rs1
    let p := s.b.getX rs2
    match unitArg v with
    | none => .trap s 5 v
    | some u =>
      (check s (kindOf u != 9) 5 v).bind fun s _ =>
      (check s (rs2 == 0 || decide (1 ≤ p.toNat ∧ p.toNat ≤ 1024)) 5 p).bind fun s _ =>
        let s := if rs2 = 0 then s else (s.charge u p.toNat).meetScore u
        let x := s.unitAt u
        .ok (if s.b.st = .free then s else s.modB fun b => b.setX rd (w64 (x.st.code * 2 ^ 16 + x.score)) false) ())

/-- Held notifications delivered while fewer than four are unacknowledged (R364, R368). -/
def State.deliverHeld (s : State) (job : Nat) : Nat → State
  | 0 => s
  | n + 1 =>
    let j := s.jobAt job
    match j.held with
    | [] => s
    | h :: t => if j.unacked.length < 4 then ((s.putJob job { j with held := t }).deliverNote job h).deliverHeld job n else s

/-- CAPACK (R368). -/
def execCapack (rs1 : Reg) (s : State) : Out :=
  finish ((clean s [rs1]).bind fun s _ =>
    let v := s.b.getX rs1
    let n := fld v 0 32
    (check s (decide (((s.jobAt s.jid).capLast + 2 ^ 32 - n) % 2 ^ 32 < 2 ^ 31)) 5 v).bind fun s _ =>
      let s := s.modJob s.jid fun j => { j with unacked := j.unacked.filter fun h => !decide ((n + 2 ^ 32 - h.seq) % 2 ^ 32 < 2 ^ 31) }
      .ok (s.deliverHeld s.jid 4) ())

/-- RETRD (R369). -/
def execRetrd (rd rs1 rs2 : Reg) (s : State) : Out :=
  finish ((clean s [rs1, rs2]).bind fun s _ =>
    let a := s.b.getX rs2
    let recs := s.karmos.recs
    let count (s : State) : Res Unit := .ok (s.modB fun b => b.setX rd (w64 recs.length) false) ()
    match recs[(s.b.getX rs1).toNat]? with
    | none => count s
    | some r =>
      let bytes := recBytes r
      (checked s).bind fun s _ =>
      (check s (fld a 0 5 == 0) 2 a).bind fun s _ =>
      (s.locate .write a 32 3 rs2 5).bind fun s l0 => (s.locate .write (a + 32) 32 3 rs2 5).bind fun s l1 =>
      if s.full 32 [l0, l1] then .hold s
      else (s.write false a 32 (leNat (bytes.take 32)) false rs2).bind fun s _ =>
        (s.write false (a + 32) 32 (leNat (bytes.drop 32)) false rs2).bind fun s _ => count s)

end Sys2Proof.Machine
end

