-- ==== Sys2Proof/Machine/Place.lean ====
section
/-! DEFINITION. Jobs: the descriptor and its checks (R304, R320, R376, R393), placement on clusters (R105, R152, R167, R168, R192), the
configuration-complete wave, the work queue (R191), removal (R378). -/

namespace Sys2Proof.Machine

/-! ## Placement -/

/-- A counter as a preset sets it (R192). -/
def presetCounter (p : Preset) : Counter := { Counter.init with thresh := p.thresh, armed := true, rearm := p.rearm, act := p.act, hid := p.hid, ttra := p.ttra }

/-- The runs of segments and counters that a cluster gives a job (R105, R192): where each begins. -/
def State.freeRuns (s : State) (ck job : Nat) : Option (Nat × Nat) :=
  let j := s.jobAt job
  ((s.clusterAt ck).freeRun j.segments).bind fun k => ((s.clusterAt ck).freeCounters j.img.allot).map fun m => (k, m)

/-- Segments and counters of a cluster allotted to a job. -/
def State.allot (s : State) (ck job : Nat) (at_ : Nat × Nat) : State :=
  let j := s.jobAt job
  s.modCluster ck fun c => { c with runs := c.runs ++ [⟨job, at_.1, j.segments⟩], cnts := c.cnts ++ [⟨job, at_.2, j.img.allot / 64⟩] }

/-- Whether no bank of a cluster's scratchpad is in retention: an access to one that is waits (R126). -/
def State.awake (s : State) (ck : Nat) : Bool := (s.clusterAt ck).inret == []
/-- An access to a run, which lies in every bank of the scratchpad, seen by the banks (R123, R126). -/
def State.touchRun (s : State) (ck : Nat) : State := (List.range 16).foldl (fun s b => s.touch (spadLoc ck (64 * b))) s

/-- A cluster configured for a job (R376): segments, counters and presets; the spad data; the code, and behind it the start marker. -/
def State.configure (s : State) (job ck : Nat) : State :=
  let j := s.jobAt job
  match s.freeRuns ck job with
  | none => s
  | some (k, m) =>
    let s := (s.touchRun ck).allot ck job (k, m)
    let s := j.img.presets.foldl (fun s p => { s with counters := s.counters.set Counter.init (cntKey ck job p.id) (presetCounter p) }) s
    let s := s.poke (spadLoc ck (k * 65536)) j.img.spad false
    let code : FMap W32 := j.img.code.zipIdx.foldl (fun m e => FMap.set 0 m ((ck * 32768 + job) * 2 ^ 16 + e.2) e.1) s.code
    let s := s.modJob job fun j => { j with marked := j.marked.add ck }
    { s with code := code, flight := s.flight ++ [Flight.marker ck job] }

/-- START_MARKER (R152): from here on the cluster dispatches activations of the job. -/
def execStartMarker (k : Nat) (s : State) : Out :=
  .next (match s.takeFlight k with
    | some (.marker ck job, s) => if (s.jobAt job).marked.has ck then s.modJob job fun j => { j with placed := j.placed.add ck } else s
    | _ => s)

/-- CONFIGURATION_COMPLETE_WAVE (R376): the wave passes the next configured cluster whose marker has arrived; behind the last the job is
installed. -/
def execConfigurationCompleteWave (job : Nat) (s : State) : Out :=
  let j := s.jobAt job
  .next (match j.wave with
    | none => s
    | some k =>
      match j.marked.find? fun ck => decide (k ≤ ck) with
      | some ck => if j.placed.has ck then s.putJob job { j with wave := some (ck + 1) } else s
      | none => (s.putJob job { j with wave := none, jstate := 2 }).post 1 job 0 0 0 0)

/-! ## Gangs (R167, R168) -/

/-- Clusters of a gang's placement that cannot take it now. -/
def State.lacking (s : State) (job : Nat) : List Nat := (s.jobAt job).place.filter fun ck => !s.canTake ck job

/-- Whether an access that a stall holds lies in a job's run on a cluster. -/
def State.runBusy (s : State) (ck job : Nat) : Bool :=
  match s.runOf ck job with
  | some r => s.pageBusy (spadLoc ck (r.seg * 65536)) (r.n * 65536)
  | none => false

/-- Whether nothing of a job runs on a cluster: no bank holds an activation of it, no engine a command, and no access to its run is outstanding. -/
def State.jobStill (s : State) (ck job : Nat) : Bool :=
  !(s.banks.any fun e => ckOf e.1 == ck && e.2.st != .free && e.2.job == job) && !s.runBusy ck job &&
    [0, 1, 2, 3, 4, 5].all fun cls => let e := s.engAt ck cls; !(e.q.any fun c => c.job == job) && !(e.runs.any fun r => r.cmd.job == job)

/-- The places of n bytes of a cluster's scratchpad that may hold something else than zero: those listed, and those of banks that are erasures. -/
def State.cellsIn (s : State) (ck lo n : Nat) : List Nat :=
  ((s.mem.map Prod.fst).filter fun k => decide (lo ≤ k ∧ k < lo + n)) ++
    match s.erasures ck with
    | [] => []
    | gone => ((List.range n).map fun i => lo + i).filter fun k => gone.contains (spadBank k)

/-- n bytes of a scratchpad set to zero, with their poison. -/
def State.zeroRun (s : State) (ck lo n : Nat) : State :=
  let s := (s.cellsIn ck lo n).foldl (fun s k => s.putByte k 0) s
  { s with pois := s.pois.filter (fun k => !(decide (lo ≤ k ∧ k < lo + n))), stale := freshAt s.stale lo n }

/-- A job moved out of a cluster (R167): its run copied away, to a place in T1 that the spec does not give and that the model keeps apart from T1's
bytes, in Job.moved (DESIGN CHOICE, log entry 35), its segments and its share of the counters free; its queued messages go to the carafe, in
front of those it holds already. The counters keep what they count (log entry 36). -/
def State.moveOut (s : State) (ck job : Nat) : State :=
  match s.runOf ck job with
  | none => s
  | some r =>
    let lo := spadLoc ck (r.seg * 65536)
    let m : MovedOut := ⟨ck, (s.cellsIn ck lo (r.n * 65536)).map fun k => (k - lo, s.byteAt k),
      (s.pois.filter fun k => decide (lo ≤ k ∧ k < lo + r.n * 65536)).map fun k => k - lo⟩
    let qs := (s.clusterAt ck).queue.filter fun q => q.job == job && q.entry
    let n := (s.jobAt job).carafe.length
    let s := (s.touchRun ck).modCluster ck fun c =>
      { c with runs := c.runs.filter (fun x => x.job != job), cnts := c.cnts.filter (fun x => x.job != job),
               queue := c.queue.filter fun q => !(q.job == job && q.entry) }
    let s := s.modJob job fun j => { j with placed := j.placed.del ck, moved := j.moved ++ [m] }
    (qs.foldl (fun s q => s.spill ck q.urg.toNat job q []) s).modJob job fun j => { j with carafe := j.carafe.drop n ++ j.carafe.take n }

/-- GANG_RESERVATION (R167): after 2 ms a gang's lacking clusters are reserved and every relocatable job moves out of them; in host-assisted mode the
host is told. Reservations that have begun go on in the mode that made them (R366). -/
def execGangReservation (job : Nat) (s : State) : Out :=
  let j := s.jobAt job
  .next (if j.gangWaits = false ∨ j.hopeless ∨ s.time < j.gangSince + 2000000 then s
    else if s.assisted 5 && !j.reserving then
      if j.stalled then s
      else (s.putJob job { j with stalled := true }).post 4 job 0 (gangPayload job (s.time - j.gangSince) (s.lacking job).length 1) 0 0
    else
      let s := s.putJob job { j with reserving := true, reserved := (s.lacking job).foldl NSet.add j.reserved }
      (s.jobAt job).reserved.foldl (fun s ck => ((s.jobs.filter fun e => e.2.reloc && e.1 != job && e.2.placed.has ck).map Prod.fst).foldl
        (fun s x => if s.jobStill ck x && s.awake ck then s.moveOut ck x else s) s) s)

/-- GANGSTALL (R167): after 100 ms in hardware mode. -/
def execGangstall (job : Nat) (s : State) : Out :=
  let j := s.jobAt job
  .next (if j.gangWaits = false ∨ j.stalled ∨ s.assisted 5 ∨ s.time < j.gangSince + 100000000 then s
    else (s.putJob job { j with stalled := true }).post 4 job 0 (gangPayload job (s.time - j.gangSince) (s.lacking job).length 1) 0 0)

/-- GANG_PLACEMENT (R167): on every cluster at one instant, once no bank of them is in retention (R126). -/
def execGangPlacement (job : Nat) (s : State) : Out :=
  let j := s.jobAt job
  .next (if j.gangWaits = false ∨ j.hopeless ∨ (s.lacking job) ≠ [] ∨ j.place = [] ∨ !j.place.all s.awake then s
    else j.place.foldl (fun s ck => s.configure job ck) (s.putJob job { j with reserving := false, reserved := [] }))

/-- A moved-out job placed back on a cluster: its run restored. -/
def State.moveIn (s : State) (ck job : Nat) (m : MovedOut) : State :=
  match s.freeRuns ck job with
  | none => s
  | some (k, c) =>
    let lo := spadLoc ck (k * 65536)
    let s := ((s.touchRun ck).allot ck job (k, c)).zeroRun ck lo ((s.jobAt job).segments * 65536)
    let s := m.bytes.foldl (fun s e => s.putByte (lo + e.1) e.2) s
    { s with pois := m.pois.foldl (fun p k => p.add (lo + k)) s.pois }.modJob job fun j =>
      { j with placed := j.placed.add ck, moved := j.moved.filter fun x => x.ck != ck }

/-- JOB_MOVE_BACK (R105, R167): a cluster that can take it again takes back a job that was moved out, or takes one that could not be placed
there yet. -/
def execJobMoveBack (job ck : Nat) (s : State) : Out :=
  let j := s.jobAt job
  .next (if !(j.jstate == 1 || j.jstate == 2) ∨ j.gangWaits ∨ j.place.has ck = false ∨ s.canTake ck job = false ∨ s.awake ck = false then s
    else match j.moved.find? fun m => m.ck == ck with
      | some m => s.moveIn ck job m
      | none => if j.marked.has ck then s else s.configure job ck)

/-! ## The descriptor (R376) -/

/-- The lines that n bytes touch. -/
def linesOf (pa n : Nat) : List Nat := if n = 0 then [] else (List.range ((pa + n - 1) / 64 - pa / 64 + 1)).map fun k => (pa / 64 + k) * 64
/-- The lines of n bytes merged, as an access to them does (R132). -/
def State.mergeLines (s : State) (pa n : Nat) : State := (linesOf pa n).foldl State.mergeLine s
/-- Whether one of the lines of n bytes stalls an access. -/
def State.linesStalled (s : State) (pa n : Nat) : Bool := (linesOf pa n).any fun l => s.stalled l 64

/-- Doubleword k of the descriptor at `pa`. -/
def State.descDw (s : State) (pa k : Nat) : W64 := s.dwAt (pa + 8 * k)

/-- Whether n bytes lie in one tier. -/
def inTier (t2 : Bool) (pa n : Nat) : Bool := if t2 then inT2 pa && (n == 0 || inT2 (pa + n - 1)) else inT1 pa && (n == 0 || inT1 (pa + n - 1))

/-- A frame-pool doubleword (R393). -/
def poolOk (t2 : Bool) (w : W64) : Bool :=
  fld w 52 12 == 0 && (fld w 0 21 == 0 || inTier t2 (fld w 21 31 * 2 ^ 21) (fld w 0 21 * 2 ^ 21))

/-- The clusters of a placement or member mask in three doublewords (R320). -/
def members (a b c : W64) : NSet := bitsOf a ++ (bitsOf b).map (64 + ·) ++ (bitsOf c).map (128 + ·)

/-- Whether the fields of a descriptor are well formed. -/
def State.descOk (s : State) (pa job : Nat) : Bool :=
  let d := s.descDw pa
  let carafe := (d 9).toNat
  decide (pa % 64 = 0) && inTier false pa 128 && !s.poisAt pa 128 &&
    only (d 0) [(0, 20), (20, 8), (32, 9), (44, 12)] && fld (d 0) 0 15 == job && fld (d 0) 20 8 != 0 && decide (4 ≤ fld (d 0) 32 9 ∧ fld (d 0) 32 9 ≤ 256) &&
    only (d 1) [(0, 12), (16, 5)] && decide (4 ≤ fld (d 1) 16 5 ∧ fld (d 1) 16 5 ≤ 16) &&
    decide ((d 2).toNat % 4096 = 0) && inTier false (d 2).toNat 4096 && inTier false (d 3).toNat (512 * 2 ^ fld (d 1) 16 5) &&
    (inTier false (d 4).toNat (d 5).toNat || inTier true (d 4).toNat (d 5).toNat) && members (d 6) (d 7) (d 8) != [] &&
    decide (carafe % 65536 = 0) && inTier false carafe ((d 10).toNat * 65536) && poolOk false (d 11) && poolOk true (d 12) &&
    d 13 == 0 && d 14 == 0 && d 15 == 0

/-- Whether an image can be a job's: code within its window, presets within the allotment, handlers within the code. -/
def imageOk (i : JobImage) : Bool :=
  decide (i.code.length ≤ 65536 ∧ 64 ≤ i.allot ∧ i.allot % 64 = 0) && (i.presets.all fun p => decide (p.id < i.allot) && p.thresh != 0) &&
    i.handlers.all fun h => decide (h.id < 4095 ∧ h.off % 4 = 0 ∧ h.off < 4 * i.code.length)

/-- The regions of a shadow table (R304): two doublewords an entry. -/
def regionsOf : List W64 → List Region
  | a :: b :: t => ⟨fld a 0 56, fld b 0 33, 0, 0, []⟩ :: regionsOf t
  | _ => []
def shadowBits : List W64 → Bool
  | a :: b :: t => fld a 56 8 == 0 && fld b 33 31 == 0 && fld a 0 12 == 0 && fld b 0 12 == 0 && decide (fld b 0 33 ≤ 2 ^ 32) && shadowBits t
  | [] => true
  | _ => false

/-- Whether the shadow table keeps R304. -/
def shadowOk (ws : List W64) : Bool :=
  let rs := (regionsOf ws).filter fun r => r.len != 0
  shadowBits ws && (rs.all fun r => translated r.base && translated (r.base + r.len - 1) && !decide (r.base < 0x40000000 ∧ 0x40000000 ≤ r.base + r.len - 1)) &&
    rs.zipIdx.all fun a => rs.zipIdx.all fun b => a.2 == b.2 || decide (a.1.base + a.1.len ≤ b.1.base ∨ b.1.base + b.1.len ≤ a.1.base)

/-- The groups of a group table (R320): eight doublewords an entry. -/
def groupsOf : List W64 → List Group
  | a :: b :: c :: d :: _ :: _ :: _ :: _ :: t =>
    ⟨fld a 0 4, fld a 8 4, fld a 16 5, fld a 32 12, fld a 54 2 * 64 + fld a 48 6, members b c d⟩ :: groupsOf t
  | _ => []
def groupBits : List W64 → Bool
  | a :: _ :: _ :: _ :: e :: f :: g :: h :: t =>
    only a [(0, 4), (8, 4), (16, 5), (32, 12), (48, 8)] && e == 0 && f == 0 && g == 0 && h == 0 && groupBits t
  | [] => true
  | _ => false

/-- One group within its limits. -/
def Group.ok (g : Group) (place : NSet) (allot : Nat) : Bool :=
  decide (g.op < 12 ∧ 1 ≤ g.width ∧ g.width ≤ 8 ∧ 1 ≤ g.lcl ∧ g.lcl ≤ 16 ∧ g.ctr < allot) && !(g.op == 0xB && g.width % 2 == 1) &&
    g.members.has g.root && g.members.all place.has

/-- The entries of a job's groups at the routers of their trees (R321). -/
def State.treeEntries (s : State) (job : Nat) (gs : List Group) : List (Nat × GrpEntry) :=
  gs.zipIdx.flatMap fun e => let t := s.treeOf e.1; t.map fun ck => (grpKey ck job e.2, s.treeEntry e.1 t ck)

/-- Whether the group table keeps R320, with a free entry at every router of a tree that the module builds itself. -/
def State.groupsOk (s : State) (job : Nat) (place : NSet) (allot : Nat) (ws : List W64) : Bool :=
  let gs := groupsOf ws
  groupBits ws && decide (gs.length ≤ 256) && (gs.all fun g => g.ok place allot) &&
    (s.assisted 6 || (let es := s.treeEntries job gs
      (List.range 192).all fun ck => decide (s.entriesAt ck + (es.filter fun e => e.1 / 2 ^ 23 == ck).length ≤ 256)))

/-- The bytes of memory that an INSTALL reads: nothing of them poisoned. -/
def State.imageBytes (s : State) (pa n : Nat) : Option (List Byte) := if s.poisAt pa n then none else some (s.bytesAt pa n)

/-- The job of a descriptor, before the refusals that need the module. -/
def State.jobOf (s : State) (pa : Nat) (i : JobImage) : Job :=
  let d := s.descDw pa
  { Job.init with
      jstate := 1, once := true, gang := fld (d 0) 15 1 == 1, reloc := fld (d 0) 16 1 == 1, retry := fld (d 0) 17 3, share := fld (d 0) 20 8,
      depth := fld (d 0) 32 9, errh := fld (d 0) 44 12, caph := fld (d 1) 0 12, wqm := fld (d 1) 16 5, root := (d 2).toNat, wq := (d 3).toNat,
      place := (members (d 6) (d 7) (d 8)), img := i, carPool := (d 9).toNat, carPages := (d 10).toNat, pool1 := d 11, pool2 := d 12,
      regions := regionsOf i.shadow, groups := groupsOf i.groups, gangSince := s.time }

/-- The first refusal of an INSTALL, 0 for none (R376). -/
def State.installReason (s : State) (pa job : Nat) : Nat × Option Job :=
  let d := s.descDw pa
  if s.descOk pa job = false then (2, none)
  else match (s.imageBytes (d 4).toNat (d 5).toNat).bind Config.parseImage with
    | none => (2, none)
    | some i =>
      let j := s.jobOf pa i
      if imageOk i = false then (2, none)
      else if s.modid = 0 then (3, none)
      else if j.gang ∧ (j.place.any (fun ck => s.clusterGone ck) ∨ 64 < j.segments) then (4, none)
      else if shadowOk i.shadow = false then (5, none)
      else if s.groupsOk job j.place i.allot i.groups = false then (6, none)
      else if 4096 < i.allot then (7, none)
      else if j.carPages = 0 then (8, none)
      else (0, some j)

/-- What an INSTALL reads, the descriptor and, where it is well formed, the image, merged (R132). -/
def State.mergeImage (s : State) (pa job : Nat) : State :=
  let s := s.mergeLines pa 128
  if s.descOk pa job then s.mergeLines (s.descDw pa 4).toNat (s.descDw pa 5).toNat else s

/-- Bytes written at an address of a job's space where it is mapped, on both sides of a shadow region (R304). -/
def State.loadBlock (s : State) (job ck : Nat) (va : Nat) (bs : List Byte) : State :=
  (pieces va bs.length).foldl (fun s p =>
    match (s.place ck 0 job .read p.1).2 with
    | .at loc => (s.mergeLine loc).poke loc ((bs.drop (p.1 - va)).take p.2) false
    | _ => s) s

/-- The second backing of a region filled as the first is (R304). -/
def State.fillRegion (s : State) (job ck : Nat) (r : Region) : State :=
  (List.range (r.len / 4096)).foldl (fun s k =>
    match (s.place ck 0 job .read (r.base + 4096 * k)).2 with
    | .at loc => ((s.mergeLines loc 4096).wipe (side1 loc) 4096).copyFrame loc 4096 (side1 loc)
    | _ => s) s

/-- An accepted INSTALL (R376); a group whose tree a retired cluster is on is disabled (R325). -/
def State.acceptJob (s : State) (job : Nat) (j : Job) : State :=
  let j := { j with place := j.place.filter fun ck => j.gang || !s.clusterGone ck }
  let s := s.putJob job { j with wave := some 0 }
  let first := j.place.headD 0
  let s := j.img.blocks.foldl (fun s e => s.loadBlock job first e.1 e.2) s
  let s := j.regions.foldl (fun s r => s.fillRegion job first r) s
  let s := if s.assisted 6 then s
    else ((s.treeEntries job j.groups).foldl (fun s e => s.putGrp e.1 { s.grpAt e.1 with entry := some e.2 }) s).disableDead job
  if j.gang then (if s.lacking job = [] ∧ j.place.all s.awake then j.place.foldl (fun s ck => s.configure job ck) s else s)
  else j.place.foldl (fun s ck => if s.canTake ck job ∧ s.awake ck then s.configure job ck else s) s

/-! ## The work queue (R191) -/

/-- WQ_ENTRY_DELIVERY (R191): the next entry goes to its cluster, where it is held until the cluster is configured (R190, R376), or is dropped with
WQBAD, whose DIE is that of the entry's own handle (the spec does not say which: DESIGN CHOICE, log entry 74). -/
def execWqEntryDelivery (job : Nat) (s : State) : Out :=
  let j := s.jobAt job
  .next (if !(j.jstate == 1 || j.jstate == 2) ∨ j.wqhead = j.wqtail then s
    else
      let loc := j.wq + 512 * j.wqhead.toNat
      if s.stalled loc 64 then s
      else
        let s := (List.range 8).foldl (fun s k => s.mergeLine (loc + 64 * k)) s
        let h := s.dwAt loc
        let s := s.putJob job { j with wqhead := w64 ((j.wqhead.toNat + 1) % 2 ^ j.wqm) }
        let n := hWords h
        if hMod h ≠ s.modid.toNat ∨ hJob h ≠ job ∨ s.inPlace job (hDie h) (hCl h) = false ∨ hVn h ∨ 32 < n ∨ (j.handler (hHid h)).isNone then
          s.post 6 job (hDie h) j.wqhead h 0
        else
          let at_ (k : Nat) : Nat := loc + 16 + 8 * k
          s.deliver (hCk h) ⟨h, 1#64 <<< 31, (List.range n).map fun k => s.dwAt (at_ k), (List.range n).map fun k => s.poisAt (at_ k) 8⟩ (hUrg h) false (coreField h))

/-! ## Removal (R378) -/

/-- A unit in flight that belongs to a job and is dropped with it; its messages arrive and are counted late. -/
def Flight.ofJob (job : Nat) : Flight → Bool
  | .cnt _ _ _ j _ _ => j == job
  | .atomic _ _ p _ => p.job == job
  | .record _ _ _ j _ => j == job
  | .post _ j _ _ _ => j == job
  | .marker _ j => j == job
  | .stealReq _ _ j _ => j == job
  | .stealAns _ _ j _ => j == job
  | _ => false

/-- What a removed job has on a cluster taken away (R229, R257, R289, R319, R333, R378). -/
def State.removeFrom (s : State) (job ck : Nat) : State :=
  let s := s.discardJob ck job true
  let s := [0, 1, 2, 3, 4, 5].foldl (fun s cls => s.discardCmds job ck cls) s
  let s := ((((s.freeTiles ck job).freeRta ck job).freeFr ck job).freeWms ck job).freeKernels ck job
  s.modCluster ck fun c => { c with tts := c.tts.filter fun r => r.job != job }

/-- The pages of a removed job move no more (R362). -/
def State.stopMoves (s : State) (job : Nat) : State :=
  ((s.units.filter fun e => match e.2.moving with | some m => m.job == job | none => false).map Prod.fst).foldl
    (fun s u => s.modUnit u fun x => { x with moving := none }) s

/-- REMOVE accepted (R378). -/
def State.removeJob (s : State) (job : Nat) : State :=
  let s := s.modJob job fun j => { j with jstate := 3, wave := none, reserving := false, reserved := [], unacked := [], held := [] }
  let s := (List.range 192).foldl (fun s ck => s.removeFrom job ck) s
  let s := (s.dropNe job).freeGroups job
  let s := (s.cores.map Prod.fst).foldl (fun s k => s.putCore k { s.coreAt k with dq := (s.coreAt k).dq.filter fun r => r.job != job }) s
  let s := { s with flight := s.flight.filter fun f => !f.ofJob job }
  let s := (s.jobAt job).holds.foldl (fun s h => (s.freeSlotOf h.q.slot).lateMsg h.ck job h.q.m true) s
  ((s.freeSlots job).stopMoves job).modJob job fun j => { j with holds := [], carafe := [], moved := [] }

/-- Whether something of a removed job is left: a unit in flight, a message to another module under way, an access of it that a stall holds. -/
def State.jobLeft (s : State) (job : Nat) : Bool :=
  (s.flight.any fun f => f.ofJob job || match f with
    | .msg _ _ _ m => hJob m.h0 == job
    | .reply _ _ m => hJob m.h0 == job
    | .pkt _ p _ _ => p.job == job
    | .readReq _ r => r.job == job
    | _ => false) ||
    s.pend.any fun p => p.job == job

/-- REMOVE_COMPLETE (R378): segments, counters and pools are free; the counts stay until the next INSTALL. -/
def execRemoveComplete (job : Nat) (s : State) : Out :=
  let j := s.jobAt job
  .next (if j.jstate ≠ 3 ∨ s.jobLeft job then s
    else
      let s := (s.clusters.map Prod.fst).foldl (fun s ck => s.modCluster ck fun c =>
        { c with runs := c.runs.filter (fun r => r.job != job), cnts := c.cnts.filter fun r => r.job != job }) s
      let s := { s with counters := s.counters.filter (fun e => e.1 / 4096 % 32768 != job), code := s.code.filter (fun e => e.1 / 2 ^ 16 % 32768 != job),
                        tlb := s.tlb.filter fun e => e.job != job }
      let s := [0, 1, 2].foldl (fun s d => s.modDie d fun x => { x with faults := x.faults.filter fun f => f.pg.job != job }) s
      (s.putJob job { Job.init with once := true, late := j.late, carDrop := j.carDrop, postFault := j.postFault, errDrop := j.errDrop,
                                    lostRange := j.lostRange, wqhead := j.wqhead }).post 2 job 0 0 0 0)

end Sys2Proof.Machine
end

