-- ==== Sys2Proof/Machine/Host.lean ====
section
/-! DEFINITION. The host: its windows (R370, R371), the control space (R372 to R374), the host commands (R375, R376, R378) and the event ring
(R377). -/

namespace Sys2Proof.Machine

/-! ## The event ring (R377) -/

/-- The four doublewords of an event. -/
def Event.words (e : Event) : List W64 := [w64 (e.eseq % 2 ^ 32 * 2 ^ 32 + e.die * 2 ^ 23 + e.job * 2 ^ 8 + e.type), e.p0, e.p1, e.p2]

/-- Events that wait enter the ring while it has space; EQTAIL advances behind each. -/
def State.flushEvents (s : State) : Nat → State
  | 0 => s
  | n + 1 =>
    match s.evheld with
    | [] => s
    | e :: t =>
      if !s.hasRing ∨ 2 ^ s.eqsize.toNat ≤ (s.eqtail - s.eqhead).toNat then s
      else
        let loc := s.eqbase.toNat + 32 * (s.eqtail.toNat % 2 ^ s.eqsize.toNat)
        let s := (s.mergeLine loc).poke loc (e.words.flatMap fun (w : W64) => leBytes 8 w.toNat) false
        { s with evheld := t, eqtail := s.eqtail + 1 }.flushEvents n

/-- OVERFLOW once space returns, then the events that wait. -/
def State.settleEvents (s : State) : State :=
  let s := if s.evover && !s.ringFull then { s with evover := false }.post 0x10 0 0 s.evlost 0 0 else s
  s.flushEvents s.evheld.length

/-! ## The control space (R372 to R374) -/

/-- HSTAT (R373). -/
def State.hstat (s : State) : W64 :=
  w64 (s.hseq.toNat * 2 ^ 32 + s.hreason.toNat * 2 ^ 16 + s.hresult.toNat * 2 ^ 8 + s.hdrop.toNat * 2 + s.hbusy.toNat)

/-- The doublewords of a module-block register. -/
def State.moduleReg (s : State) (off : Nat) : W64 :=
  match off with
  | 0x020 => s.hstat | 0x040 => s.eqbase | 0x048 => s.eqsize | 0x050 => s.eqhead | 0x058 => s.eqtail | 0x060 => s.evlost
  | 0x100 => s.dsplit | 0x108 => s.modid.setWidth 64 | _ => 0

/-- A die block (R372). -/
def Die.reg (d : Die) (off : Nat) : W64 :=
  if off = 0 then d.misdir
  else if 0x1000 ≤ off ∧ off < 0x1050 then d.stats.get 0 (off - 0x1000)
  else if 0x2000 ≤ off ∧ off < 0x4000 then d.leases.get 0 ((off - 0x2000) / 8)
  else if off = 0x4000 then w64 d.lrnext
  else if 0x8000 ≤ off ∧ off < 0xA000 then d.route.get 0 ((off - 0x8000) / 8)
  else 0

/-- SPRET (R126). -/
def Cluster.spret (c : Cluster) : W64 := w64 (c.inret.foldl (fun a b => a + 2 ^ (32 + b)) 0 + c.retIdle * 2 ^ 16 + c.retEn.toNat)

/-- A job block (R374). -/
def Job.reg (j : Job) (k : Nat) : W64 :=
  match k with
  | 1 => j.wqhead | 2 => w64 j.jstate | 3 => j.late | 4 => j.carDrop | 5 => j.postFault | 6 => j.errDrop | 7 => j.lostRange | _ => 0

/-- What a doubleword of the control space reads as; an offset that nothing names reads zero. -/
def State.ctlRead (s : State) (off : Nat) : W64 :=
  if off < 0x10000 then s.moduleReg off
  else if off < 0x40000 then (s.dieAt (off / 0x10000 - 1)).reg (off % 0x10000)
  else if 0x100000 ≤ off ∧ off < 0x1C0000 then (if off % 0x1000 = 0 then (s.clusterAt ((off - 0x100000) / 0x1000)).spret else 0)
  else if 0x1000000 ≤ off ∧ off < 0x1200000 then (s.jobAt ((off - 0x1000000) / 0x40)).reg (off % 0x40 / 8)
  else 0

/-- The operation and job of the command that HCMD holds. -/
def State.hop (s : State) : Nat := fld (s.hcmd.get 0 0) 0 8
def State.hjob (s : State) : Nat := fld (s.hcmd.get 0 0) 16 15
def State.hdw (s : State) (k : Nat) : W64 := s.hcmd.get 0 k

/-- A command completes (R375). -/
def State.hdone (s : State) (result : Nat) : State := { s with hbusy := false, hresult := BitVec.ofNat 8 result, hseq := s.hseq + 1 }

/-- A doubleword of HCMD written: the last one starts the command; while one runs the write is dropped (R373). -/
def State.hcmdWrite (s : State) (k : Nat) (v : W64) : State :=
  if s.hbusy then { s with hdrop := true }
  else
    let s := { s with hcmd := s.hcmd.set 0 k v }
    if k = 3 then
      let s := { s with hbusy := true }
      if s.hop = 0 ∨ 0xD < s.hop ∨ !only (s.hdw 0) [(0, 8), (16, 15)] then s.hdone 1 else s
    else s

/-- A job's doorbell (R191, R374): the new tail modulo 2ᵐ; one of an absent job is ignored, which the spec does not say (DESIGN CHOICE, log entry 82). -/
def State.ring (s : State) (job : Nat) (tail : W64) : State :=
  let j := s.jobAt job
  if j.jstate = 1 ∨ j.jstate = 2 then s.putJob job { j with wqtail := w64 (tail.toNat % 2 ^ j.wqm) } else s

/-- A write of the module block. -/
def State.moduleWrite (s : State) (off : Nat) (v : W64) : State :=
  match off with
  | 0x000 => s.hcmdWrite 0 v | 0x008 => s.hcmdWrite 1 v | 0x010 => s.hcmdWrite 2 v | 0x018 => s.hcmdWrite 3 v
  | 0x020 => { s with hdrop := s.hdrop && fld v 1 1 == 0 }
  | 0x040 => { s with eqbase := v }
  | 0x048 => { s with eqsize := v &&& 0x1F }
  | 0x050 => { s with eqhead := v }
  | 0x100 => { s with dsplit := v &&& 0x1FF }
  | 0x108 => if s.jobs.any fun e => e.2.jstate != 0 then s else { s with modid := v.setWidth 16 }
  | _ => s

/-- A doubleword written to the control space under its access type (R8, R372). -/
def State.ctlWrite (s : State) (off : Nat) (v : W64) : State :=
  if off < 0x10000 then s.moduleWrite off v
  else if off < 0x40000 then
    let r := off % 0x10000
    if 0x8000 ≤ r ∧ r < 0xA000 then s.modDie (off / 0x10000 - 1) fun d => { d with route := d.route.set 0 ((r - 0x8000) / 8) (v &&& 0x80000003FFFFFFFF#64) } else s
  else if 0x100000 ≤ off ∧ off < 0x1C0000 then
    if off % 0x1000 = 0 then
      s.modCluster ((off - 0x100000) / 0x1000) fun c => { c with retEn := fld v 0 1 == 1, retIdle := if fld v 16 16 = 0 then c.retIdle else fld v 16 16 }
    else s
  else if 0x1000000 ≤ off ∧ off < 0x1200000 then (if off % 0x40 = 0 then s.ring ((off - 0x1000000) / 0x40) v else s)
  else s

/-- Whether a host port is up (R18): H0 or H1. -/
def State.hostUp (s : State) : Bool := !(s.ports.has 0 && s.ports.has 1)

/-- CONTROL_REGISTER_WRITE (R372, R373), over a host port. -/
def execControlRegisterWrite (off : Nat) (v : W64) (s : State) : Out := .next (if off % 8 = 0 ∧ s.hostUp then s.ctlWrite off v else s)
/-- DOORBELL (R374), over a host port. -/
def execDoorbell (job : Nat) (tail : W64) (s : State) : Out := .next (if s.hostUp then s.ring job tail else s)

/-! ## The windows (R370) -/

/-- HOST_RMA_WRITE (R370): physical memory, or one doubleword of the control space; an unused address is refused with 0x14 (DESIGN CHOICE, log entry
82). -/
def execHostRmaWrite (addr : W64) (data : List Byte) (s : State) : Out :=
  let n := data.length
  .next (if s.hostUp = false then s
    else if fld addr 56 8 = 0 then
      let pa := fld addr 0 52
      if !(inTier false pa n || inTier true pa n) then { s with rma := some (.err 0x14) }
      else if s.linesStalled pa n then s
      else { (s.mergeLines pa n).poke pa data false with rma := some (.bytes []) }
    else if fld addr 56 8 = 0xC0 ∧ n = 8 ∧ fld addr 0 3 = 0 then { s.ctlWrite (fld addr 0 32) (w64 (leNat data)) with rma := some (.bytes []) }
    else { s with rma := some (.err 0x14) })

/-- HOST_RMA_READ (R370). -/
def execHostRmaRead (addr : W64) (n : Nat) (s : State) : Out :=
  .next (if s.hostUp = false then s
    else if fld addr 56 8 = 0 then
      let pa := fld addr 0 52
      if !(inTier false pa n || inTier true pa n) then { s with rma := some (.err 0x14) }
      else if s.linesStalled pa n then s
      else let s := s.mergeLines pa n; { s with rma := some (.bytes (s.bytesAt pa n)) }
    else if fld addr 56 8 = 0xC0 ∧ n = 8 ∧ fld addr 0 3 = 0 then { s with rma := some (.bytes (leBytes 8 (s.ctlRead (fld addr 0 32)).toNat)) }
    else { s with rma := some (.err 0x14) })

/-! ## Host commands (R375) -/

/-- The command that runs, where it is the one asked for: `bits` are the fields of doublewords 1 to 3, `named` says that it names an
installed job. -/
def hostCommand (op : Nat) (bits : List (List (Nat × Nat))) (named : Bool) (f : State → State) (s : State) : Out :=
  .next (if s.hbusy = false ∨ s.hop ≠ op then s
    else if !(bits.zipIdx.all fun e => only (s.hdw (e.2 + 1)) e.1) then s.hdone 1
    else if named ∧ (s.jobAt s.hjob).jstate ≠ 2 then s.hdone 2
    else f s)

/-- A whole doubleword. -/
def wholeDw : List (Nat × Nat) := [(0, 64)]

/-- INSTALL (R375, R376): it waits while its reads of the descriptor or the image stall. -/
def execInstall (s : State) : Out :=
  hostCommand 1 [wholeDw, [], []] false (fun s =>
    let pa := (s.hdw 1).toNat
    let img := (s.descDw pa 4).toNat
    if (s.jobAt s.hjob).jstate ≠ 0 then { s with hreason := 1 }.hdone 2
    else if s.linesStalled pa 128 || (s.descOk pa s.hjob && s.linesStalled img (s.descDw pa 5).toNat) then s
    else let s := s.mergeImage pa s.hjob
    match s.installReason (s.hdw 1).toNat s.hjob with
      | (_, some j) => ({ s with hreason := 0 }.acceptJob s.hjob j).hdone 0
      | (r, none) => { s with hreason := BitVec.ofNat 8 r }.hdone 3) s

/-- REMOVE (R378). -/
def execRemove (s : State) : Out := hostCommand 2 [[], [], []] true (fun s => (s.removeJob s.hjob).hdone 0) s

/-- The bytes of a page of an INVAL size code. -/
def invalSize (c : Nat) : Nat := [2 ^ 12, 2 ^ 16, 2 ^ 21, 2 ^ 25, 2 ^ 30, 2 ^ 34].getD c 0

/-- INVAL (R113): it runs on while an access that used an old leaf of the page has not completed: one of the job that a stall holds. -/
def execInval (s : State) : Out :=
  hostCommand 3 [wholeDw, [(0, 3)], []] true (fun s =>
    let n := invalSize (fld (s.hdw 2) 0 3)
    if n = 0 then s.hdone 1
    else
      let va := (s.hdw 1).toNat / n * n
      let held := s.pend.any fun p => p.job == s.hjob && translated p.va && decide (p.va < va + n ∧ va < p.va + p.n)
      if held then s else (s.invalidate s.hjob va n).hdone 0) s

/-- FAULT (R375): the answer to a host-assisted entry. -/
def execFaultCmd (s : State) : Out :=
  hostCommand 4 [wholeDw, wholeDw, [(0, 1)]] true (fun s =>
    let a := s.hdw 1; let b := s.hdw 2
    let die := fld b 15 2
    match (if fld b 0 15 = s.hjob then (s.dieAt die).faults.find? fun f => f.mode == 2 && f.pg.job == s.hjob && decide (f.va / 4096 % 2 ^ 44 = fld a 12 44) else none) with
    | none => s.hdone 1
    | some f => (s.resolve die f.pg (fld (s.hdw 3) 0 1 == 1) die).hdone 0) s

/-- RETANS (R361): the answer on a unit that is held for it. An id that names no unit is a malformed command, RESULT 0x01 (DESIGN CHOICE, log entry 82),
here and in RETIRE and LEASE. -/
def execRetans (s : State) : Out :=
  hostCommand 5 [[(0, 32)], [(0, 1)], []] false (fun s =>
    let u := (s.hdw 1).toNat
    if !unitValid u then s.hdone 1
    else if (s.unitAt u).st ≠ .held ∨ (s.unitAt u).leaving.isSome then s.hdone 3
    else if fld (s.hdw 2) 0 1 = 1 then (s.retireOrKeep u).hdone 0
    else (s.returnUnit u 5 fun x => { x with score := 255 }).hdone 0) s

/-- RETIRE (R359, R361): a leased unit retires when its cupping ends, a held one with the reason it has, a core that still leaves when it is withdrawn. -/
def execRetire (s : State) : Out :=
  hostCommand 6 [[(0, 32)], [], []] false (fun s =>
    let u := (s.hdw 1).toNat
    if !unitValid u then s.hdone 1
    else match (s.unitAt u).st with
      | .leased => (s.modUnit u fun x => { x with askRetire := true }).hdone 0
      | .held => (if (s.unitAt u).leaving.isSome then s.modUnit u fun x => { x with leaving := some true } else s.retireOrKeep u).hdone 0
      | .inService => (s.startRetire u 8 true).hdone 0
      | _ => s.hdone 3) s

/-- LEASE (R357, R375). -/
def execLease (s : State) : Out :=
  hostCommand 7 [[(0, 32)], [], []] false (fun s =>
    let u := (s.hdw 1).toNat
    if !unitValid u then s.hdone 1
    else if s.leaseOk u then (s.startLease u (match (s.unitAt u).due with | some l => l.early | none => false) true).hdone 0
    else (s.post 0xE 0 (unitDie u) (w64 u) 0 0).hdone 3) s

/-- A held abort decided: redelivered under the retry limit, or passed to the error handler (R344). -/
def State.decideAbort (s : State) (job : Nat) (h : AbortHold) (again : Bool) : State :=
  let s := s.modJob job fun j => { j with holds := j.holds.filter fun x => x.eseq != h.eseq }
  if again ∧ mTry h.q.m.h1 < (s.jobAt job).retry then s.redeliver h.ck h.q else s.toErrorHandler h.ck h.q h.word h.tval

/-- REDLV (R344). -/
def execRedlv (s : State) : Out :=
  hostCommand 8 [[(0, 32)], [(0, 1)], []] false (fun s =>
    match s.jobs.findSome? fun e => (e.2.holds.find? fun h => h.eseq % 2 ^ 32 == (s.hdw 1).toNat).map fun h => (e.1, h) with
    | some (job, h) => (s.decideAbort job h (fld (s.hdw 2) 0 1 == 1)).hdone 0
    | none => s.hdone 1) s

/-- NERTX (R329). -/
def execNertx (s : State) : Out :=
  hostCommand 9 [[(0, 32)], [(0, 1)], []] false (fun s =>
    match s.neAnswer (s.hdw 1).toNat (fld (s.hdw 2) 0 1 == 1) with
    | some t => t.hdone 0
    | none => s.hdone 1) s

/-- A bank held for the debugger of a job that is disarmed takes the disposition of ILLEGAL (R340). -/
def State.releaseDebug (s : State) (job : Nat) : State :=
  ((s.banks.filter fun e => e.2.job == job && e.2.waitsFor == .debug).map Prod.fst).foldl (fun s bk =>
    let cur := s.cur
    let s := { s with cur := bk }.modB fun b => { b with st := .running, wait := .none }
    { s.toRoutine false with cur := cur }) s

/-- DEBUG (R340, R375). -/
def execDebug (s : State) : Out :=
  hostCommand 0xA [[(0, 1)], [], []] true (fun s =>
    let arm := fld (s.hdw 1) 0 1 == 1
    let s := s.modJob s.hjob fun j => { j with debug := arm }
    (if arm then s else s.releaseDebug s.hjob).hdone 0) s

/-- The message that tells a job of a group the host disables (R325): the spec gives no UNIT, REASON and counts for it, which are free (log entry 72). -/
def State.groupNote (s : State) (job g : Nat) : State :=
  let n := Config.groupNote job g
  let j := s.jobAt job
  if j.caph = 0xFFF then s else s.notifyJob job n.1.toNat n.2.1.toNat n.2.2.1.toNat n.2.2.2.toNat

/-- GRPDIS (R325). -/
def execGrpdis (s : State) : Out :=
  hostCommand 0xB [[(0, 8)], [], []] true (fun s =>
    let g := (s.hdw 1).toNat
    if (s.groupOf s.hjob g).isNone then s.hdone 3 else ((s.disableGroup s.hjob g).groupNote s.hjob g).hdone 0) s

/-- GRPSET (R321); an entry at the router of a retired cluster disables its group (R325). -/
def execGrpset (s : State) : Out :=
  hostCommand 0xC [[(16, 8)], [(0, 8)], wholeDw] true (fun s =>
    let die := fld (s.hdw 1) 16 2
    let g := (s.hdw 2).toNat
    if die = 3 then s.hdone 1
    else if (s.groupOf s.hjob g).isNone then s.hdone 3
    else
      let e := Config.groupEntry (s.hdw 3)
      let k := grpKey (die * 64 + fld (s.hdw 1) 18 6) s.hjob g
      let entry : GrpEntry := ⟨e.1.map Fin.val, [0, 1, 2, 3].filter e.2.1.getLsbD, e.2.2.val⟩
      (s.putGrp k { s.grpAt k with entry := some entry }).disableDead s.hjob |>.hdone 0) s

/-- CARRES (R366, R375). -/
def execCarres (s : State) : Out :=
  hostCommand 0xD [wholeDw, wholeDw, []] true (fun s =>
    let pa := (s.hdw 1).toNat
    let n := (s.hdw 2).toNat
    if pa % 65536 ≠ 0 ∨ inTier false pa (n * 65536) = false then s.hdone 1
    else (s.modJob s.hjob fun j => { j with carRes := j.carRes ++ (List.range n).map fun k => pa + 65536 * k }).hdone 0) s

end Sys2Proof.Machine
end

