-- ==== Sys2Proof/Machine/Karmos.lean ====
section
/-! DEFINITION. Karmos: the boot chain (R25), module reset, trips and clocks (R24, R380), telemetry, firmware, lease policy and retirement
records (R379), attestation (R381). -/

namespace Sys2Proof.Machine

/-! ## Boot and reset (R25, R380) -/

/-- Whether an image verifies: both signatures (R25). -/
def fwGood (f : FwImage) : Bool := f.rsaOk && f.slhOk
/-- An empty slot. -/
def noImage : FwImage := ⟨0, 0, false, false⟩
/-- The image in slot 0 or 1; slot 2 is none. -/
def Karmos.slot (k : Karmos) (img sl : Nat) : FwImage := if 2 ≤ sl then noImage else k.slots.get noImage (2 * img + sl)
/-- The slot that an image starts from: the one set for the next reset, else the other; none where neither verifies. -/
def Karmos.choose (k : Karmos) (img : Nat) : Option Nat :=
  let n := k.next.get 0 img % 2
  if fwGood (k.slot img n) then some n else if fwGood (k.slot img (1 - n)) then some (1 - n) else none

/-- The slot that runs for each image; 2 where none does. -/
def Karmos.running (k : Karmos) : FMap Nat := [0, 1, 2].foldl (fun m i => m.set 0 i ((k.choose i).getD 2)) k.cur

/-- The chain of R25: an image that verifies is started for each; where one has none the dies stay in reset, and Karmos reports it. -/
def Karmos.boot (k : Karmos) : Karmos :=
  let up := { k with fwOk := (k.choose 0).isSome, cur := k.running }
  if [0, 1, 2].all fun i => (k.choose i).isSome then { up with diesHeld := false, tripped := false, boots := k.boots + 1 }
  else { up with diesHeld := true, side := k.side ++ [.bootFailed] }

/-- The units named in verified records that nobody cleared start retired (R365), a cluster with its units. -/
def retiredUnits (k : Karmos) : FMap UnitRec :=
  let us := (k.recs.filter fun r => r.signed && !r.cleared).map fun r => fld (r.dws.getD 0 0) 32 32
  let all := us.flatMap fun u =>
    if kindOf u = 9 then
      u :: clusterUnits (unitCk u)
    else [u]
  all.foldl (fun m u => m.set UnitRec.init u { UnitRec.init with st := .retired }) []

/-- The dies reset with Karmos in a state: T1 and T2 keep their contents unless they are scrubbed; the ports and what nature does next are
not the module's. -/
def State.resetDies (s : State) (k : Karmos) (scrub : Bool) : State :=
  let kept (n : Nat) : Bool := !scrub && (inT1 n || inT2 n)
  { State.reset with
      agenda := s.agenda, freeN := s.freeN, svcCode := s.svcCode, ports := s.ports, rma := s.rma, karmos := k, units := retiredUnits k,
      mem := s.mem.filter (fun e => kept e.1), pois := s.pois.filter kept }

/-- MODULE_RESET (R380). -/
def execModuleReset (scrub : Bool) (s : State) : Out := .next (s.resetDies s.karmos.boot scrub)

/-- KARMOS_POWER_ON (R25): the boot ROM verifies the firmware, and the chain goes on. -/
def execKarmosPowerOn (s : State) : Out :=
  .next (if s.karmos.on then s else s.resetDies { s.karmos with on := true }.boot false)

/-- THERMAL_TRIP (R380): the dies are held in reset and the trip is reported. -/
def execThermalTrip (die : Nat) (s : State) : Out :=
  .next (s.resetDies { s.karmos with diesHeld := true, tripped := true, side := s.karmos.side ++ [.trip die] } false)

/-- JUNCTION_LIMIT (R380): the unit slows its clock, which changes no result. -/
def execJunctionLimit (u : W32) (s : State) : Out :=
  .next (if unitValid u.toNat then s.modUnit u.toNat fun x => { x with slowed := true } else s)

/-- CLOCK_GATING (R24, R101). -/
def execClockGating (ck : Nat) (gated : Bool) (s : State) : Out :=
  .next (if ck < 192 then s.modCluster ck fun c => { c with gated := gated } else s)

/-! ## Functions of the side band (R379) -/

/-- An answer of Karmos, where it runs. -/
def State.karmosSay (s : State) (f : Karmos → Karmos) : Out := .next (if s.karmos.on && s.karmos.fwOk then { s with karmos := f s.karmos } else s)

/-- How many readings a report holds: power of 3 dies, 12 stacks, 32 devices and 18 ports, and the hottest junction of 3 dies. -/
def readingCount : Nat := 68

/-- TELEMETRY (R379): the readings, the module's total power, the scores and states. -/
def execTelemetry (s : State) : Out :=
  s.karmosSay fun k =>
    let rs := (List.range readingCount).map (Config.reading k.reports)
    { k with reports := k.reports + 1,
             side := k.side ++ [.telemetry k.reports (rs ++ [(rs.take 65).sum]) (s.units.map fun e => (e.1, e.2.score, e.2.st.code))] }

/-- FIRMWARE_UPDATE (R25, R379): below the fused minimum it is refused; else the inactive slot is written, and used from the next reset when
both signatures verify. -/
def execFirmwareUpdate (img : FwImage) (s : State) : Out :=
  s.karmosSay fun k =>
    if 3 ≤ img.id ∨ img.version < k.minVer then { k with side := k.side ++ [.fwResult false] }
    else
      let sl := 1 - k.cur.get 0 img.id % 2
      { k with slots := k.slots.set noImage (2 * img.id + sl) img, next := if fwGood img then k.next.set 0 img.id sl else k.next,
               side := k.side ++ [.fwResult (fwGood img)] }

/-- LEASE_POLICY (R356, R379). -/
def execLeasePolicy (kind period : Nat) (s : State) : Out :=
  s.karmosSay fun k =>
    if kind = 0 ∨ 8 < kind ∨ !(period == 0 || decide (60 ≤ period ∧ period ≤ 86400)) then k
    else { k with newPeriod := k.newPeriod.set none kind (some period) }

/-- RETIREMENT_RECORD_READ (R365, R379). -/
def execRetirementRecordRead (n : Nat) (s : State) : Out :=
  s.karmosSay fun k => { k with side := k.side ++ [match k.recs[n]? with | some r => .record n r.dws true | none => .record n [] false] }

/-- RETIREMENT_RECORD_CLEAR (R379): with both signatures of the owner key. -/
def execRetirementRecordClear (n : Nat) (rsaOk slhOk : Bool) (s : State) : Out :=
  s.karmosSay fun k =>
    let ok := rsaOk && slhOk && decide (n < k.recs.length)
    { k with recs := if ok then k.recs.zipIdx.map fun e => if e.2 = n then { e.1 with cleared := true } else e.1 else k.recs,
             side := k.side ++ [.cleared n ok] }

/-! ## Attestation (R381) -/

/-- An answer with a code and a body, signed with both keys where `sign` gives what is signed. -/
def Karmos.answer (k : Karmos) (step code : Nat) (body : List Byte) (sign : Option (List Byte)) : Karmos :=
  { k with spdmStep := step, side := k.side ++ [.spdm code body ((sign.map Config.rsaSign).getD []) ((sign.map Config.slhSign).getD [])] }

/-- A request that needs the exchange to have come to a step; before that the answer is ERROR, unexpected request. -/
def State.spdm (s : State) (need : Nat) (f : Karmos → Karmos) : Out :=
  s.karmosSay fun k => if k.spdmStep < need then k.answer k.spdmStep 0x7F [4, 0] none else f k

/-- GET_VERSION: 1.3. -/
def execGetVersion (s : State) : Out := s.spdm 0 fun k => k.answer 1 0x04 [0, 1, 0, 0x13] none
/-- GET_CAPABILITIES: certificates, challenge, signed measurements; no session. -/
def execGetCapabilities (s : State) : Out := s.spdm 1 fun k => k.answer 2 0x61 [0x16, 0, 0, 0] none
/-- NEGOTIATE_ALGORITHMS: RSASSA-PSS 3072, SHA-384. -/
def execNegotiateAlgorithms (s : State) : Out := s.spdm 2 fun k => k.answer 3 0x63 [0x08, 0, 0, 0, 0x02, 0, 0, 0] none
/-- GET_DIGESTS. -/
def execGetDigests (s : State) : Out := s.spdm 3 fun k => k.answer 3 0x01 (Config.sha384 Config.certChain) none
/-- GET_CERTIFICATE: a portion of the chain of slot 0; any other slot is an invalid request. -/
def execGetCertificate (slot off len : Nat) (s : State) : Out :=
  s.spdm 3 fun k => if slot = 0 then k.answer 3 0x02 ((Config.certChain.drop off).take len) none else k.answer 3 0x7F [1, 0] none

/-- A measurement (R381): 1 boot ROM, 2 Karmos firmware, 3 die firmware, 4 runtime, 5 lease policy, 6 DSPLIT. That of an image is of the slot that runs, if
one does. -/
def State.measure (s : State) (i : Nat) : List Byte :=
  match i with
  | 5 => Config.sha384 (s.karmos.period.flatMap fun e => leBytes 4 e.1 ++ leBytes 4 e.2)
  | 6 => Config.sha384 (leBytes 8 s.dsplit.toNat)
  | 1 => Config.measurement 1
  | _ =>
    let sl := s.karmos.cur.get 0 (i - 2)
    Config.measurement (i + 8 * (if sl < 2 then (s.karmos.slot (i - 2) sl).version + 1 else 0))

/-- CHALLENGE: over the digest of the chain, the measurements and the nonce. -/
def execChallenge (nonce : List Byte) (s : State) : Out :=
  s.spdm 3 fun k =>
    let body := Config.sha384 Config.certChain ++ Config.sha384 ((List.range 6).flatMap fun i => s.measure (i + 1))
    k.answer 3 0x03 body (some (nonce ++ body))

/-- GET_MEASUREMENTS: 0 asks for their number, 0xFF for all of them. -/
def execGetMeasurements (index : Nat) (nonce : List Byte) (s : State) : Out :=
  s.spdm 3 fun k =>
    let go (body : List Byte) : Karmos := k.answer 3 0x60 body (some (nonce ++ body))
    if index = 0 then go [6]
    else if index ≤ 6 then go (s.measure index)
    else if index = 0xFF then go ((List.range 6).flatMap fun i => s.measure (i + 1))
    else k.answer 3 0x7F [1, 0] none

end Sys2Proof.Machine
end

