-- ==== Sys2Proof/Machine/TopK.lean ====
section
/-! DEFINITION. VTOPK: the top-k gate (R213 to R215). -/

namespace Sys2Proof.Machine

/-- A winner: expert, delay code, poison of the word or lane it came from. -/
structure Winner where
  expert : Nat
  code : Nat
  p : Bool
  deriving DecidableEq, Repr

/-- Order of the race: larger code first, then lower expert. -/
def Winner.before (a b : Winner) : Bool := decide (b.code < a.code ∨ (a.code = b.code ∧ a.expert ≤ b.expert))

/-- A winner put in its place. -/
def race (a : Winner) : List Winner → List Winner
  | [] => [a]
  | x :: t => if a.before x then a :: x :: t else x :: race a t

/-- The valid entries of a state (R213). -/
def entries (v : V256) (p : BitVec 8) : List Winner :=
  (List.range 8).filterMap fun e =>
    let w := elem v 32 e
    if w / 2 ^ 31 = 1 then some ⟨w / 65536 % 256, w % 65536, p.getLsbD e⟩ else none

/-- The lanes that take part in a merge (R214). -/
def racers (v : V256) (p : BitVec 8) (m : W32) (base : Nat) : List Winner :=
  (List.range 8).filterMap fun j =>
    let x := elem v 32 j
    if m.getLsbD (4 * j) && !(FF.fp32.value x).isNan then
      let key := if x / 2 ^ 31 = 0 then x + 2 ^ 31 else 2 ^ 32 - 1 - x
      some ⟨base + j, key / 65536, p.getLsbD j⟩
    else none

/-- A winner put among others, once: the contestants are a set of experts with their codes. -/
def join (l : List Winner) (a : Winner) : List Winner := if l.any fun x => x.expert == a.expert && x.code == a.code then l else race a l

/-- The merge (R214): words of the new state, and whether it is poisoned. -/
def mergeTop (old : List Winner) (new : List Winner) (k : Nat) : List Nat × Bool :=
  let c := old ++ new
  (((c.foldl join []).take k).map fun a => 2 ^ 31 + a.expert * 65536 + a.code, c.any Winner.p)

/-- The score that a code stands for: a BF16 value (R215). -/
def scoreOf (code : Nat) : Val := FF.bf16.value (if 32768 ≤ code then code - 32768 else 65535 - code)

/-- The softmax weights (R215). -/
def softmax (mode : RM) (ws : List Winner) : List Nat × Flags :=
  match ws with
  | [] => ([], 0)
  | w0 :: _ =>
    let ds := ws.map fun w =>
      if w.code = w0.code then (FF.fp32.ofVal .rne (Val.ofInt 1)) else
        special32 .exp .rne 0 ((scoreOf w.code).add .rne (scoreOf w0.code).negate)
    let sum := (ds.drop 1).foldl (fun (a : Nat × Flags) d =>
      let r := FF.fp32.ofVal .rne ((FF.fp32.value a.1).add .rne (FF.fp32.value d.1)); (r.1, a.2 ||| r.2)) (ds.headD (0, 0))
    let out := ds.map fun d => FF.bf16.ofVal mode ((FF.fp32.value d.1).div (FF.fp32.value sum.1))
    (out.map Prod.fst, (ds ++ out).foldl (fun f x => f ||| x.2) sum.2)

/-- The raw weights (R215). A score that is a NaN, which no merge leaves in a state but software can put there, is taken as the infinities that the rule
names (DESIGN CHOICE, log entry 77). -/
def rawWeights (mode : RM) (ws : List Winner) : List Nat × Flags :=
  let ss := ws.map fun w => scoreOf w.code
  if ss.any fun v => !v.isFin then (ws.map fun _ => 0x7FC0, fINV)
  else
    let sum := ss.foldl (Val.add .rne) (.fin false 0 1)
    let out := ss.map fun v => FF.bf16.ofVal mode (if sum.isZero then .fin false 1 ws.length else v.div sum)
    (out.map Prod.fst, out.foldl (fun f x => f ||| x.2) 0)

/-- Eight words as elements to write, with one poison for all. -/
def topWords (ws : List Nat) (fl : Flags) (p : Bool) : List (Option El) :=
  (List.range 8).map fun i => some ⟨ws.getD i 0, if i = 0 then fl else 0, p⟩

/-- VTOPK (R213 to R215): POISON and BOUNDS of the control word first, and then nothing is popped. -/
def execVtopk (p : PReg) (vs2 vs1 vd : VReg) (s : State) : Out :=
  let r := s.b.readV vs1
  let q := r.1.readV vs2
  let ctl := dwOf q.2.1 0
  let op := fld ctl 12 2
  let k := fld ctl 8 4
  if q.2.2.getLsbD 0 || q.2.2.getLsbD 1 then .next (s.trap 0x0E (w64 (32 + vs2)))
  else if fld ctl 14 50 ≠ 0 ∨ k = 0 ∨ 8 < k ∨ op = 3 ∨ (op = 0 ∧ 248 < fld ctl 0 8) then .next (s.trap 5 ctl)
  else
    let old := entries (s.b.getV vd) (s.b.poisV vd)
    if op = 0 then
      let m := mergeTop old (racers r.2.1 r.2.2 (s.b.getP p) (fld ctl 0 8)) k
      s.commit q.1 vd 32 (topWords m.1 0 m.2)
    else
      let w := if op = 1 then softmax s.b.mode old else rawWeights s.b.mode old
      s.commit q.1 vd 32 (topWords ((w.1.zip old).map fun x => x.1 * 65536 + 0x8000 + x.2.expert) w.2 (old.any Winner.p))

end Sys2Proof.Machine
end

