-- ==== Sys2Proof/Machine/TrapClass.lean ====
section
/-! DEFINITION. The trap instructions: TRAP (R343), TRET (R353), CHKERR (R347), CTXSV and CTXLD (R352), and the reserved encodings (R35). -/

namespace Sys2Proof.Machine

/-- TRAP (R343). -/
def execTrap (code : BitVec 5) (s : State) : Out := .next (s.trap 0x0A (code.setWidth 64))

/-- A bank back in handler mode waits no more for what it waited for when it was pre-empted, but for the answer of a steal: it goes on at TEPC, where its
instruction is executed anew, or its access reissued (R350, R353). -/
def State.forgo (s : State) : State :=
  match s.b.service, s.b.owed with
  | true, _ => s
  | false, .steal .. => s
  | false, .parked pg die .. => (s.dropWaiter die pg).modB fun b => { b with owed := .none }
  | false, _ => s.modB fun b => { b with owed := .none }

/-- TRET (R353): service mode only. An access left to reissue completes before the next instruction (State.reissue). -/
def execTret (s : State) : Out := .next (if s.b.service then (s.modB Bank.leaveTrap).forgo else illegal s .tret)

/-- CHKERR (R347): it waits for the loads that are outstanding. -/
def execChkerr (rd rs1 : Reg) (s : State) : Out :=
  let c := s.b.chki
  finish (if s.b.loads ≠ [] then .hold s
    else if c &&& 3 = 0 then .ok (s.modB fun b => b.setX rd 0 false) ()
    else if s.b.poisX rs1 ∨ fld (s.b.getX rs1) 0 1 = 1 then .trap s 0x0B c
    else .ok (s.modB fun b => b.setX rd c false) ())

/-- The checks that CTXSV and CTXLD share, and the entry of the context region that the address names. -/
def ctxEntry (rs1 : Reg) (s : State) : Res Nat :=
  let a := s.b.getX rs1
  let base := ctxBase s.ck
  (check s (a.toNat % 1024 == 0) 2 a).bind fun s _ =>
    (check s (decide (base ≤ a.toNat ∧ a.toNat < base + 2 ^ 18)) 4 a).bind fun s _ => .ok s ((a.toNat - base) / 1024)

/-- CTXSV (R352): the bank's activation goes to the entry, and the bank is free. It waits for the loads of service mode itself, which are none of the
activation's (log entry 49). -/
def execCtxsv (rs1 : Reg) (s : State) : Out :=
  if s.b.service = false then .next (illegal s (.ctxsv rs1))
  else if s.b.owesService then .next s
  else finishAt ((ctxEntry rs1 s).bind fun s i =>
    let s := s.modCluster s.ck fun c => { c with saved := c.saved.filter fun x => x.idx != i }
    .ok (s.saveCtx s.cur i s.b.tepc (waitsOn (if s.b.tcause = 0x0C then s.b.tval.toNat else 0) s.b.owed)) ())

/-- Whether an image is valid and its reserved bytes are zero (R351, R352; log entry 19). -/
def State.ctxGood (s : State) (ck i : Nat) : Bool :=
  fld (s.ctxDw ck i 0) 63 1 == 1 && s.numAt (ctxLoc ck (1024 * i + 0x304)) 4 == 0 && s.numAt (ctxLoc ck (1024 * i + 0x398)) 104 == 0

/-- What an activation saved to an entry keeps beside its image, or a fresh bank. -/
def State.savedBank (s : State) (ck i : Nat) : Bank :=
  match (s.clusterAt ck).saved.find? fun x => x.idx == i with
  | some x => x.bank
  | none => Bank.init

/-- CTXLD (R352): the state is loaded, TEPC becomes the resume address, and VALID is cleared; it waits for loads owed to the image, and
for those of service mode. A parked access of the image is left to TRET. -/
def execCtxld (rs1 : Reg) (s : State) : Out :=
  if s.b.service = false then .next (illegal s (.ctxld rs1))
  else finishAt ((ctxEntry rs1 s).bind fun s i =>
    let ck := s.ck
    let x := s.savedBank ck i
    (check s (s.ctxGood ck i) 1 (s.b.getX rs1)).bind fun s _ =>
      if x.loads ≠ [] ∨ s.b.owesService then .hold s
      else
        let nb := s.fromImage ck i (s.b.adopt x)
        let nb := { nb with seq := if x.seq = 0 then nb.seq else x.seq, tepc := s.ctxDw ck i 0x350 &&& ~~~3#64,
                            tstat := nb.tstat &&& ~~~1#64, since := s.cycles }
        .ok ((s.dropCtx ck i).putB nb.advance) ())

/-- A word that names no instruction raises ILLEGAL with TVAL = the word (R35). -/
def execReservedEncoding (w : W32) (s : State) : Out := .next (illegal s (.reservedEncoding w))

end Sys2Proof.Machine
end

