-- ==== Sys2Proof/Machine/Dispatch.lean ====
section
/-! DEFINITION. The dispatch of an instruction to its meaning: one arm for each constructor of `Instr`. -/

namespace Sys2Proof.Machine

/-- What an instruction does. -/
def exec (i : Instr) (s : State) : Host.Outcome State Fault Refusal :=
  match i with
  | .lui rd imm => Sys2Proof.Machine.execLui rd imm s
  | .auipc rd imm => Sys2Proof.Machine.execAuipc rd imm s
  | .jal rd off => Sys2Proof.Machine.execJal rd off s
  | .jalr rd rs1 imm => Sys2Proof.Machine.execJalr rd rs1 imm s
  | .beq rs1 rs2 off => Sys2Proof.Machine.execBeq rs1 rs2 off s
  | .bne rs1 rs2 off => Sys2Proof.Machine.execBne rs1 rs2 off s
  | .blt rs1 rs2 off => Sys2Proof.Machine.execBlt rs1 rs2 off s
  | .bge rs1 rs2 off => Sys2Proof.Machine.execBge rs1 rs2 off s
  | .bltu rs1 rs2 off => Sys2Proof.Machine.execBltu rs1 rs2 off s
  | .bgeu rs1 rs2 off => Sys2Proof.Machine.execBgeu rs1 rs2 off s
  | .lb rd rs1 imm => Sys2Proof.Machine.execLb rd rs1 imm s
  | .lh rd rs1 imm => Sys2Proof.Machine.execLh rd rs1 imm s
  | .lw rd rs1 imm => Sys2Proof.Machine.execLw rd rs1 imm s
  | .ld rd rs1 imm => Sys2Proof.Machine.execLd rd rs1 imm s
  | .lbu rd rs1 imm => Sys2Proof.Machine.execLbu rd rs1 imm s
  | .lhu rd rs1 imm => Sys2Proof.Machine.execLhu rd rs1 imm s
  | .lwu rd rs1 imm => Sys2Proof.Machine.execLwu rd rs1 imm s
  | .sb rs1 rs2 imm => Sys2Proof.Machine.execSb rs1 rs2 imm s
  | .sh rs1 rs2 imm => Sys2Proof.Machine.execSh rs1 rs2 imm s
  | .sw rs1 rs2 imm => Sys2Proof.Machine.execSw rs1 rs2 imm s
  | .sd rs1 rs2 imm => Sys2Proof.Machine.execSd rs1 rs2 imm s
  | .addi rd rs1 imm => Sys2Proof.Machine.execAddi rd rs1 imm s
  | .slti rd rs1 imm => Sys2Proof.Machine.execSlti rd rs1 imm s
  | .sltiu rd rs1 imm => Sys2Proof.Machine.execSltiu rd rs1 imm s
  | .xori rd rs1 imm => Sys2Proof.Machine.execXori rd rs1 imm s
  | .ori rd rs1 imm => Sys2Proof.Machine.execOri rd rs1 imm s
  | .andi rd rs1 imm => Sys2Proof.Machine.execAndi rd rs1 imm s
  | .slli rd rs1 sh => Sys2Proof.Machine.execSlli rd rs1 sh s
  | .srli rd rs1 sh => Sys2Proof.Machine.execSrli rd rs1 sh s
  | .srai rd rs1 sh => Sys2Proof.Machine.execSrai rd rs1 sh s
  | .add rd rs1 rs2 => Sys2Proof.Machine.execAdd rd rs1 rs2 s
  | .sub rd rs1 rs2 => Sys2Proof.Machine.execSub rd rs1 rs2 s
  | .sll rd rs1 rs2 => Sys2Proof.Machine.execSll rd rs1 rs2 s
  | .slt rd rs1 rs2 => Sys2Proof.Machine.execSlt rd rs1 rs2 s
  | .sltu rd rs1 rs2 => Sys2Proof.Machine.execSltu rd rs1 rs2 s
  | .xor rd rs1 rs2 => Sys2Proof.Machine.execXor rd rs1 rs2 s
  | .srl rd rs1 rs2 => Sys2Proof.Machine.execSrl rd rs1 rs2 s
  | .sra rd rs1 rs2 => Sys2Proof.Machine.execSra rd rs1 rs2 s
  | .or_ rd rs1 rs2 => Sys2Proof.Machine.execOr_ rd rs1 rs2 s
  | .and_ rd rs1 rs2 => Sys2Proof.Machine.execAnd_ rd rs1 rs2 s
  | .mul rd rs1 rs2 => Sys2Proof.Machine.execMul rd rs1 rs2 s
  | .mulh rd rs1 rs2 => Sys2Proof.Machine.execMulh rd rs1 rs2 s
  | .mulhsu rd rs1 rs2 => Sys2Proof.Machine.execMulhsu rd rs1 rs2 s
  | .mulhu rd rs1 rs2 => Sys2Proof.Machine.execMulhu rd rs1 rs2 s
  | .div rd rs1 rs2 => Sys2Proof.Machine.execDiv rd rs1 rs2 s
  | .divu rd rs1 rs2 => Sys2Proof.Machine.execDivu rd rs1 rs2 s
  | .rem rd rs1 rs2 => Sys2Proof.Machine.execRem rd rs1 rs2 s
  | .remu rd rs1 rs2 => Sys2Proof.Machine.execRemu rd rs1 rs2 s
  | .addiw rd rs1 imm => Sys2Proof.Machine.execAddiw rd rs1 imm s
  | .slliw rd rs1 sh => Sys2Proof.Machine.execSlliw rd rs1 sh s
  | .srliw rd rs1 sh => Sys2Proof.Machine.execSrliw rd rs1 sh s
  | .sraiw rd rs1 sh => Sys2Proof.Machine.execSraiw rd rs1 sh s
  | .addw rd rs1 rs2 => Sys2Proof.Machine.execAddw rd rs1 rs2 s
  | .subw rd rs1 rs2 => Sys2Proof.Machine.execSubw rd rs1 rs2 s
  | .sllw rd rs1 rs2 => Sys2Proof.Machine.execSllw rd rs1 rs2 s
  | .srlw rd rs1 rs2 => Sys2Proof.Machine.execSrlw rd rs1 rs2 s
  | .sraw rd rs1 rs2 => Sys2Proof.Machine.execSraw rd rs1 rs2 s
  | .mulw rd rs1 rs2 => Sys2Proof.Machine.execMulw rd rs1 rs2 s
  | .divw rd rs1 rs2 => Sys2Proof.Machine.execDivw rd rs1 rs2 s
  | .divuw rd rs1 rs2 => Sys2Proof.Machine.execDivuw rd rs1 rs2 s
  | .remw rd rs1 rs2 => Sys2Proof.Machine.execRemw rd rs1 rs2 s
  | .remuw rd rs1 rs2 => Sys2Proof.Machine.execRemuw rd rs1 rs2 s
  | .fence flags => Sys2Proof.Machine.execFence flags s
  | .ecall => Sys2Proof.Machine.execEcall s
  | .ebreak => Sys2Proof.Machine.execEbreak s
  | .wfi => Sys2Proof.Machine.execWfi s
  | .csrrw rd rs1 csr => Sys2Proof.Machine.execCsrrw rd rs1 csr s
  | .csrrs rd rs1 csr => Sys2Proof.Machine.execCsrrs rd rs1 csr s
  | .csrrc rd rs1 csr => Sys2Proof.Machine.execCsrrc rd rs1 csr s
  | .csrrwi rd zimm csr => Sys2Proof.Machine.execCsrrwi rd zimm csr s
  | .csrrsi rd zimm csr => Sys2Proof.Machine.execCsrrsi rd zimm csr s
  | .csrrci rd zimm csr => Sys2Proof.Machine.execCsrrci rd zimm csr s
  | .aaddW rd rs1 rs2 aq rl => Sys2Proof.Machine.execAaddW rd rs1 rs2 aq rl s
  | .aaddD rd rs1 rs2 aq rl => Sys2Proof.Machine.execAaddD rd rs1 rs2 aq rl s
  | .aswapW rd rs1 rs2 aq rl => Sys2Proof.Machine.execAswapW rd rs1 rs2 aq rl s
  | .aswapD rd rs1 rs2 aq rl => Sys2Proof.Machine.execAswapD rd rs1 rs2 aq rl s
  | .axorW rd rs1 rs2 aq rl => Sys2Proof.Machine.execAxorW rd rs1 rs2 aq rl s
  | .axorD rd rs1 rs2 aq rl => Sys2Proof.Machine.execAxorD rd rs1 rs2 aq rl s
  | .acasW rd rs1 rs2 aq rl => Sys2Proof.Machine.execAcasW rd rs1 rs2 aq rl s
  | .acasD rd rs1 rs2 aq rl => Sys2Proof.Machine.execAcasD rd rs1 rs2 aq rl s
  | .afaddW rd rs1 rs2 aq rl => Sys2Proof.Machine.execAfaddW rd rs1 rs2 aq rl s
  | .aorW rd rs1 rs2 aq rl => Sys2Proof.Machine.execAorW rd rs1 rs2 aq rl s
  | .aorD rd rs1 rs2 aq rl => Sys2Proof.Machine.execAorD rd rs1 rs2 aq rl s
  | .aandW rd rs1 rs2 aq rl => Sys2Proof.Machine.execAandW rd rs1 rs2 aq rl s
  | .aandD rd rs1 rs2 aq rl => Sys2Proof.Machine.execAandD rd rs1 rs2 aq rl s
  | .aminW rd rs1 rs2 aq rl => Sys2Proof.Machine.execAminW rd rs1 rs2 aq rl s
  | .aminD rd rs1 rs2 aq rl => Sys2Proof.Machine.execAminD rd rs1 rs2 aq rl s
  | .amaxW rd rs1 rs2 aq rl => Sys2Proof.Machine.execAmaxW rd rs1 rs2 aq rl s
  | .amaxD rd rs1 rs2 aq rl => Sys2Proof.Machine.execAmaxD rd rs1 rs2 aq rl s
  | .aminuW rd rs1 rs2 aq rl => Sys2Proof.Machine.execAminuW rd rs1 rs2 aq rl s
  | .aminuD rd rs1 rs2 aq rl => Sys2Proof.Machine.execAminuD rd rs1 rs2 aq rl s
  | .amaxuW rd rs1 rs2 aq rl => Sys2Proof.Machine.execAmaxuW rd rs1 rs2 aq rl s
  | .amaxuD rd rs1 rs2 aq rl => Sys2Proof.Machine.execAmaxuD rd rs1 rs2 aq rl s
  | .endh => Sys2Proof.Machine.execEndh s
  | .aborth rs1 => Sys2Proof.Machine.execAborth rs1 s
  | .masku => Sys2Proof.Machine.execMasku s
  | .unmasku => Sys2Proof.Machine.execUnmasku s
  | .yield => Sys2Proof.Machine.execYield s
  | .waitc rd rs1 rs2 => Sys2Proof.Machine.execWaitc rd rs1 rs2 s
  | .sleep rs1 => Sys2Proof.Machine.execSleep rs1 s
  | .dqpush rd rs1 rs2 => Sys2Proof.Machine.execDqpush rd rs1 rs2 s
  | .dqpop rd => Sys2Proof.Machine.execDqpop rd s
  | .dqsplit rd => Sys2Proof.Machine.execDqsplit rd s
  | .dqsteal rd rs1 => Sys2Proof.Machine.execDqsteal rd rs1 s
  | .dqlen rd => Sys2Proof.Machine.execDqlen rd s
  | .send rd rs1 rs2 => Sys2Proof.Machine.execSend rd rs1 rs2 s
  | .sendu rd rs1 rs2 => Sys2Proof.Machine.execSendu rd rs1 rs2 s
  | .reply rs1 vs2 => Sys2Proof.Machine.execReply rs1 vs2 s
  | .sendv rd rs1 vs2 => Sys2Proof.Machine.execSendv rd rs1 vs2 s
  | .cntadd rs1 rs2 => Sys2Proof.Machine.execCntadd rs1 rs2 s
  | .cntset rs1 rs2 => Sys2Proof.Machine.execCntset rs1 rs2 s
  | .cntarm rs1 rs2 => Sys2Proof.Machine.execCntarm rs1 rs2 s
  | .cntrd rd rs1 => Sys2Proof.Machine.execCntrd rd rs1 s
  | .shape vd rs1 => Sys2Proof.Machine.execShape vd rs1 s
  | .ldg rd vs rs2 => Sys2Proof.Machine.execLdg rd vs rs2 s
  | .stg rs vs rs2 => Sys2Proof.Machine.execStg rs vs rs2 s
  | .lda rd rs1 wd sc => Sys2Proof.Machine.execLda rd rs1 wd sc s
  | .stl rs1 rs2 wd sc => Sys2Proof.Machine.execStl rs1 rs2 wd sc s
  | .fenceS sc => Sys2Proof.Machine.execFenceS sc s
  | .xfence => Sys2Proof.Machine.execXfence s
  | .publish rd rs1 rs2 => Sys2Proof.Machine.execPublish rd rs1 rs2 s
  | .pubwait rd rs1 rs2 => Sys2Proof.Machine.execPubwait rd rs1 rs2 s
  | .cuadd rs1 rs2 => Sys2Proof.Machine.execCuadd rs1 rs2 s
  | .cuaddi rs1 rs2 => Sys2Proof.Machine.execCuaddi rs1 rs2 s
  | .engq rd vs => Sys2Proof.Machine.execEngq rd vs s
  | .tpost rs1 rs2 => Sys2Proof.Machine.execTpost rs1 rs2 s
  | .engst rd rs1 => Sys2Proof.Machine.execEngst rd rs1 s
  | .grpst rs1 vs2 => Sys2Proof.Machine.execGrpst rs1 vs2 s
  | .grpld vd rs1 => Sys2Proof.Machine.execGrpld vd rs1 s
  | .trap code => Sys2Proof.Machine.execTrap code s
  | .tret => Sys2Proof.Machine.execTret s
  | .chkerr rd rs1 => Sys2Proof.Machine.execChkerr rd rs1 s
  | .ctxsv rs1 => Sys2Proof.Machine.execCtxsv rs1 s
  | .ctxld rs1 => Sys2Proof.Machine.execCtxld rs1 s
  | .leaseq rd rs1 => Sys2Proof.Machine.execLeaseq rd rs1 s
  | .capack rs1 => Sys2Proof.Machine.execCapack rs1 s
  | .suspr rd rs1 rs2 => Sys2Proof.Machine.execSuspr rd rs1 rs2 s
  | .retrd rd rs1 rs2 => Sys2Proof.Machine.execRetrd rd rs1 rs2 s
  | .vcvt dst src rm vs vd => Sys2Proof.Machine.execVcvt dst src rm vs vd s
  | .vqsx k rm vs vd => Sys2Proof.Machine.execVqsx k rm vs vd s
  | .vdqsx k rm vs vd => Sys2Proof.Machine.execVdqsx k rm vs vd s
  | .vqrow four rm vs vd => Sys2Proof.Machine.execVqrow four rm vs vd s
  | .vdqrow four rm vs vd => Sys2Proof.Machine.execVdqrow four rm vs vd s
  | .vcvtsr dst src vr vs vd => Sys2Proof.Machine.execVcvtsr dst src vr vs vd s
  | .vaddVV p vs2 vs1 vd => Sys2Proof.Machine.execVaddVV p vs2 vs1 vd s
  | .vaddVX p rs2 vs1 vd => Sys2Proof.Machine.execVaddVX p rs2 vs1 vd s
  | .vaddVI p imm vs1 vd => Sys2Proof.Machine.execVaddVI p imm vs1 vd s
  | .vsubVV p vs2 vs1 vd => Sys2Proof.Machine.execVsubVV p vs2 vs1 vd s
  | .vsubVX p rs2 vs1 vd => Sys2Proof.Machine.execVsubVX p rs2 vs1 vd s
  | .vsubVI p imm vs1 vd => Sys2Proof.Machine.execVsubVI p imm vs1 vd s
  | .vmulVV p vs2 vs1 vd => Sys2Proof.Machine.execVmulVV p vs2 vs1 vd s
  | .vmulVX p rs2 vs1 vd => Sys2Proof.Machine.execVmulVX p rs2 vs1 vd s
  | .vmulVI p imm vs1 vd => Sys2Proof.Machine.execVmulVI p imm vs1 vd s
  | .vfma p vs2 vs1 vd => Sys2Proof.Machine.execVfma p vs2 vs1 vd s
  | .vfms p vs2 vs1 vd => Sys2Proof.Machine.execVfms p vs2 vs1 vd s
  | .vminVV p vs2 vs1 vd => Sys2Proof.Machine.execVminVV p vs2 vs1 vd s
  | .vminVX p rs2 vs1 vd => Sys2Proof.Machine.execVminVX p rs2 vs1 vd s
  | .vminVI p imm vs1 vd => Sys2Proof.Machine.execVminVI p imm vs1 vd s
  | .vmaxVV p vs2 vs1 vd => Sys2Proof.Machine.execVmaxVV p vs2 vs1 vd s
  | .vmaxVX p rs2 vs1 vd => Sys2Proof.Machine.execVmaxVX p rs2 vs1 vd s
  | .vmaxVI p imm vs1 vd => Sys2Proof.Machine.execVmaxVI p imm vs1 vd s
  | .vabs p vs1 vd => Sys2Proof.Machine.execVabs p vs1 vd s
  | .vneg p vs1 vd => Sys2Proof.Machine.execVneg p vs1 vd s
  | .vandVV p vs2 vs1 vd => Sys2Proof.Machine.execVandVV p vs2 vs1 vd s
  | .vandVX p rs2 vs1 vd => Sys2Proof.Machine.execVandVX p rs2 vs1 vd s
  | .vandVI p imm vs1 vd => Sys2Proof.Machine.execVandVI p imm vs1 vd s
  | .vorVV p vs2 vs1 vd => Sys2Proof.Machine.execVorVV p vs2 vs1 vd s
  | .vorVX p rs2 vs1 vd => Sys2Proof.Machine.execVorVX p rs2 vs1 vd s
  | .vorVI p imm vs1 vd => Sys2Proof.Machine.execVorVI p imm vs1 vd s
  | .vxorVV p vs2 vs1 vd => Sys2Proof.Machine.execVxorVV p vs2 vs1 vd s
  | .vxorVX p rs2 vs1 vd => Sys2Proof.Machine.execVxorVX p rs2 vs1 vd s
  | .vxorVI p imm vs1 vd => Sys2Proof.Machine.execVxorVI p imm vs1 vd s
  | .vshlVV p vs2 vs1 vd => Sys2Proof.Machine.execVshlVV p vs2 vs1 vd s
  | .vshlVX p rs2 vs1 vd => Sys2Proof.Machine.execVshlVX p rs2 vs1 vd s
  | .vshlVI p imm vs1 vd => Sys2Proof.Machine.execVshlVI p imm vs1 vd s
  | .vshrVV p vs2 vs1 vd => Sys2Proof.Machine.execVshrVV p vs2 vs1 vd s
  | .vshrVX p rs2 vs1 vd => Sys2Proof.Machine.execVshrVX p rs2 vs1 vd s
  | .vshrVI p imm vs1 vd => Sys2Proof.Machine.execVshrVI p imm vs1 vd s
  | .vsraVV p vs2 vs1 vd => Sys2Proof.Machine.execVsraVV p vs2 vs1 vd s
  | .vsraVX p rs2 vs1 vd => Sys2Proof.Machine.execVsraVX p rs2 vs1 vd s
  | .vsraVI p imm vs1 vd => Sys2Proof.Machine.execVsraVI p imm vs1 vd s
  | .vcmpVV pd vs2 vs1 cc => Sys2Proof.Machine.execVcmpVV pd vs2 vs1 cc s
  | .vcmpVX pd rs2 vs1 cc => Sys2Proof.Machine.execVcmpVX pd rs2 vs1 cc s
  | .vcmpVI pd imm vs1 cc => Sys2Proof.Machine.execVcmpVI pd imm vs1 cc s
  | .vsel p vs2 vs1 vd => Sys2Proof.Machine.execVsel p vs2 vs1 vd s
  | .vperm p vs2 vs1 vd => Sys2Proof.Machine.execVperm p vs2 vs1 vd s
  | .vbcastX p rs2 vd => Sys2Proof.Machine.execVbcastX p rs2 vd s
  | .vbcastI p imm vd => Sys2Proof.Machine.execVbcastI p imm vd s
  | .vmovx rd vs1 k => Sys2Proof.Machine.execVmovx rd vs1 k s
  | .vredadd p vs1 vd => Sys2Proof.Machine.execVredadd p vs1 vd s
  | .vredmax p vs1 vd => Sys2Proof.Machine.execVredmax p vs1 vd s
  | .vredmin p vs1 vd => Sys2Proof.Machine.execVredmin p vs1 vd s
  | .vexp2 p vs1 vd => Sys2Proof.Machine.execVexp2 p vs1 vd s
  | .vlog2 p vs1 vd => Sys2Proof.Machine.execVlog2 p vs1 vd s
  | .vexp p vs1 vd => Sys2Proof.Machine.execVexp p vs1 vd s
  | .vlog p vs1 vd => Sys2Proof.Machine.execVlog p vs1 vd s
  | .vsin p vs1 vd => Sys2Proof.Machine.execVsin p vs1 vd s
  | .vcos p vs1 vd => Sys2Proof.Machine.execVcos p vs1 vd s
  | .vrcp p vs1 vd => Sys2Proof.Machine.execVrcp p vs1 vd s
  | .vrsqrt p vs1 vd => Sys2Proof.Machine.execVrsqrt p vs1 vd s
  | .vsig p vs1 vd => Sys2Proof.Machine.execVsig p vs1 vd s
  | .vtanh p vs1 vd => Sys2Proof.Machine.execVtanh p vs1 vd s
  | .vtopk p vs2 vs1 vd => Sys2Proof.Machine.execVtopk p vs2 vs1 vd s
  | .vrefill vs2 vs1 vd => Sys2Proof.Machine.execVrefill vs2 vs1 vd s
  | .vld p off rs1 vd => Sys2Proof.Machine.execVld p off rs1 vd s
  | .vst p off rs1 vs => Sys2Proof.Machine.execVst p off rs1 vs s
  | .vlds p off rs1 vd => Sys2Proof.Machine.execVlds p off rs1 vd s
  | .vsts p off rs1 vs => Sys2Proof.Machine.execVsts p off rs1 vs s
  | .vldi p vk rs1 vd => Sys2Proof.Machine.execVldi p vk rs1 vd s
  | .mma tile sx a b kb kstart => Sys2Proof.Machine.execMma tile sx a b kb kstart s
  | .cellp tile a b kb kstart => Sys2Proof.Machine.execCellp tile a b kb kstart s
  | .aczero tile rel fill => Sys2Proof.Machine.execAczero tile rel fill s
  | .acdrain tile rel z fmt base str => Sys2Proof.Machine.execAcdrain tile rel z fmt base str s
  | .acload tile w36 base str => Sys2Proof.Machine.execAcload tile w36 base str s
  | .accfg tile z rec colm1 rowm1 mprog => Sys2Proof.Machine.execAccfg tile z rec colm1 rowm1 mprog s
  | .acstat tile base => Sys2Proof.Machine.execAcstat tile base s
  | .rotCfg rel z part act tsel nc => Sys2Proof.Machine.execRotCfg rel z part act tsel nc s
  | .rotTriStream gbase => Sys2Proof.Machine.execRotTriStream gbase s
  | .rotTriAuto pbase dqc pmax => Sys2Proof.Machine.execRotTriAuto pbase dqc pmax s
  | .rotTriLoad set ibase => Sys2Proof.Machine.execRotTriLoad set ibase s
  | .rotApply bf16 vfmt vbase ybase hbase => Sys2Proof.Machine.execRotApply bf16 vfmt vbase ybase hbase s
  | .rotSolve set xbase => Sys2Proof.Machine.execRotSolve set xbase s
  | .rotReadFp32 set obase ostr => Sys2Proof.Machine.execRotReadFp32 set obase ostr s
  | .rotReadRaw set obase => Sys2Proof.Machine.execRotReadRaw set obase s
  | .rotReadStat obase => Sys2Proof.Machine.execRotReadStat obase s
  | .rotGain set mask => Sys2Proof.Machine.execRotGain set mask s
  | .rotAngToSig32 sbase dbase n => Sys2Proof.Machine.execRotAngToSig32 sbase dbase n s
  | .rotAngToBam32 sbase dbase n => Sys2Proof.Machine.execRotAngToBam32 sbase dbase n s
  | .fload slot fbase => Sys2Proof.Machine.execFload slot fbase s
  | .fsel slot maxsw => Sys2Proof.Machine.execFsel slot maxsw s
  | .farg slot abase n => Sys2Proof.Machine.execFarg slot abase n s
  | .fseed gens seed0 seed1 => Sys2Proof.Machine.execFseed gens seed0 seed1 s
  | .fdrain slot rel dbase => Sys2Proof.Machine.execFdrain slot rel dbase s
  | .fstat clr sbase => Sys2Proof.Machine.execFstat clr sbase s
  | .pePass ck pe => Sys2Proof.Machine.execPePass ck pe s
  | .peAdd ck pe => Sys2Proof.Machine.execPeAdd ck pe s
  | .peSub ck pe => Sys2Proof.Machine.execPeSub ck pe s
  | .peMul ck pe => Sys2Proof.Machine.execPeMul ck pe s
  | .peFma ck pe => Sys2Proof.Machine.execPeFma ck pe s
  | .peFms ck pe => Sys2Proof.Machine.execPeFms ck pe s
  | .peMax ck pe => Sys2Proof.Machine.execPeMax ck pe s
  | .peMin ck pe => Sys2Proof.Machine.execPeMin ck pe s
  | .peAbs ck pe => Sys2Proof.Machine.execPeAbs ck pe s
  | .peNeg ck pe => Sys2Proof.Machine.execPeNeg ck pe s
  | .peScale ck pe => Sys2Proof.Machine.execPeScale ck pe s
  | .peRint ck pe => Sys2Proof.Machine.execPeRint ck pe s
  | .peCmp ck pe => Sys2Proof.Machine.execPeCmp ck pe s
  | .peSel ck pe => Sys2Proof.Machine.execPeSel ck pe s
  | .peCvt ck pe => Sys2Proof.Machine.execPeCvt ck pe s
  | .peSteer ck pe => Sys2Proof.Machine.execPeSteer ck pe s
  | .peExp2 ck pe => Sys2Proof.Machine.execPeExp2 ck pe s
  | .peExp ck pe => Sys2Proof.Machine.execPeExp ck pe s
  | .peLog2 ck pe => Sys2Proof.Machine.execPeLog2 ck pe s
  | .peLog ck pe => Sys2Proof.Machine.execPeLog ck pe s
  | .peRcp ck pe => Sys2Proof.Machine.execPeRcp ck pe s
  | .peRsqrt ck pe => Sys2Proof.Machine.execPeRsqrt ck pe s
  | .peSkip ck pe => Sys2Proof.Machine.execPeSkip ck pe s
  | .peDiv ck pe => Sys2Proof.Machine.execPeDiv ck pe s
  | .aguLoadToken ck a => Sys2Proof.Machine.execAguLoadToken ck a s
  | .aguStoreToken ck a => Sys2Proof.Machine.execAguStoreToken ck a s
  | .streamConnect ck a => Sys2Proof.Machine.execStreamConnect ck a s
  | .streamSendToken ck a => Sys2Proof.Machine.execStreamSendToken ck a s
  | .streamTokenArrival k => Sys2Proof.Machine.execStreamTokenArrival k s
  | .streamCreditArrival k => Sys2Proof.Machine.execStreamCreditArrival k s
  | .generatorEmit ck g => Sys2Proof.Machine.execGeneratorEmit ck g s
  | .folioTrigger ck => Sys2Proof.Machine.execFolioTrigger ck s
  | .quiescenceTimeout ck => Sys2Proof.Machine.execQuiescenceTimeout ck s
  | .folioCompletion ck => Sys2Proof.Machine.execFolioCompletion ck s
  | .cpGet rows sbase ch dbase rlen sstr dstr => Sys2Proof.Machine.execCpGet rows sbase ch dbase rlen sstr dstr s
  | .cpPut rcv rows sbase dbase rlen sstr dstr => Sys2Proof.Machine.execCpPut rcv rows sbase dbase rlen sstr dstr s
  | .cpMc sbase mbase nt tlen tstr => Sys2Proof.Machine.execCpMc sbase mbase nt tlen tstr s
  | .cpWmArm ch base len => Sys2Proof.Machine.execCpWmArm ch base len s
  | .cpWmDisarm ch => Sys2Proof.Machine.execCpWmDisarm ch s
  | .cpWmRead ch sbase => Sys2Proof.Machine.execCpWmRead ch sbase s
  | .cpShd pub sbase g len off etgt => Sys2Proof.Machine.execCpShd pub sbase g len off etgt s
  | .gRows pf zf desc res => Sys2Proof.Machine.execGRows pf zf desc res s
  | .gEmb q4 bf16 zf desc res => Sys2Proof.Machine.execGEmb q4 bf16 zf desc res s
  | .gScatFadd desc res => Sys2Proof.Machine.execGScatFadd desc res s
  | .gScatIadd desc res => Sys2Proof.Machine.execGScatIadd desc res s
  | .gScatOverwrite desc res => Sys2Proof.Machine.execGScatOverwrite desc res s
  | .gKern slot base nw => Sys2Proof.Machine.execGKern slot base nw s
  | .pfuIndexLine ck unit => Sys2Proof.Machine.execPfuIndexLine ck unit s
  | .filterPartialEvict ck unit => Sys2Proof.Machine.execFilterPartialEvict ck unit s
  | .neSend f sbase dst rq len imm => Sys2Proof.Machine.execNeSend f sbase dst rq len imm s
  | .nePost bbase blen crec rq => Sys2Proof.Machine.execNePost bbase blen crec rq s
  | .neWrite f sbase dst rctr len daddr => Sys2Proof.Machine.execNeWrite f sbase dst rctr len daddr s
  | .neRead f lbase dmod len daddr => Sys2Proof.Machine.execNeRead f lbase dmod len daddr s
  | .neXsend f sbase xdesc len => Sys2Proof.Machine.execNeXsend f sbase xdesc len s
  | .resendStoreCopy die k => Sys2Proof.Machine.execResendStoreCopy die k s
  | .nePacketArrival die p => Sys2Proof.Machine.execNePacketArrival die p s
  | .neAckArrival die a => Sys2Proof.Machine.execNeAckArrival die a s
  | .neRetransmitTimer die k pkt => Sys2Proof.Machine.execNeRetransmitTimer die k pkt s
  | .neReceiveTimeout die k => Sys2Proof.Machine.execNeReceiveTimeout die k s
  | .neNotReadyRetry die k => Sys2Proof.Machine.execNeNotReadyRetry die k s
  | .neMatchTimeout die k => Sys2Proof.Machine.execNeMatchTimeout die k s
  | .neReadRequestArrival die r => Sys2Proof.Machine.execNeReadRequestArrival die r s
  | .portStateChange port up => Sys2Proof.Machine.execPortStateChange port up s
  | .messageArrival k => Sys2Proof.Machine.execMessageArrival k s
  | .carafeRefill ck job urg => Sys2Proof.Machine.execCarafeRefill ck job urg s
  | .dispatch ck => Sys2Proof.Machine.execDispatch ck s
  | .resume ck => Sys2Proof.Machine.execResume ck s
  | .longWaitRelease bk => Sys2Proof.Machine.execLongWaitRelease bk s
  | .replyArrival k => Sys2Proof.Machine.execReplyArrival k s
  | .stealRequestArrival k => Sys2Proof.Machine.execStealRequestArrival k s
  | .stealAnswerArrival k => Sys2Proof.Machine.execStealAnswerArrival k s
  | .waitcWake h => Sys2Proof.Machine.execWaitcWake h s
  | .sleepExpiry h => Sys2Proof.Machine.execSleepExpiry h s
  | .pubwaitWake h => Sys2Proof.Machine.execPubwaitWake h s
  | .fenceComplete h => Sys2Proof.Machine.execFenceComplete h s
  | .loadReturn h => Sys2Proof.Machine.execLoadReturn h s
  | .preemptionRequest bk reason => Sys2Proof.Machine.execPreemptionRequest bk reason s
  | .maskoverTimeout bk => Sys2Proof.Machine.execMaskoverTimeout bk s
  | .counterUpdate k => Sys2Proof.Machine.execCounterUpdate k s
  | .postedAtomicPerform k => Sys2Proof.Machine.execPostedAtomicPerform k s
  | .clusterPartialEvict line ck => Sys2Proof.Machine.execClusterPartialEvict line ck s
  | .diePartialEvict line die => Sys2Proof.Machine.execDiePartialEvict line die s
  | .zfResolution die k => Sys2Proof.Machine.execZfResolution die k s
  | .faultResolved k => Sys2Proof.Machine.execFaultResolved k s
  | .pageMigration u job va => Sys2Proof.Machine.execPageMigration u job va s
  | .retentionEntry ck b => Sys2Proof.Machine.execRetentionEntry ck b s
  | .retentionExit ck b => Sys2Proof.Machine.execRetentionExit ck b s
  | .leafTurn job g => Sys2Proof.Machine.execLeafTurn job g s
  | .ttsRecordArrival k => Sys2Proof.Machine.execTtsRecordArrival k s
  | .ttsRecordIssue ck => Sys2Proof.Machine.execTtsRecordIssue ck s
  | .ttsRefill ck => Sys2Proof.Machine.execTtsRefill ck s
  | .groupContributionArrival k => Sys2Proof.Machine.execGroupContributionArrival k s
  | .groupPartialArrival k => Sys2Proof.Machine.execGroupPartialArrival k s
  | .groupResultArrival k => Sys2Proof.Machine.execGroupResultArrival k s
  | .periodicLeaseDue u => Sys2Proof.Machine.execPeriodicLeaseDue u s
  | .leaseStart u => Sys2Proof.Machine.execLeaseStart u s
  | .cuppingEnd u pass => Sys2Proof.Machine.execCuppingEnd u pass s
  | .retireAnswerTimeout u => Sys2Proof.Machine.execRetireAnswerTimeout u s
  | .scoreHalving die => Sys2Proof.Machine.execScoreHalving die s
  | .gangReservation job => Sys2Proof.Machine.execGangReservation job s
  | .gangstall job => Sys2Proof.Machine.execGangstall job s
  | .gangPlacement job => Sys2Proof.Machine.execGangPlacement job s
  | .jobMoveBack job ck => Sys2Proof.Machine.execJobMoveBack job ck s
  | .startMarker k => Sys2Proof.Machine.execStartMarker k s
  | .configurationCompleteWave job => Sys2Proof.Machine.execConfigurationCompleteWave job s
  | .removeComplete job => Sys2Proof.Machine.execRemoveComplete job s
  | .wqEntryDelivery job => Sys2Proof.Machine.execWqEntryDelivery job s
  | .hostRmaWrite addr data => Sys2Proof.Machine.execHostRmaWrite addr data s
  | .hostRmaRead addr n => Sys2Proof.Machine.execHostRmaRead addr n s
  | .doorbell job tail => Sys2Proof.Machine.execDoorbell job tail s
  | .controlRegisterWrite off v => Sys2Proof.Machine.execControlRegisterWrite off v s
  | .install => Sys2Proof.Machine.execInstall s
  | .remove => Sys2Proof.Machine.execRemove s
  | .inval => Sys2Proof.Machine.execInval s
  | .faultCmd => Sys2Proof.Machine.execFaultCmd s
  | .retans => Sys2Proof.Machine.execRetans s
  | .retire => Sys2Proof.Machine.execRetire s
  | .lease => Sys2Proof.Machine.execLease s
  | .redlv => Sys2Proof.Machine.execRedlv s
  | .nertx => Sys2Proof.Machine.execNertx s
  | .debug => Sys2Proof.Machine.execDebug s
  | .grpdis => Sys2Proof.Machine.execGrpdis s
  | .grpset => Sys2Proof.Machine.execGrpset s
  | .carres => Sys2Proof.Machine.execCarres s
  | .moduleReset scrub => Sys2Proof.Machine.execModuleReset scrub s
  | .telemetry => Sys2Proof.Machine.execTelemetry s
  | .firmwareUpdate img => Sys2Proof.Machine.execFirmwareUpdate img s
  | .leasePolicy kind period => Sys2Proof.Machine.execLeasePolicy kind period s
  | .retirementRecordRead n => Sys2Proof.Machine.execRetirementRecordRead n s
  | .retirementRecordClear n rsaOk slhOk => Sys2Proof.Machine.execRetirementRecordClear n rsaOk slhOk s
  | .getVersion => Sys2Proof.Machine.execGetVersion s
  | .getCapabilities => Sys2Proof.Machine.execGetCapabilities s
  | .negotiateAlgorithms => Sys2Proof.Machine.execNegotiateAlgorithms s
  | .getDigests => Sys2Proof.Machine.execGetDigests s
  | .getCertificate slot off len => Sys2Proof.Machine.execGetCertificate slot off len s
  | .challenge nonce => Sys2Proof.Machine.execChallenge nonce s
  | .getMeasurements index nonce => Sys2Proof.Machine.execGetMeasurements index nonce s
  | .thermalTrip die => Sys2Proof.Machine.execThermalTrip die s
  | .junctionLimit u => Sys2Proof.Machine.execJunctionLimit u s
  | .reservedEncoding w => Sys2Proof.Machine.execReservedEncoding w s
  | .clockGating ck gated => Sys2Proof.Machine.execClockGating ck gated s
  | .karmosPowerOn => Sys2Proof.Machine.execKarmosPowerOn s

end Sys2Proof.Machine
end

