-- ==== Sys2Proof/Machine/Issue.lean ====
section
/-! DEFINITION. What one move does: the bank whose turn it is issues its next word (R79, R85, R164), an engine takes a step (R225), an event of the table comes
about, cycles pass, nature acts; then what falls due by itself. -/

namespace Sys2Proof.Machine

/-- The rows of the table that are events: not words of a handler core, not commands of an engine. -/
def isEvent : Instr → Bool
  | .pePass .. | .peAdd .. | .peSub .. | .peMul .. | .peFma .. | .peFms .. | .peMax .. | .peMin .. | .peAbs ..
  | .peNeg .. | .peScale .. | .peRint .. | .peCmp .. | .peSel .. | .peCvt .. | .peSteer .. | .peExp2 .. | .peExp ..
  | .peLog2 .. | .peLog .. | .peRcp .. | .peRsqrt .. | .peSkip .. | .peDiv .. | .aguLoadToken .. | .aguStoreToken ..
  | .streamConnect .. | .streamSendToken .. | .streamTokenArrival .. | .streamCreditArrival .. | .generatorEmit ..
  | .folioTrigger .. | .quiescenceTimeout .. | .folioCompletion .. | .pfuIndexLine .. | .filterPartialEvict ..
  | .resendStoreCopy .. | .nePacketArrival .. | .neAckArrival .. | .neRetransmitTimer .. | .neReceiveTimeout ..
  | .neNotReadyRetry .. | .neMatchTimeout .. | .neReadRequestArrival .. | .portStateChange .. | .messageArrival ..
  | .carafeRefill .. | .dispatch .. | .resume .. | .longWaitRelease .. | .replyArrival .. | .stealRequestArrival ..
  | .stealAnswerArrival .. | .waitcWake .. | .sleepExpiry .. | .pubwaitWake .. | .fenceComplete .. | .loadReturn ..
  | .preemptionRequest .. | .maskoverTimeout .. | .counterUpdate .. | .postedAtomicPerform ..
  | .clusterPartialEvict .. | .diePartialEvict .. | .zfResolution .. | .faultResolved .. | .pageMigration ..
  | .retentionEntry .. | .retentionExit .. | .leafTurn .. | .ttsRecordArrival .. | .ttsRecordIssue .. | .ttsRefill ..
  | .groupContributionArrival .. | .groupPartialArrival .. | .groupResultArrival .. | .periodicLeaseDue ..
  | .leaseStart .. | .cuppingEnd .. | .retireAnswerTimeout .. | .scoreHalving .. | .gangReservation ..
  | .gangstall .. | .gangPlacement .. | .jobMoveBack .. | .startMarker .. | .configurationCompleteWave ..
  | .removeComplete .. | .wqEntryDelivery .. | .hostRmaWrite .. | .hostRmaRead .. | .doorbell ..
  | .controlRegisterWrite .. | .install | .remove | .inval | .faultCmd | .retans | .retire | .lease | .redlv | .nertx
  | .debug | .grpdis | .grpset | .carres | .moduleReset .. | .telemetry | .firmwareUpdate .. | .leasePolicy ..
  | .retirementRecordRead .. | .retirementRecordClear .. | .getVersion | .getCapabilities | .negotiateAlgorithms
  | .getDigests | .getCertificate .. | .challenge .. | .getMeasurements .. | .thermalTrip .. | .junctionLimit ..
  | .clockGating .. | .karmosPowerOn => true
  | _ => false


/-- The events that Karmos answers while the dies are held in reset (R25, R379, R380). -/
def isSideEvent : Instr → Bool
  | .moduleReset .. | .telemetry | .firmwareUpdate .. | .leasePolicy .. | .retirementRecordRead .. | .retirementRecordClear .. | .getVersion
  | .getCapabilities | .negotiateAlgorithms | .getDigests | .getCertificate .. | .challenge .. | .getMeasurements .. | .thermalTrip ..
  | .karmosPowerOn => true
  | _ => false

/-! ## A bank issues -/

/-- Where a bank's next word is in its job's code; none past the end or below it. -/
def State.codeIndex (s : State) : Option Nat :=
  let pc := s.b.pc.toNat
  if 0x100000 ≤ pc ∧ (pc - 0x100000) / 4 < (s.jobAt s.jid).img.code.length then some ((pc - 0x100000) / 4) else none

/-- The word a bank issues next: of its job's code in handler mode; of the runtime's code in service mode, where a zero word stands for
code that is not given (log entry 5). -/
def State.fetch (s : State) : Option W32 :=
  if s.b.service then (let w := s.svcCode.get 0 (s.b.pc.toNat / 4); if w = 0 then none else some w)
  else s.codeIndex.map fun i => s.code.get 0 ((s.ck * 32768 + s.jid) * 2 ^ 16 + i)

/-- The instruction of a word; a word that names none is a reserved encoding (R35). -/
def readWord (w : W32) : Instr := (decode w.toNat).getD (.reservedEncoding w)

/-- The instructions that the count of a masked window never refuses (R164). -/
def closesWindow : Instr → Bool
  | .unmasku | .endh | .aborth _ => true
  | _ => false

/-- Whether an instruction of the executing bank took a trap: the bank stands at the trap vector, TEPC at the instruction. -/
def State.trapped (s t : State) : Bool := t.b.service && t.b.tepc == s.b.pc &&& ~~~3#64 && t.b.pc == s.b.tvec &&& ~~~3#64

/-- The instructions that may leave the whole of their bank as it is and yet have executed: those that set the pc. -/
def setsPc : Instr → Bool
  | .jal .. | .jalr .. | .beq .. | .bne .. | .blt .. | .bge .. | .bltu .. | .bgeu .. | .tret => true
  | _ => false

/-- Whether an instruction of the executing bank did not issue: its bank is as it was. -/
def State.stays (s t : State) (i : Instr) : Bool := t.bankAt s.cur == s.b && !setsPc i

/-- An instruction runs in an open masked window (R164, R172): it is counted, unless decoding refuses it (R35), it does not issue yet, or it traps,
which leaves nothing changed (R338). Past the count MASKOVER is taken in its place, in service mode after it (R338). -/
def State.runMasked (s : State) (i : Instr) : Out :=
  match exec i s with
  | .next t =>
    if t.b == (illegal s i).b ∨ s.stays t i then .next t
    else if s.b.maskLeft ≠ 0 then if s.trapped t then .next t else exec i (s.modB fun b => { b with maskLeft := b.maskLeft - 1 })
    else if closesWindow i then .next t
    else if s.b.service then exec i (s.modB fun b => { b.closeWindow with maskDue := 1 })
    else .next (s.trap 9 1)
  | o => o

def State.runInstr (s : State) (i : Instr) : Out := if s.b.maskOn then s.runMasked i else exec i s

/-- The access that the executing bank has to reissue before its next instruction, in handler mode (R350, R353). -/
def State.redo (s : State) : Option Redo := if s.b.service then none else s.b.redo

/-- An access reissued: made anew as its instruction made it; nothing of the activation issues before it is complete (R353). A trap is that of its
instruction, which stands before the next (log entry 49). -/
def State.reissue (s : State) (r : Redo) : Out :=
  let reg : Reg := Fin.ofNat 32 r.reg
  let n := 2 ^ (r.size % 8)
  match (if r.kind = 1 then s.load true reg (w64 r.va) n (decide (r.size < 8)) else s.write true (w64 r.va) n (s.b.getX reg).toNat (s.b.poisX reg) reg) with
  | .ok t _ => .next (t.modB fun b => { b with redo := none })
  | .trap t c v => .next ((t.modB Bank.unRedo).trap c v)
  | q => finish q

/-- The word at the pc runs, or the runtime acts in service mode; a fetch past the code is refused (R79, R118). -/
def State.issueWord (s : State) : Out :=
  match s.redo with
  | some r => s.reissue r
  | none =>
    match s.fetch with
    | some w => s.runInstr (readWord w)
    | none => if s.b.service then s.runtimeAct else .next (s.trap 4 s.b.pc)

/-- Whether 1,024 cycles have passed in an open masked window (R164). -/
def State.windowDue (s : State) : Bool := s.b.maskOn && decide (s.b.maskStart + 1024 ≤ s.cycles)

/-- In service mode the bound of 1,024 cycles closes the window at once (R338). -/
def State.shutWindow (s : State) : State :=
  if s.windowDue && s.b.service then s.modB fun b => { b.closeWindow with maskDue := 2 } else s

/-- The trap that stands before the next instruction, at an instruction boundary of handler mode: MASKOVER (R164, R338), then a pre-emption
outside any masked window (R348). -/
def State.boundary (s : State) : Option State :=
  if s.b.service then none
  else if s.windowDue then some ((s.modB Bank.unRedo).trap 9 2)
  else if s.b.maskDue ≠ 0 then some ((s.modB Bank.unRedo).trap 9 (w64 s.b.maskDue))
  else if s.b.maskOn then none
  else s.b.preempt.map s.takePreempt

/-! ### Which bank issues (R79, R164) -/

/-- A field of five bits of a word. -/
def field5 (w : W32) (i : Nat) : Nat := w.toNat / 2 ^ i % 32

/-- The fields of a word that may name scalar registers, by opcode (R26, R31, R34). -/
def scalarFields (w : W32) : List Nat :=
  let rd := field5 w 7; let rs1 := field5 w 15; let rs2 := field5 w 20
  match w.toNat % 128 with
  | 0x37 | 0x17 | 0x6F => [rd]
  | 0x67 | 0x03 | 0x13 | 0x1B => [rd, rs1]
  | 0x63 | 0x23 => [rs1, rs2]
  | 0x33 | 0x3B | 0x2F | 0x0B | 0x2B | 0x5B => [rd, rs1, rs2]
  | 0x73 => if w.toNat / 2 ^ 14 % 2 = 0 then [rd, rs1] else [rd]
  | 0x57 => let v := VWord.ofNat w.toNat; [v.xh * 16 + v.vs2, v.xh * 16 + v.vs1] ++ (if v.f6 = 0x13 ∧ v.form = 0 then [v.xh * 16 + v.vd] else [])
  | _ => []

/-- Whether a word may use vector register `r`; SENDV and REPLY use every one from vs2 on (R26, R31, R34, R195, R196). -/
def usesVector (w : W32) (r : Nat) : Bool :=
  match w.toNat % 128 with
  | 0x57 => let v := VWord.ofNat w.toNat; r == v.vd || r == v.vs1 || r == v.vs2
  | 0x7B => r == field5 w 7 || r == field5 w 15 || r == field5 w 20
  | 0x0B => w.toNat / 2 ^ 12 % 8 == 2 && decide (field5 w 20 ≤ r)
  | 0x2B => r == field5 w 7 || r == field5 w 15 || r == field5 w 20
  | _ => false

/-- Whether the next word of a bank waits for a load: it names a register that a load is to fill, x1 to x7 being those of the mode that issued it, or it
follows an acquire, one of handler mode holding back no word of service mode (R79, R142, R338). -/
def Bank.awaits (b : Bank) (w : W32) : Bool :=
  b.loads.any fun o => (o.acq && (o.svc || !b.service)) || match o.dest with
    | .x r _ => r != 0 && (decide (8 ≤ r) || o.svc == b.service) && (scalarFields w).contains r
    | .v r _ _ => usesVector w r
    | .pay _ => false

/-- Whether a bank is a candidate for issue, but for what its instruction finds when it issues: it runs, no latency or unit holds it, and no operand of
its next word is owed by a load (R79; log entry 16). -/
def State.ready (s : State) (bk : Nat) : Bool :=
  let b := s.bankAt bk
  b.st == .running && !(s.coreAt (coreOf bk)).busy.has (bankNo bk) && !(s.clusterAt (ckOf bk)).gated &&
    match ({ s with cur := bk }).fetch with | some w => !b.awaits w | none => true

/-- The instruction that a bank issues next; before a reissue none that sets the pc. -/
def State.nextInstr (s : State) : Instr :=
  match s.redo, s.fetch with
  | none, some w => readWord w
  | _, _ => .xfence

/-- Whether a bank would issue its next instruction: a candidate whose instruction finds its unit free, with no trap before it. -/
def State.wouldIssue (s : State) (bk : Nat) : Bool :=
  let s := { s with cur := bk }
  s.ready bk && s.boundary.isNone && match s.issueWord with | .next t => !s.stays t s.nextInstr | _ => true

/-- The normal banks in the order in which they are asked (R79). -/
def Core.turns (c : Core) : List Nat := [1, 2, 3, 4].map fun i => (c.last + i) % 4

/-- Whether it is a bank's turn in this cycle (R79, R164): bank 4 before the normal banks, among those the ones with an open window before the others, then
in rotation. -/
def State.turn (s : State) (bk : Nat) : Bool :=
  let k0 := coreOf bk * 5
  let c := s.coreAt (coreOf bk)
  let rivals := c.turns.filter fun k => k == bankNo bk || s.wouldIssue (k0 + k)
  let masked := rivals.filter fun k => (s.bankAt (k0 + k)).maskOn
  decide (c.next ≤ s.cycles) && s.ready bk &&
    (bankNo bk == 4 || (!s.wouldIssue (k0 + 4) && (if masked = [] then rivals else masked).head? == some (bankNo bk)))

/-- A core that has issued for a bank issues no more in this cycle. -/
def State.issued (s : State) (bk : Nat) : State :=
  let c := s.coreAt (coreOf bk)
  s.putCore (coreOf bk) { c with next := s.cycles + 1, last := if bankNo bk = 4 then c.last else bankNo bk }

/-- Bank `bk` issues its next instruction in its turn, or takes the trap that stands before it; a bank that does not run, and one whose cluster gates
its clock, does nothing. -/
def State.issue (s : State) (bk : Nat) : Out :=
  let s := { s with cur := bk }
  if s.b.st ≠ .running ∨ (s.clusterAt s.ck).gated then .next s
  else
    let s := s.shutWindow
    match s.boundary with
    | some t => .next t
    | none =>
      if s.turn bk = false then .next s
      else match s.issueWord with
        | .next t => .next (if s.stays t s.nextInstr then s else t.issued bk)
        | o => o

/-- A latency or an occupied unit holds a bank's next word, or no longer does (R79, R103; log entry 16). -/
def State.setBusy (s : State) (bk : Nat) (on : Bool) : State :=
  let c := s.coreAt (coreOf bk)
  s.putCore (coreOf bk) { c with busy := if on then c.busy.add (bankNo bk) else c.busy.del (bankNo bk) }

/-! ## An engine moves -/

/-- Whether a free unit of a class may start the next command (R225); the NE carries 256 messages (R329). -/
def State.mayStart (s : State) (ck cls : Nat) : Bool := cls != 5 || decide (s.neFlying (dieOf ck) < 256)

/-- Engine `cls` of a cluster starts a command on a free unit, or takes a step of the one that runs: the instruction that its words
encode. A withdrawn or retired engine, and one whose cluster gates its clock, does nothing. -/
def State.engineMove (s : State) (ck cls u : Nat) : Out :=
  let s := { s with cmd := ⟨ck, cls, u % unitsOf cls, u / unitsOf cls⟩ }
  if s.engGone ck cls ∨ s.engHeld ck cls ∨ (s.clusterAt ck).gated then .next s
  else match s.run? with
    | none => .next (if s.mayStart ck cls then s.startCmd ck cls s.cmd.unit else s)
    | some r =>
      match tcwInstr r.cmd.w0 r.cmd.w1 r.cmd.w2 r.cmd.w3 (s.dimsOf ck r.cmd.w0) with
      | some i => exec i s
      | none => .next (s.endRun 3)

/-! ## Time and nature -/

/-- The cycles that pass in a cluster that gates its clock (R101). -/
def State.elapseGated (s : State) (n : Nat) : State :=
  { s with clusters := (List.range 192).foldl (fun m ck =>
      let c := m.get Cluster.init ck
      if c.gated then m.set Cluster.init ck { c with lost := c.lost + n } else m) s.clusters }

/-- The cycles that a core slowed by its junction leaves out, as many as it likes (R101, R380). -/
def State.elapseSlow (s : State) (n u : Nat) : State :=
  let core := ((u / 2 ^ 26 % 4) * 64 + u / 2 ^ 20 % 64) * 16 + u % 2 ^ 20
  let c := s.coreAt core
  if (s.clusterAt (core / 16)).gated then s
  else { s.putCore core { c with lost := c.lost + Config.clockLost s.freeN % (n + 1) } with freeN := s.freeN + 1 }

/-- The 64 cycles of quiescence stand still while a fabric region is withdrawn under lease (R286, R289). -/
def State.elapseHeld (s : State) (n : Nat) : State :=
  { s with clusters := s.clusters.map fun e =>
      if s.engHeld e.1 2 then (e.1, { e.2 with fr := { e.2.fr with run := e.2.fr.run.map fun x => { x with quiet := x.quiet.map fun q => q + n } } }) else e }

/-- n cycles pass. -/
def State.elapse (s : State) (n : Nat) : State :=
  ((s.units.filter fun e => e.2.slowed && e.1 / 2 ^ 28 == 1).map Prod.fst).foldl (fun s u => s.elapseSlow n u)
    (({ s with cycles := s.cycles + n }.elapseGated n).elapseHeld n)

/-- Whether a place is storage: T1, T2 or a scratchpad. -/
def isStorage (loc : Nat) : Bool := inT1 loc || inT2 loc || decide (2 ^ 52 ≤ loc ∧ loc < 2 ^ 52 + 192 * 2 ^ 22)

/-- An error beyond what the code corrects poisons its granule (R120, R124). -/
def State.eccBad (s : State) (loc : Nat) : State :=
  if isStorage loc then { s with pois := s.pois.add (granule loc) } else s

/-- A corrected ECC error is charged to its bank, channel or link (R360). -/
def State.eccFixed (s : State) (u : W32) : State :=
  if unitValid u.toNat ∧ 6 ≤ kindOf u.toNat ∧ kindOf u.toNat ≤ 8 ∨ unitValid u.toNat ∧ kindOf u.toNat = 5 then s.charge u.toNat 1 else s

/-- A packet between NEs fails its check, which the NE that drops it counts (R329, R333). -/
def State.lose (s : State) (k : Nat) : State :=
  match s.flight[k]? with
  | some (.pkt die p pk seen) => if seen = 0 then { s with flight := s.flight.set k (Flight.pkt die { p with good := false } pk seen) } else s
  | some (.ack die _) => { s with flight := s.flight.eraseIdx k }.neStat die 0x40
  | some (.readReq die _) => { s with flight := s.flight.eraseIdx k }.neStat die 0x40
  | _ => s

/-! ## A move, and what falls due after it -/

/-- What falls due by itself: accesses that a stall held (R300, R358), pages to resolve (R115), units that retire or are due (R356, R360), events
that wait for space (R377). -/
def State.settle (s : State) : State := s.drain.decideFaults.settleUnits.settleEvents

/-- What a move does. While the dies are held in reset only Karmos answers, and time passes. -/
def State.moveRaw (s : State) : Move → Out
  | .issue bk => if s.karmos.diesHeld ∨ 15360 ≤ bk then .next s else s.issue bk
  | .engine ck cls u => if s.karmos.diesHeld ∨ 192 ≤ ck ∨ 6 ≤ cls then .next s else s.engineMove ck cls u
  | .event i => if (if s.karmos.diesHeld then isSideEvent i else isEvent i) then exec i s else .next s
  | .hold bk => .next (if 15360 ≤ bk then s else s.setBusy bk true)
  | .ready bk => .next (if 15360 ≤ bk then s else s.setBusy bk false)
  | .elapse n => .next (s.elapse n)
  | .mishap m => .next { s with mishap := m }
  | .eccBad loc => .next (s.eccBad loc)
  | .eccFixed u => .next (s.eccFixed u)
  | .lose k => .next (s.lose k)

/-- A move, and what falls due after it. -/
def State.move (s : State) (m : Move) : Out :=
  match s.moveRaw m with
  | .next t => .next t.settle
  | o => o

/-- The move that comes next: the first of the agenda, else a free one (log entry 3). -/
def State.takeMove (s : State) : Move × State :=
  match s.agenda with
  | m :: t => (m, { s with agenda := t })
  | [] => (Config.freeMove s.freeN, { s with freeN := s.freeN + 1 })

/-! ## A word placed where the next step issues it -/

/-- Word `w` as the first of the code of bank 0's job, the bank running at it in handler mode, alone a candidate, and its issue as the next move. -/
def State.placeWord (s : State) (w : W32) : State :=
  let b := s.bankAt 0
  let j := s.jobAt b.job
  let s := s.putJob b.job { j with img := { j.img with code := w :: j.img.code.drop 1 } }
  let s := s.putBank 0 { b with
    st := .running, wait := .none, service := false, pc := 0x100000, preempt := none, maskOn := false, maskDue := 0, loads := [], redo := none }
  let s := s.putCore 0 { s.coreAt 0 with next := 0, busy := [1, 2, 3, 4] }
  { s with code := s.code.set 0 (b.job * 2 ^ 16) w, agenda := [.issue 0],
           karmos := { s.karmos with diesHeld := false },
           clusters := s.clusters.set Cluster.init 0 { s.clusterAt 0 with gated := false } }

end Sys2Proof.Machine
end

