-- ==== Sys2Proof/Machine/Step.lean ====
section
/-! DEFINITION. The step of the machine: the next move is taken from the agenda, or is free, and is made (log entry 3). -/

namespace Sys2Proof.Machine

/-- One step. -/
def step (s : State) : Host.Outcome State Fault Refusal := (s.takeMove).2.move (s.takeMove).1

/-- The state in which the next step issues the instruction of word `w`: bank 0 runs a handler of job 0 at the start of its code, whose
first word is `w`. It stands for the load of a program by the host (log entry 3). -/
def State.withFetchWord (s : State) (_nbits w : Nat) : State := s.placeWord (BitVec.ofNat 32 w)

end Sys2Proof.Machine
end

