-- ==== Sys2Proof/Safety.lean ====
section
/-! DEFINITION. The terms that the statements speak in: how an instruction ends, what it leaves as it was, and the invariants. -/

namespace Sys2Proof.Machine

/-! ## Ends and frames -/

/-- The instruction answers a next state, and `P` holds of it. -/
def Ends (i : Instr) (s : State) (P : State → Prop) : Prop := ∃ t, exec i s = .next t ∧ P t

/-- Every byte of memory reads as before. -/
def SameMem (s t : State) : Prop := ∀ loc, t.byteAt loc = s.byteAt loc

/-- Nothing is different but the bank that executes. -/
def OnlyBank (s t : State) : Prop := { t with banks := s.banks } = s ∧ ∀ k, k ≠ s.cur → t.bankAt k = s.bankAt k

/-- Of a bank nothing is different but X(rd), its poison, and the pc. -/
def OnlyX (rd : Reg) (b c : Bank) : Prop :=
  { c with x := b.x, xp := b.xp, pc := b.pc } = b ∧ ∀ r, r ≠ rd → c.getX r = b.getX r ∧ c.poisX r = b.poisX r

/-- X(rd) holds `v` with poison `p`; x0 still reads zero, clean (R5). -/
def HoldsX (rd : Reg) (v : W64) (p : Bool) (b : Bank) : Prop := b.getX rd = (if rd = 0 then 0 else v) ∧ b.poisX rd = (rd != 0 && p)

/-- X(rd) takes `v` with poison `p`, the pc takes `pc`, and nothing else is different. -/
def WritesX (rd : Reg) (v : W64) (p : Bool) (pc : W64) (s t : State) : Prop :=
  OnlyBank s t ∧ SameMem s t ∧ OnlyX rd s.b t.b ∧ HoldsX rd v p t.b ∧ t.b.pc = pc

/-- The pc takes `pc`, and nothing else is different. -/
def WritesPc (pc : W64) (s t : State) : Prop := OnlyBank s t ∧ SameMem s t ∧ { t.b with pc := s.b.pc } = s.b ∧ t.b.pc = pc

/-- Of a bank nothing is different but its scalar registers, their poison, the service registers, the pc, the mode, the masked window, the
trap CSRs, and that it runs. -/
def OnlyTrap (b c : Bank) : Prop :=
  { c with x := b.x, xp := b.xp, svc := b.svc, svcp := b.svcp, pc := b.pc, service := b.service, tcause := b.tcause, tval := b.tval, tepc := b.tepc,
           tstat := b.tstat, st := b.st, wait := b.wait, maskOn := b.maskOn, maskLeft := b.maskLeft, maskDue := b.maskDue } = b

/-- The executing bank has taken a trap (R338), and nothing else is different: cause, value, saved pc and mode, the entry address, and the
registers x1 to x7 in exchange for the service registers unless the bank was in service mode. -/
def TakesTrap (cause : Nat) (tval : W64) (s t : State) : Prop :=
  OnlyBank s t ∧ SameMem s t ∧ OnlyTrap s.b t.b ∧ t.b.service = true ∧ t.b.tcause = w64 cause ∧ t.b.tval = tval ∧ t.b.tepc = s.b.pc &&& ~~~3#64 ∧
    t.b.pc = s.b.tvec &&& ~~~3#64 ∧ t.b.st = .running ∧ fld t.b.tstat 0 1 = s.b.service.toNat ∧ fld t.b.tstat 1 1 = (bankNo s.cur == 4).toNat ∧
    fld t.b.tstat 2 3 = bankNo s.cur ∧ fld t.b.tstat 5 59 = (s.b.maskOn || cause == 9).toNat ∧
    (cause ≠ 9 → t.b.maskOn = s.b.maskOn ∧ t.b.maskLeft = s.b.maskLeft ∧ t.b.maskDue = s.b.maskDue) ∧
    (cause = 9 → t.b.maskOn = false) ∧
    ∀ r : Reg, r ≠ 0 → t.b.getX r = (if s.b.service = false ∧ r.val < 8 then s.b.svc.get 0 r else s.b.getX r) ∧
      t.b.poisX r = (if s.b.service = false ∧ r.val < 8 then s.b.svcp.get false r else s.b.poisX r)

/-- Nothing is different but banks, translation caches, what banks of scratchpad note of accesses, memory with its check banks and the copies of it that
loads may still be given, and which free value comes next. -/
def OnlyAccess (s t : State) : Prop :=
  { t with banks := s.banks, tlb := s.tlb, clusters := s.clusters, mem := s.mem, check := s.check, pois := s.pois, comm := s.comm, stale := s.stale,
           freeN := s.freeN } = s ∧
    (∀ k, k ≠ s.cur → t.bankAt k = s.bankAt k) ∧
    ∀ ck, { t.clusterAt ck with lastAcc := (s.clusterAt ck).lastAcc, entering := (s.clusterAt ck).entering } = s.clusterAt ck

/-- Every byte outside the n bytes at a place reads as before. -/
def SameMemBut (loc n : Nat) (s t : State) : Prop := ∀ a, a < loc ∨ loc + n ≤ a → t.byteAt a = s.byteAt a

/-- A load of n bytes at a place that its address gives has its data: X(rd), its poison, CHKI.PSN with ORIGIN 9 when it is poisoned (R81, R82,
R120). `u` is the state after translation with the line of the place merged (R132). -/
def Loads (rd : Reg) (loc n : Nat) (sx : Bool) (u s t : State) : Prop :=
  let v := u.numAt loc n
  let p := u.poisAt loc n
  OnlyAccess s t ∧ SameMem u t ∧ OnlyX rd s.b { t.b with chki := s.b.chki } ∧ t.b.pc = s.b.pc + 4 ∧
    HoldsX rd (.ofInt 64 (if sx then (v : Int).bmod (2 ^ (8 * n)) else v)) p t.b ∧
    t.b.chki = (if p then (if s.b.chki &&& 3 = 0 then 0x901 else s.b.chki ||| 1) else s.b.chki)

/-- n bytes of `v` are stored at a place, little-endian, with the poison rules of R120; nothing else in memory, and of the bank only the pc, is
different. -/
def Stores (loc n v : Nat) (p : Bool) (u s t : State) : Prop :=
  OnlyAccess s t ∧ { t.b with pc := s.b.pc } = s.b ∧ t.b.pc = s.b.pc + 4 ∧ (∀ k, k < n → (t.byteAt (loc + k)).toNat = v / 2 ^ (8 * k) % 256) ∧
    SameMemBut loc n u t ∧
    ∀ g, t.pois.has g = (if p then u.pois.has g || (List.range n).any (fun k => granule (loc + k) == g)
      else u.pois.has g && !(List.range n).any fun k => granule (loc + k) == g && decide (loc ≤ g ∧ g + granSize (loc + k) ≤ loc + n))

/-- Nothing is different but one bank. -/
def OnlyBankAt (bk : Nat) (s t : State) : Prop := { t with banks := s.banks } = s ∧ ∀ k, k ≠ bk → t.bankAt k = s.bankAt k

/-- Nothing is different but the executing bank and the deque of its core. -/
def OnlyDeque (s t : State) : Prop :=
  { t with banks := s.banks, cores := s.cores } = s ∧ (∀ k, k ≠ s.cur → t.bankAt k = s.bankAt k) ∧
    ∀ k, { t.coreAt k with dq := (s.coreAt k).dq } = s.coreAt k ∧ (k ≠ coreOf s.cur → t.coreAt k = s.coreAt k)

/-- X(rd) takes `v`, clean, the pc advances, the deque of the core takes `q`, and nothing else is different. -/
def DequeDone (rd : Reg) (v : W64) (q : List Range) (s t : State) : Prop :=
  OnlyDeque s t ∧ SameMem s t ∧ OnlyX rd s.b t.b ∧ HoldsX rd v false t.b ∧ t.b.pc = s.b.pc + 4 ∧ (t.coreAt (coreOf s.cur)).dq = q

/-- The executing bank waits: nothing else is different (R158). -/
def Waits (w : Wait) (s t : State) : Prop :=
  OnlyBank s t ∧ SameMem s t ∧ t.b = { s.b with st := .waiting, wait := w, since := s.cycles }

/-- An SQFULL trap is taken, and SQTRAPS counts it (R130, R183, R195). -/
def SqFull (tval : W64) (s t : State) : Prop :=
  OnlyBank s t ∧ SameMem s t ∧ t.b.service = true ∧ t.b.tcause = 6 ∧ t.b.tval = tval ∧ t.b.tepc = s.b.pc &&& ~~~3#64 ∧ t.b.buf = s.b.buf ∧
    t.b.slots = s.b.slots ∧ t.b.sqtraps.toNat = min (s.b.sqtraps.toNat + 1) 0xFFFF

/-- The handle names a destination that the sender may use, on its own module (R195). -/
def HandleOk (s : State) (h : W64) : Prop :=
  fld h 63 1 = 0 ∧ fld h 56 1 = 0 ∧ fld h 57 6 ≤ 32 ∧ fld h 0 16 = s.modid.toNat ∧ fld h 28 15 = s.jid ∧ s.inPlace s.jid (fld h 16 2) (fld h 18 6) = true ∧
    fld h 43 12 ≠ 0xFFF ∧ ((s.jobAt s.jid).handler (fld h 43 12)).isSome = true

/-- The unit that a buffered effect puts in flight at ENDH, where it goes to the own module (R162). -/
def unitOfEffect (s : State) (e : Buffered) : Flight :=
  let core := e.sq.getD (coreOf s.cur)
  match e.eff with
  | .send m _ => .msg core (fld m.h0 16 2 * 64 + fld m.h0 18 6) s.actKey m
  | .cnt ck job c op => .cnt core ck s.actKey job c op
  | .atomic p => .atomic core s.ck p none
  | .record ck words => .record core ck s.actKey s.b.job words
  | .contrib g vals pois => .contrib s.ck s.actKey ⟨s.b.job, g, s.cur, vals, pois⟩

/-- Whether a message names the own module. -/
def State.isLocal (s : State) (m : Msg) : Bool := fld m.h0 0 16 == s.modid.toNat

/-- The destination of a base arithmetic, logical, shift, compare or multiply-divide instruction (R82). -/
def aluDest : Instr → Option Reg
  | .lui rd _ | .auipc rd _ | .addi rd _ _ | .slti rd _ _ | .sltiu rd _ _ | .xori rd _ _ | .ori rd _ _ | .andi rd _ _ | .slli rd _ _
  | .srli rd _ _ | .srai rd _ _ | .add rd _ _ | .sub rd _ _ | .sll rd _ _ | .slt rd _ _ | .sltu rd _ _ | .xor rd _ _ | .srl rd _ _
  | .sra rd _ _ | .or_ rd _ _ | .and_ rd _ _ | .mul rd _ _ | .mulh rd _ _ | .mulhsu rd _ _ | .mulhu rd _ _ | .div rd _ _ | .divu rd _ _
  | .rem rd _ _ | .remu rd _ _ | .addiw rd _ _ | .slliw rd _ _ | .srliw rd _ _ | .sraiw rd _ _ | .addw rd _ _ | .subw rd _ _ | .sllw rd _ _
  | .srlw rd _ _ | .sraw rd _ _ | .mulw rd _ _ | .divw rd _ _ | .divuw rd _ _ | .remw rd _ _ | .remuw rd _ _ => some rd
  | _ => none

/-- Of a bank nothing is different but its scalar registers, the pc and the CSRs that a CSR instruction writes. -/
def OnlyCsrs (b c : Bank) : Prop :=
  { c with x := b.x, xp := b.xp, pc := b.pc, chki := b.chki, aflags := b.aflags, rndm := b.rndm, vcfg := b.vcfg, lglen := b.lglen, lgact := b.lgact,
           sqtraps := b.sqtraps, vstr := b.vstr, tcause := b.tcause, tval := b.tval, tepc := b.tepc, tstat := b.tstat, tvec := b.tvec } = b

/-- What CSR `a` holds in `t` after `new` is written to it in `s`; `m` names the write-one-to-clear bits that the write clears (R67, R68, R89,
R92 to R97, R102). A CSR whose fields are read-only keeps its value. -/
def CsrTakes (a : Nat) (new m : W64) (s t : State) : Prop :=
  (a = 0x800 → t.b.chki = (if s.b.chki &&& ~~~(m &&& 3) &&& 3 = 0 then 0 else s.b.chki &&& ~~~(m &&& 3))) ∧
  (a = 0x801 → t.b.aflags = new &&& 0xFF) ∧
  (a = 0x802 → t.b.rndm = (if new.toNat % 8 ≤ 4 then new &&& 7 else s.b.rndm)) ∧
  (a = 0x803 → t.b.vcfg = (if vcfgOk new then new &&& 0xEF else (s.b.vcfg &&& 0xCF) ||| (new &&& 0x20))) ∧
  (a = 0x804 → t.b.lglen = new) ∧
  (a = 0x805 → t.b.lgact = (new &&& 0xF) ||| (s.b.lgact &&& ~~~m &&& 0xF0)) ∧
  (a = 0x806 → t.b.sqtraps.toNat = new.toNat / 2 ^ 48 % 2 ^ 16) ∧
  (a = 0x807 → (t.coreAt (coreOf s.cur)).taken.toNat = new.toNat / 2 ^ 24 % 2 ^ 16 ∧ (t.coreAt (coreOf s.cur)).given.toNat = new.toNat / 2 ^ 8 % 2 ^ 16 ∧
    (t.coreAt (coreOf s.cur)).dq = (s.coreAt (coreOf s.cur)).dq) ∧
  (a = 0x808 → t.b.maskw = s.b.maskw) ∧
  (a = 0x809 → t.b.vstr = new &&& 0xFFFFFFFF) ∧
  (a = 0x5C0 → t.b.tcause = new &&& 0xFF) ∧ (a = 0x5C1 → t.b.tval = new) ∧ (a = 0x5C2 → t.b.tepc = new &&& ~~~3#64) ∧
  (a = 0x5C3 → t.b.tstat = (s.b.tstat &&& 0x1E) ||| (new &&& 0x21)) ∧ (a = 0x5C4 → t.b.tvec = new &&& ~~~3#64) ∧
  (∀ k, k ≠ a → k ≠ 0x806 → t.csr k = s.csr k) ∧ (a ≠ 0x806 → t.b.sqtraps = s.b.sqtraps)

/-! ## Vectors -/

/-- Of a bank nothing is different but V(vd) and its poison, AFLAGS, CHKI, the cursor of vin and the pc; register 15 is no register (R34). -/
def OnlyV (vd : Nat) (b c : Bank) : Prop :=
  { c with v := b.v, vp := b.vp, aflags := b.aflags, chki := b.chki, cursor := b.cursor, pc := b.pc } = b ∧
    ∀ k, k ≠ vd ∨ k = 15 → c.getV k = b.getV k ∧ c.poisV k = b.poisV k

/-- The elements of w bits that `el` gives are written to V(vd) with their flags and poison, and the others stay (R68, R200); `b` is the bank
after the sources have been read: vin popped where a source is 15 (R180). -/
def Elements (vd : VReg) (w : Nat) (el : Nat → Option El) (b c : Bank) : Prop :=
  OnlyV vd b c ∧ c.pc = b.pc + 4 ∧ c.cursor = b.cursor ∧ c.chki = b.chki ∧
    (∀ k, c.aflags.getLsbD k = (b.aflags.getLsbD k || (List.range (256 / w)).any fun j => match el j with | some x => x.fl.getLsbD k | none => false)) ∧
    (vd ≠ 15 → ∀ j, j < 256 / w → elem (c.getV vd) w j = match el j with | some x => x.bits % 2 ^ w | none => elem (b.getV vd) w j) ∧
    (vd ≠ 15 → ∀ i, i < 8 → let ws := (List.range (32 / w)).map fun k => el (32 / w * i + k)
      (c.poisV vd).getLsbD i = (((b.poisV vd).getLsbD i && ws.any Option.isNone) || ws.any fun e => match e with | some x => x.p | none => false))

/-- Elements are written, and nothing else is different. -/
def Lanes (vd : VReg) (w : Nat) (el : Nat → Option El) (b : Bank) (s t : State) : Prop := OnlyBank s t ∧ SameMem s t ∧ Elements vd w el b t.b

/-- All of V(vd) is written as eight words. -/
def Words (vd : VReg) (word : Nat → Nat × Bool) (fl : Flags) (b : Bank) (s t : State) : Prop :=
  Lanes vd 32 (fun i => some ⟨(word i).1, if i = 0 then fl else 0, (word i).2⟩) b s t

/-! ## Places without obstacles -/

/-- No line is in commutative state, no access waits, and no copy of overwritten bytes is left. -/
def State.Calm (s : State) : Prop := s.comm = [] ∧ s.stale = [] ∧ s.pend = [] ∧ ∀ a n, s.stalled a n = false

/-- A load of the executing activation of n bytes at a place is performed when it issues (R121, R122), and there is one answer to it: no asynchronous write
has left copies (R146). -/
def State.Prompt (s : State) (loc n : Nat) : Prop := s.stalled loc n = false ∧ s.full n [loc] = false ∧ s.staleFor s.actKey loc n = []

/-- The n bytes at `va`, none of them in a shadow region, lie in the scratchpad run of a job on a cluster, at `loc` (R105). -/
def State.Window (s : State) (ck job va n loc : Nat) : Prop :=
  ∃ r, s.runOf ck job = some r ∧ ck < 192 ∧ r.seg + r.n ≤ 64 ∧ 0x400000 ≤ va ∧ va - 0x400000 + n ≤ r.n * 65536 ∧
    loc = 2 ^ 52 + ck * 2 ^ 22 + r.seg * 65536 + (va - 0x400000) ∧ ∀ a, va ≤ a → a < va + n → regionAt (s.jobAt job).regions a = none

/-- Nothing is different but one unit. -/
def OnlyUnit (u : Nat) (s t : State) : Prop := { t with units := s.units } = s ∧ ∀ v, v ≠ u → t.unitAt v = s.unitAt v

/-! ## Commands of engines -/

/-- No counter that the running command names posts a message when it fires, so that its update writes to no carafe (R189, R193). -/
def RunCmd.Quiet (r : RunCmd) (s : State) : Prop :=
  ∀ ck, (s.counterAt (cntKey ck r.cmd.job (tcwCtr r.cmd.w0))).armed = false ∨ (s.counterAt (cntKey ck r.cmd.job (tcwCtr r.cmd.w0))).act &&& 1 = 0

/-- The running command has ended without error: its unit is free, and the status holds its tag (R36, R226, R238). -/
def Completed (r : RunCmd) (s t : State) : Prop := t.run? = none ∧ ((t.engAt s.cmd.ck s.cmd.cls).statOf s.cmd.unit).tag = BitVec.ofNat 16 (tcwTag r.cmd.w0)

/-- The running command has ended with an execution error (R226). -/
def Failed (code : Nat) (r : RunCmd) (s t : State) : Prop :=
  Completed r s t ∧ SameMem s t ∧ ((t.engAt s.cmd.ck s.cmd.cls).statOf s.cmd.unit).errcode = BitVec.ofNat 8 code ∧
    ((t.engAt s.cmd.ck s.cmd.cls).statOf s.cmd.unit).errtag = BitVec.ofNat 16 (tcwTag r.cmd.w0)

/-- The running command has made one more of its steps, and ends where it was the last. -/
def Proceeds (r : RunCmd) (ends : Bool) (s t : State) : Prop :=
  (ends = true → Completed r s t) ∧ (ends = false → t.run? = some { r with prog := r.prog + 1 })

/-- The counter of the running command on cluster `tgt` is incremented, where it names one that is not armed (R36, R147). -/
def CountsAt (tgt : Nat) (r : RunCmd) (s t : State) : Prop :=
  let key := cntKey tgt r.cmd.job (tcwCtr r.cmd.w0)
  tcwCv r.cmd.w0 = true → (s.counterAt key).armed = false → t.counterAt key = { s.counterAt key with count := (s.counterAt key).count + 1 }

/-- n bytes are copied with nothing else of memory changed. -/
def Copies (src dst n : Nat) (s t : State) : Prop := SameMemBut dst n s t ∧ ∀ k, k < n → t.byteAt (dst + k) = s.byteAt (src + k)

/-! ## The fabric -/

/-- An operation of the PE `pe` of cluster `ck` with its code (R275). -/
def IsPeOp (ck pe : Nat) (e : Instr × Nat) : Prop :=
  e ∈ [(.pePass ck pe, 0x00), (.peAdd ck pe, 0x01), (.peSub ck pe, 0x02), (.peMul ck pe, 0x03), (.peFma ck pe, 0x04), (.peFms ck pe, 0x05), (.peMax ck pe, 0x06),
   (.peMin ck pe, 0x07), (.peAbs ck pe, 0x08), (.peNeg ck pe, 0x09), (.peScale ck pe, 0x0A), (.peRint ck pe, 0x0B)] ++
  [(.peCmp ck pe, 0x0C), (.peSel ck pe, 0x0D), (.peCvt ck pe, 0x0E), (.peSteer ck pe, 0x0F), (.peExp2 ck pe, 0x10), (.peExp ck pe, 0x11), (.peLog2 ck pe, 0x12),
   (.peLog ck pe, 0x13), (.peRcp ck pe, 0x14), (.peRsqrt ck pe, 0x15), (.peSkip ck pe, 0x16), (.peDiv ck pe, 0x17)]

/-- A change of the run of a fabric region, after which the tokens move along their routes (R270): `P` holds of the state in between and its run. -/
def RunChanges (ck : Nat) (s t : State) (P : State → FRun → Prop) : Prop :=
  ∃ u y, t = u.frFlush ck ∧ (u.frAt ck).run = some y ∧ P u y ∧ (∀ k, k ≠ ck → u.clusterAt k = s.clusterAt k) ∧ u.jobs = s.jobs ∧ u.banks = s.banks

/-- A token enters the one destination `d`. -/
def Gives (d : Dest) (t : Token) (x y : FRun) : Prop := y.held d = x.held d ++ [t]

/-! ## Invariants -/

/-- Memory in its canonical form: addresses strictly rising, no byte listed that is what an unlisted address reads as. -/
def State.MemWf (s : State) : Prop := FMap.wf 0#8 s.mem = true

/-- A step that goes on. -/
def State.Goes (s : State) : Prop := ∃ t, step s = .next t

end Sys2Proof.Machine
end

