-- ==== Sys2Proof/Certificates/Slice0/Obligations.lean ====
section
/-! DEFINITION. The statements about the model, each a proposition under a name that says what it states. -/

open Sys2Proof Sys2Proof.Machine

/-- R82, R83: what the base instructions with an immediate give, as integers; the frame of R5 and R81. -/
def Obligations.ImmediateResults : Prop :=
  ∀ (s : State) (rd rs1 : Reg) (imm : BitVec 12) (up : BitVec 20) (sh : BitVec 6) (sw : BitVec 5), s.mishap = .none →
    let a := s.b.getX rs1
    let low : Int := a.toInt.bmod (2 ^ 32)
    let gives (i : Instr) (p : Bool) (v : Int) : Prop := Ends i s (WritesX rd (.ofInt 64 v) p (s.b.pc + 4) s)
    gives (.lui rd up) false (up.toInt * 4096) ∧
    gives (.auipc rd up) false (s.b.pc.toInt + up.toInt * 4096) ∧
    gives (.addi rd rs1 imm) (s.b.poisX rs1) (a.toInt + imm.toInt) ∧
    gives (.slti rd rs1 imm) (s.b.poisX rs1) (if a.toInt < imm.toInt then 1 else 0) ∧
    gives (.sltiu rd rs1 imm) (s.b.poisX rs1) (if (a.toNat : Int) < imm.toInt % 2 ^ 64 then 1 else 0) ∧
    gives (.xori rd rs1 imm) (s.b.poisX rs1) (a ^^^ .ofInt 64 imm.toInt).toInt ∧
    gives (.ori rd rs1 imm) (s.b.poisX rs1) (a ||| .ofInt 64 imm.toInt).toInt ∧
    gives (.andi rd rs1 imm) (s.b.poisX rs1) (a &&& .ofInt 64 imm.toInt).toInt ∧
    gives (.slli rd rs1 sh) (s.b.poisX rs1) (a.toNat * 2 ^ sh.toNat) ∧
    gives (.srli rd rs1 sh) (s.b.poisX rs1) (a.toNat / 2 ^ sh.toNat : Nat) ∧
    gives (.srai rd rs1 sh) (s.b.poisX rs1) (a.toInt / 2 ^ sh.toNat) ∧
    gives (.addiw rd rs1 imm) (s.b.poisX rs1) ((a.toInt + imm.toInt).bmod (2 ^ 32)) ∧
    gives (.slliw rd rs1 sw) (s.b.poisX rs1) ((low * 2 ^ sw.toNat).bmod (2 ^ 32)) ∧
    gives (.srliw rd rs1 sw) (s.b.poisX rs1) ((low % 2 ^ 32 / 2 ^ sw.toNat).bmod (2 ^ 32)) ∧
    gives (.sraiw rd rs1 sw) (s.b.poisX rs1) (low / 2 ^ sw.toNat)

/-- R82, R83: what the base instructions on two registers give, as integers. -/
def Obligations.RegisterResults : Prop :=
  ∀ (s : State) (rd rs1 rs2 : Reg), s.mishap = .none →
    let a := s.b.getX rs1
    let b := s.b.getX rs2
    let low : Int := a.toInt.bmod (2 ^ 32)
    let sh : Nat := b.toNat % 64
    let sw : Nat := b.toNat % 32
    let gives (i : Instr) (v : Int) : Prop := Ends i s (WritesX rd (.ofInt 64 v) (s.b.poisX rs1 || s.b.poisX rs2) (s.b.pc + 4) s)
    gives (.add rd rs1 rs2) (a.toInt + b.toInt) ∧
    gives (.sub rd rs1 rs2) (a.toInt - b.toInt) ∧
    gives (.sll rd rs1 rs2) (a.toNat * 2 ^ sh) ∧
    gives (.slt rd rs1 rs2) (if a.toInt < b.toInt then 1 else 0) ∧
    gives (.sltu rd rs1 rs2) (if a.toNat < b.toNat then 1 else 0) ∧
    gives (.xor rd rs1 rs2) (a ^^^ b).toInt ∧
    gives (.srl rd rs1 rs2) (a.toNat / 2 ^ sh : Nat) ∧
    gives (.sra rd rs1 rs2) (a.toInt / 2 ^ sh) ∧
    gives (.or_ rd rs1 rs2) (a ||| b).toInt ∧
    gives (.and_ rd rs1 rs2) (a &&& b).toInt ∧
    gives (.addw rd rs1 rs2) ((a.toInt + b.toInt).bmod (2 ^ 32)) ∧
    gives (.subw rd rs1 rs2) ((a.toInt - b.toInt).bmod (2 ^ 32)) ∧
    gives (.sllw rd rs1 rs2) ((low * 2 ^ sw).bmod (2 ^ 32)) ∧
    gives (.srlw rd rs1 rs2) ((low % 2 ^ 32 / 2 ^ sw).bmod (2 ^ 32)) ∧
    gives (.sraw rd rs1 rs2) (low / 2 ^ sw)

/-- R82, R84: products, quotients and remainders as integers, a zero divisor among them. -/
def Obligations.MultiplyDivideResults : Prop :=
  ∀ (s : State) (rd rs1 rs2 : Reg), s.mishap = .none →
    let a : Int := (s.b.getX rs1).toInt
    let b : Int := (s.b.getX rs2).toInt
    let au : Nat := (s.b.getX rs1).toNat
    let bu : Nat := (s.b.getX rs2).toNat
    let aw : Int := a.bmod (2 ^ 32)
    let bw : Int := b.bmod (2 ^ 32)
    let awu : Nat := au % 2 ^ 32
    let bwu : Nat := bu % 2 ^ 32
    let gives (i : Instr) (v : Int) : Prop := Ends i s (WritesX rd (.ofInt 64 v) (s.b.poisX rs1 || s.b.poisX rs2) (s.b.pc + 4) s)
    gives (.mul rd rs1 rs2) (a * b) ∧
    gives (.mulh rd rs1 rs2) (a * b / 2 ^ 64) ∧
    gives (.mulhsu rd rs1 rs2) (a * bu / 2 ^ 64) ∧
    gives (.mulhu rd rs1 rs2) (au * bu / 2 ^ 64) ∧
    gives (.div rd rs1 rs2) (if b = 0 then -1 else a.tdiv b) ∧
    gives (.divu rd rs1 rs2) (if bu = 0 then 2 ^ 64 - 1 else au / bu) ∧
    gives (.rem rd rs1 rs2) (if b = 0 then a else a.tmod b) ∧
    gives (.remu rd rs1 rs2) (if bu = 0 then au else au % bu) ∧
    gives (.mulw rd rs1 rs2) ((a * b).bmod (2 ^ 32)) ∧
    gives (.divw rd rs1 rs2) (if bw = 0 then -1 else (aw.tdiv bw).bmod (2 ^ 32)) ∧
    gives (.divuw rd rs1 rs2) (if bwu = 0 then -1 else (awu / bwu : Int).bmod (2 ^ 32)) ∧
    gives (.remw rd rs1 rs2) (if bw = 0 then aw else aw.tmod bw) ∧
    gives (.remuw rd rs1 rs2) (if bwu = 0 then aw else (awu % bwu : Int).bmod (2 ^ 32))

/-- R80: an unrecovered mismatch in a result leaves the first copy's result, poisoned, and sets AFLAGS.CHK and CHKI.CHK with ORIGIN 1; one that re-firing
corrects leaves the result as it is; R360: points to the core. The link of a jump likewise (R82). That the first copy is the right one is the model's choice
(log entry 58). -/
def Obligations.MismatchPoisonsResult : Prop :=
  (∀ (s : State) (i : Instr) (rd : Reg) (l : Nat), aluDest i = some rd →
    let core := coreUnit (coreOf s.cur)
    ∃ u t c, exec i { s with mishap := .none } = .next u ∧ exec i { s with mishap := .bad l } = .next t ∧ exec i { s with mishap := .fixed l } = .next c ∧
      (HoldsX rd (u.b.getX rd) true t.b ∧ (∀ r, r ≠ rd → t.b.getX r = s.b.getX r ∧ t.b.poisX r = s.b.poisX r) ∧ t.b.pc = s.b.pc + 4 ∧
        t.b.aflags = s.b.aflags ||| 0x80 ∧ t.b.chki = (if s.b.chki &&& 3 = 0 then 0x102 else s.b.chki ||| 2) ∧ t.mishap = .none ∧ SameMem s t ∧
        (t.unitAt core).score = min ((s.unitAt core).score + 64) 0xFFFF) ∧
      (c.b = u.b ∧ c.mishap = .none ∧ SameMem s c ∧ (c.unitAt core).score = min ((s.unitAt core).score + 8) 0xFFFF)) ∧
  ∀ (s : State) (rd rs1 : Reg) (imm : BitVec 12) (far : BitVec 20) (l : Nat), s.mishap = .bad (2 * l + 1) →
    let links (i : Instr) (dst : W64) : Prop := dst.toNat % 4 = 0 → s.inCode dst = true → Ends i s fun t => HoldsX rd (s.b.pc + 4) true t.b ∧ t.b.pc = dst
    links (.jal rd far) (s.b.pc + .ofInt 64 (2 * far.toInt)) ∧
    (s.b.poisX rs1 = false → links (.jalr rd rs1 imm) ((s.b.getX rs1 + .ofInt 64 imm.toInt) &&& ~~~1#64))

/-- R82, R85: jumps and taken branches whose target is aligned and in the code, and branches not taken. R85, R81, R80: a jump or taken branch to a misaligned
target raises MISALIGN, to one outside the code ACCESS, with TVAL = target; a poisoned register POISON; an unrecovered mismatch of a condition or a target POISON
with TVAL 64, one of the link a poisoned link. A fetch past the end of the code raises ACCESS with TVAL the address of the missing word. -/
def Obligations.JumpsAndBranches : Prop :=
  (∀ (s : State) (rd rs1 rs2 : Reg) (imm off : BitVec 12) (far : BitVec 20), s.mishap = .none →
    let a := s.b.getX rs1
    let b := s.b.getX rs2
    let lands (t : W64) : Prop := t.toNat % 4 = 0 ∧ s.inCode t = true
    let tj := s.b.pc + .ofInt 64 (2 * far.toInt)
    let tr := (a + .ofInt 64 imm.toInt) &&& ~~~1#64
    let tb := s.b.pc + .ofInt 64 (2 * off.toInt)
    let branches (i : Instr) (c : Prop) : Prop := s.b.poisX rs1 = false → s.b.poisX rs2 = false →
      (c → lands tb → Ends i s (WritesPc tb s)) ∧ (¬ c → Ends i s (WritesPc (s.b.pc + 4) s))
    (lands tj → Ends (.jal rd far) s (WritesX rd (s.b.pc + 4) false tj s)) ∧
    (s.b.poisX rs1 = false → lands tr → Ends (.jalr rd rs1 imm) s (WritesX rd (s.b.pc + 4) false tr s)) ∧
    branches (.beq rs1 rs2 off) (a = b) ∧ branches (.bne rs1 rs2 off) (a ≠ b) ∧
    branches (.blt rs1 rs2 off) (a.toInt < b.toInt) ∧ branches (.bge rs1 rs2 off) (b.toInt ≤ a.toInt) ∧
    branches (.bltu rs1 rs2 off) (a.toNat < b.toNat) ∧ branches (.bgeu rs1 rs2 off) (b.toNat ≤ a.toNat)) ∧
  (∀ (s : State) (rd rs1 rs2 : Reg) (imm off : BitVec 12) (far : BitVec 20),
    let a := s.b.getX rs1
    let b := s.b.getX rs2
    let traps (i : Instr) (t : W64) : Prop := s.mishap = .none →
      (t.toNat % 4 ≠ 0 → Ends i s (TakesTrap 2 t s)) ∧ (t.toNat % 4 = 0 → s.inCode t = false → Ends i s (TakesTrap 4 t s))
    let tb := s.b.pc + .ofInt 64 (2 * off.toInt)
    let clean := s.b.poisX rs1 = false ∧ s.b.poisX rs2 = false
    let branches (i : Instr) (c : Prop) : Prop :=
      (clean → c → traps i tb) ∧ (s.b.poisX rs1 = true → Ends i s (TakesTrap 0xE (w64 rs1) s)) ∧
      (s.b.poisX rs1 = false → s.b.poisX rs2 = true → Ends i s (TakesTrap 0xE (w64 rs2) s)) ∧
      (clean → s.badMishap = true → Ends i s fun t => t.b.service = true ∧ t.b.tcause = 0xE ∧ t.b.tval = 64 ∧ t.b.tepc = s.b.pc &&& ~~~3#64 ∧ SameMem s t)
    let shaken (i : Instr) (dst : W64) : Prop :=
      (∀ l, s.mishap = .bad (2 * l) →
        Ends i s fun t => t.b.service = true ∧ t.b.tcause = 0xE ∧ t.b.tval = 64 ∧ t.b.tepc = s.b.pc &&& ~~~3#64 ∧ SameMem s t) ∧
      (∀ l, s.mishap = .bad (2 * l + 1) → dst.toNat % 4 = 0 → s.inCode dst = true → Ends i s fun t => t.b.poisX rd = (rd != 0) ∧
        (∀ r, r ≠ rd → t.b.getX r = s.b.getX r ∧ t.b.poisX r = s.b.poisX r) ∧ t.b.pc = dst ∧ t.b.service = s.b.service ∧
        t.b.aflags = s.b.aflags ||| 0x80 ∧ t.b.chki = (if s.b.chki &&& 3 = 0 then 0x102 else s.b.chki ||| 2) ∧ SameMem s t)
    let tj := s.b.pc + .ofInt 64 (2 * far.toInt)
    let tr := (a + .ofInt 64 imm.toInt) &&& ~~~1#64
    traps (.jal rd far) tj ∧ shaken (.jal rd far) tj ∧ (s.b.poisX rs1 = false → traps (.jalr rd rs1 imm) tr ∧ shaken (.jalr rd rs1 imm) tr) ∧
    (s.b.poisX rs1 = true → Ends (.jalr rd rs1 imm) s (TakesTrap 0xE (w64 rs1) s)) ∧
    branches (.beq rs1 rs2 off) (a = b) ∧ branches (.bne rs1 rs2 off) (a ≠ b) ∧
    branches (.blt rs1 rs2 off) (a.toInt < b.toInt) ∧ branches (.bge rs1 rs2 off) (b.toInt ≤ a.toInt) ∧
    branches (.bltu rs1 rs2 off) (a.toNat < b.toNat) ∧ branches (.bgeu rs1 rs2 off) (b.toNat ≤ a.toNat)) ∧
  (∀ (s : State) (bk : Nat) (rest : List Move), s.agenda = .issue bk :: rest → s.karmos.diesHeld = false → bk < 15360 → (s.clusterAt (bk / 80)).gated = false →
    let u := { s with agenda := rest, cur := bk }
    u.b.st = .running → u.b.service = false → u.b.maskDue = 0 → u.b.preempt = none → u.b.maskOn = false → u.b.redo = none → u.inCode u.b.pc = false →
      u.turn bk = true →
      ∃ t, TakesTrap 4 u.b.pc u t ∧ step s = .next (t.issued bk).settle)

/-- R89, R91: what the six CSR instructions read and write. R29, R89, R91: an address that the map does not list, a write to a read-only CSR, and a
handler-mode access to 0x5C0 to 0x5C4 raise ILLEGAL with TVAL = the word; R81: a poisoned source of a write raises POISON. R90: an access to CHKI does not
issue while a load is outstanding. TCAUSE keeps any 8 bits written to it, which R89 does not say (log entry 59). -/
def Obligations.CsrInstructions : Prop :=
  (∀ (s : State) (rd rs1 : Reg) (z : BitVec 5) (csr : BitVec 12) (old : W64), s.csr csr.toNat = some old → s.mishap = .none →
    (csr.toNat = 0x800 → s.b.loads = []) → (s.b.service = true ∨ ¬ (0x5C0 ≤ csr.toNat ∧ csr.toNat ≤ 0x5C4)) →
    let src := s.b.getX rs1
    let zi : W64 := .ofNat 64 z.toNat
    let reads (i : Instr) : Prop := Ends i s (WritesX rd old false (s.b.pc + 4) s)
    let writes (i : Instr) (new m : W64) : Prop := csr.toNat / 2 ^ 10 ≠ 3 → Ends i s fun t =>
      HoldsX rd old false t.b ∧ t.b.pc = s.b.pc + 4 ∧ (∀ r, r ≠ rd → t.b.getX r = s.b.getX r ∧ t.b.poisX r = s.b.poisX r) ∧ OnlyCsrs s.b t.b ∧
      { t with banks := s.banks, cores := s.cores } = s ∧ SameMem s t ∧ CsrTakes csr.toNat new m s t
    (s.b.poisX rs1 = false → writes (.csrrw rd rs1 csr) src src ∧
      (rs1 ≠ 0 → writes (.csrrs rd rs1 csr) (old ||| src) 0 ∧ writes (.csrrc rd rs1 csr) (old &&& ~~~src) src)) ∧
    writes (.csrrwi rd z csr) zi zi ∧ (z ≠ 0 → writes (.csrrsi rd z csr) (old ||| zi) 0 ∧ writes (.csrrci rd z csr) (old &&& ~~~zi) zi) ∧
    reads (.csrrs rd 0 csr) ∧ reads (.csrrc rd 0 csr) ∧ reads (.csrrsi rd 0 csr) ∧ reads (.csrrci rd 0 csr)) ∧
  (∀ (s : State) (rd rs1 : Reg) (z : BitVec 5) (csr : BitVec 12),
    let a := csr.toNat
    let listed : Bool := [0x800, 0x801, 0x802, 0x803, 0x804, 0x805, 0x806, 0x807, 0x808, 0x809, 0xC00, 0xC01, 0xCC0, 0xCC1, 0xCC2,
      0x5C0, 0x5C1, 0x5C2, 0x5C3, 0x5C4].contains a
    let closed : Bool := !listed || (!s.b.service && decide (0x5C0 ≤ a ∧ a ≤ 0x5C4))
    let bad (i : Instr) : Prop := ∃ w, encode i = some w ∧ Ends i s (TakesTrap 1 (w64 w) s)
    ((closed = true ∨ a / 2 ^ 10 = 3) → bad (.csrrw rd rs1 csr) ∧ bad (.csrrwi rd z csr) ∧
      (rs1 ≠ 0 → bad (.csrrs rd rs1 csr) ∧ bad (.csrrc rd rs1 csr)) ∧ (z ≠ 0 → bad (.csrrsi rd z csr) ∧ bad (.csrrci rd z csr))) ∧
    (closed = true → bad (.csrrs rd 0 csr) ∧ bad (.csrrc rd 0 csr) ∧ bad (.csrrsi rd 0 csr) ∧ bad (.csrrci rd 0 csr)) ∧
    (closed = false → a / 2 ^ 10 ≠ 3 → (a = 0x800 → s.b.loads = []) → s.b.poisX rs1 = true →
      Ends (.csrrw rd rs1 csr) s (TakesTrap 0xE (w64 rs1) s) ∧ Ends (.csrrs rd rs1 csr) s (TakesTrap 0xE (w64 rs1) s) ∧
      Ends (.csrrc rd rs1 csr) s (TakesTrap 0xE (w64 rs1) s)) ∧
    (a = 0x800 → s.b.loads ≠ [] → ∀ i ∈ [Instr.csrrw rd rs1 csr, .csrrs rd rs1 csr, .csrrc rd rs1 csr, .csrrwi rd z csr, .csrrsi rd z csr, .csrrci rd z csr],
      Ends i s fun t => t = s))

/-- R338, R343, R87, R35: the words whose effect is a trap: what entry saves and where it goes. R353: TRET in service mode returns to TEPC in the mode of
TSTAT.PM, with x1 to x7 swapped back when PM = 0; a bank that was pre-empted while it waited, and returns to handler mode, waits no more (R350, log entry
49); in handler mode it is ILLEGAL, as CTXSV and CTXLD are (R352). -/
def Obligations.TrapEntryAndReturn : Prop :=
  (∀ (s : State) (code : BitVec 5) (w : W32),
    Ends (.trap code) s (TakesTrap 0xA (w64 code.toNat) s) ∧ Ends .ecall s (TakesTrap 0xA 0 s) ∧ Ends .ebreak s (TakesTrap 0xF 0 s) ∧
    Ends (.reservedEncoding w) s (TakesTrap 1 (w64 w.toNat) s)) ∧
  (∀ (s : State) (rs1 : Reg),
    (s.b.service = true → Ends .tret s fun t => { t with banks := s.banks, dies := s.dies } = s ∧ (∀ k, k ≠ s.cur → t.bankAt k = s.bankAt k) ∧ SameMem s t ∧
      t.b.pc = s.b.tepc ∧ t.b.service = (fld s.b.tstat 0 1 == 1) ∧
      { t.b with x := s.b.x, xp := s.b.xp, svc := s.b.svc, svcp := s.b.svcp, pc := s.b.pc, service := s.b.service, owed := s.b.owed } = s.b ∧
      (s.b.owed = .none ∨ fld s.b.tstat 0 1 = 1 → OnlyBank s t ∧ t.b.owed = s.b.owed) ∧
      ∀ r : Reg, r ≠ 0 → t.b.getX r = (if fld s.b.tstat 0 1 = 0 ∧ r.val < 8 then s.b.svc.get 0 r else s.b.getX r) ∧
        t.b.poisX r = (if fld s.b.tstat 0 1 = 0 ∧ r.val < 8 then s.b.svcp.get false r else s.b.poisX r)) ∧
    (s.b.service = false → ∀ i ∈ [Instr.tret, .ctxsv rs1, .ctxld rs1], ∃ w, encode i = some w ∧ Ends i s (TakesTrap 1 (w64 w) s)))

/-- R82, R86, R120, R153: what loads give, where their place does not stall, they are not the ninth access outstanding (R122) and no asynchronous write has
left copies of it (R146); the bytes they leave as they were. R79, R121: a load whose place stalls issues, is outstanding, and the bank goes on. -/
def Obligations.LoadsReadMemory : Prop :=
  ∀ (s u : State) (rd rs1 : Reg) (imm : BitVec 12) (wd : MemW) (sc : Scope) (loc : Nat), s.mishap = .none → s.b.poisX rs1 = false →
    let va := s.b.getX rs1 + .ofInt 64 imm.toInt
    let loads (i : Instr) (va : W64) (n : Nat) (sx acq : Bool) : Prop := s.locate .read va n 1 rd (sizeCode n sx) = .ok u loc →
      (u.Prompt loc n → Ends i s fun t => Loads rd loc n sx (u.mergeLine loc) s t ∧ (s.comm = [] → SameMem s t)) ∧
      (u.stalled loc n = true → u.full n [loc] = false → Ends i s fun t => SameMem u t ∧ t.b.pc = s.b.pc + 4 ∧
        { t.b with pc := s.b.pc, loads := s.b.loads } = s.b ∧ OnlyAccess { s with pend := t.pend } t ∧
        t.b.loads = s.b.loads ++ [⟨u.accId, .x rd sx, n, acq, s.b.service, [⟨0, none⟩]⟩] ∧
        t.pend = u.pend ++ [⟨s.actKey, s.cur, s.jid, va.toNat, u.accId, loc, n, false, .load 0⟩])
    loads (.lb rd rs1 imm) va 1 true false ∧ loads (.lh rd rs1 imm) va 2 true false ∧ loads (.lw rd rs1 imm) va 4 true false ∧
    loads (.ld rd rs1 imm) va 8 true false ∧ loads (.lbu rd rs1 imm) va 1 false false ∧ loads (.lhu rd rs1 imm) va 2 false false ∧
    loads (.lwu rd rs1 imm) va 4 false false ∧ loads (.lda rd rs1 wd sc) (s.b.getX rs1) (2 ^ wd.code) true true

/-- R82, R86, R120, R153: what stores write, and every byte they leave as it was; one whose place stalls, and a store-release behind an access that is
outstanding, is held and completes on its own, and the bank goes on. -/
def Obligations.StoresWriteMemory : Prop :=
  ∀ (s u : State) (rs1 rs2 : Reg) (imm : BitVec 12) (wd : MemW) (sc : Scope) (loc : Nat), s.mishap = .none → s.b.poisX rs1 = false →
    let va := s.b.getX rs1 + .ofInt 64 imm.toInt
    let v := (s.b.getX rs2).toNat
    let p := s.b.poisX rs2
    let stores (i : Instr) (va : W64) (n : Nat) (rel : Bool) : Prop := s.locate .write va n 3 rs2 (Nat.log2 n) = .ok u loc → u.full n [loc] = false →
      let waits := u.stalled loc n = true ∨ (rel = true ∧ ∃ q ∈ u.pend, q.act = s.actKey)
      (¬ waits → Ends i s fun t => Stores loc n v p (u.mergeLine loc) s t ∧ (s.comm = [] → SameMemBut loc n s t)) ∧
      (waits → Ends i s fun t => t.pend = u.pend ++ [⟨s.actKey, s.cur, s.jid, va.toNat, u.accId, loc, n, rel, .store (leBytes n v) p⟩] ∧ SameMem u t ∧
        t.b.pc = s.b.pc + 4 ∧ { t.b with pc := s.b.pc } = s.b ∧ OnlyAccess { s with pend := t.pend } t)
    stores (.sb rs1 rs2 imm) va 1 false ∧ stores (.sh rs1 rs2 imm) va 2 false ∧ stores (.sw rs1 rs2 imm) va 4 false ∧ stores (.sd rs1 rs2 imm) va 8 false ∧
    stores (.stl rs1 rs2 wd sc) (s.b.getX rs1) (2 ^ wd.code) true

/-- R81, R85, R114, R118, R391: where loads and stores trap, in the order of the checks, and where they wait for a page. R104 to R106: the windows of the
address space and the ranges that are refused, for a job with a run on the cluster. -/
def Obligations.LoadsAndStoresStop : Prop :=
  (∀ (s u : State) (rd rs1 rs2 : Reg) (imm : BitVec 12) (wd : MemW) (sc : Scope) (pg : PageKey) (k loc : Nat) (t2 : Bool),
    let va := s.b.getX rs1 + .ofInt 64 imm.toInt
    let stops (i : Instr) (va : W64) (n : Nat) (need : Need) (kind reg code : Nat) : Prop :=
      (s.b.poisX rs1 = true → Ends i s (TakesTrap 0xE (w64 rs1) s)) ∧
      (s.mishap = .none → s.b.poisX rs1 = false → va.toNat % n ≠ 0 → Ends i s (TakesTrap 2 va s)) ∧
      (s.mishap = .none → s.b.poisX rs1 = false → va.toNat % n = 0 →
        (s.reach need va.toNat = (u, .refused) → Ends i s (TakesTrap 4 va u)) ∧
        (s.reach need va.toNat = (u, .busy) → Ends i s fun t => t = u) ∧
        (s.reach need va.toNat = (u, .parked pg k t2 loc) → Ends i s fun t =>
          t.b = { s.b with st := .waiting, wait := .parked pg (dieOf s.ck) va.toNat kind reg code, since := s.cycles } ∧ SameMem u t ∧
          ∃ f ∈ (t.dieAt (dieOf s.ck)).faults, f.pg = pg ∧ 0 < f.waiters))
    let lds := [(Instr.lb rd rs1 imm, va, 1, true), (.lh rd rs1 imm, va, 2, true), (.lw rd rs1 imm, va, 4, true), (.ld rd rs1 imm, va, 8, true),
      (.lbu rd rs1 imm, va, 1, false), (.lhu rd rs1 imm, va, 2, false), (.lwu rd rs1 imm, va, 4, false), (.lda rd rs1 wd sc, s.b.getX rs1, 2 ^ wd.code, true)]
    let sts := [(Instr.sb rs1 rs2 imm, va, 1), (.sh rs1 rs2 imm, va, 2), (.sw rs1 rs2 imm, va, 4), (.sd rs1 rs2 imm, va, 8),
      (.stl rs1 rs2 wd sc, s.b.getX rs1, 2 ^ wd.code)]
    (∀ e ∈ lds, stops e.1 e.2.1 e.2.2.1 .read 1 rd (sizeCode e.2.2.1 e.2.2.2)) ∧ (∀ e ∈ sts, stops e.1 e.2.1 e.2.2 .write 3 rs2 (Nat.log2 e.2.2))) ∧
  (∀ (s : State) (ck via job va : Nat) (need : Need) (r : Run),
    let own := s.place ck via job need va
    (0x400000 ≤ va → va < 0x800000 → s.runOf ck job = some r →
      (va - 0x400000 < r.n * 65536 → own = (s, .at (spadLoc ck (r.seg * 65536 + (va - 0x400000))))) ∧
      (r.n * 65536 ≤ va - 0x400000 → own = (s, .refused))) ∧
    (0x40000000 ≤ va → va < 0x80000000 → va / 2 ^ 28 % 4 = 3 → own = (s, .refused)) ∧
    (va < 0x400000 → own = (s, .refused)) ∧ (0x800000 ≤ va → va < 0x1000000 → own = (s, .refused)) ∧
    (0x80000000 ≤ va → va < 0x100000000 → own = (s, .refused)) ∧ (2 ^ 56 ≤ va → own = (s, .refused)))

/-- R87, R145, R154, R155: the fences complete when the condition of R145 holds, and the bank waits until then; scope dom waits for the packets that place
bytes for the job besides (R154); scope act orders the activation's own accesses alone, and every other scope acts alike. After an XFENCE every load of the
activation is given the bytes, and every read of a group the result, as they stand (R146, R155, R327); a fence makes what the activation has read of an
asynchronous write visible to every load (log entry 57). -/
def Obligations.FencesComplete : Prop :=
  ∀ (s : State) (f : FenceFields),
    let done := ∀ p ∈ s.pend, p.act ≠ s.actKey
    let placed := ∀ x ∈ s.flight, match x with | .pkt _ p _ _ => p.job = s.jid → placesBytes p.body = false | _ => True
    let completes (i : Instr) : Prop := Ends i s fun t => WritesPc (s.b.pc + 4) { s with stale := t.stale, groups := t.groups } t ∧
      (t.stale = s.stale.filter fun r => !r.read.has s.actKey) ∧
      t.groups = s.groups.map fun e => (e.1, { e.2 with old := e.2.old.filter fun r => !r.read.has s.actKey })
    let waits (i : Instr) (dom : Bool) : Prop := Ends i s (Waits (.fence dom) s)
    (done → completes (.fence f) ∧ (∀ sc ∈ [Scope.core, .cl, .die, .mod], completes (.fenceS sc)) ∧ (placed → completes (.fenceS .dom))) ∧
    Ends (.fenceS .act) s (WritesPc (s.b.pc + 4) s) ∧
    (Ends .xfence s fun t => WritesPc (s.b.pc + 4) { s with stale := t.stale, groups := t.groups } t ∧ (∀ loc n, t.staleFor s.actKey loc n = []) ∧
      ∃ h : List GrpOld → List GrpOld, (t.groups = s.groups.map fun e => (e.1, { e.2 with old := h e.2.old })) ∧ ∀ l, ∀ r ∈ h l, r.seen.has s.actKey = true) ∧
    (¬ done → waits (.fence f) false ∧ ∀ sc ∈ [Scope.core, .cl, .die, .mod], waits (.fenceS sc) false) ∧ (¬ done ∨ ¬ placed → waits (.fenceS .dom) true)

/-- R81, R391: where the entry of an instruction says that a poisoned source raises POISON, it does so before every other check, with TVAL the number of the
first such register in the order rs1, rs2, rd, and nothing else happens; in a masked window the waits and DQSTEAL too take POISON before MASKOVER (log entry
48). -/
def Obligations.PoisonedOperandsTrap : Prop :=
  ∀ (s : State) (rd rs1 rs2 : Reg) (imm : BitVec 12) (wd : MemW) (sc : Scope) (vs : VReg) (q l : Bool),
    let first (i : Instr) : Prop := s.b.poisX rs1 = true → Ends i s (TakesTrap 0xE (w64 rs1) s)
    let second (i : Instr) : Prop := first i ∧ (s.b.poisX rs1 = false → s.b.poisX rs2 = true → Ends i s (TakesTrap 0xE (w64 rs2) s))
    let third (i : Instr) : Prop := second i ∧
      (s.b.poisX rs1 = false → s.b.poisX rs2 = false → s.b.poisX rd = true → Ends i s (TakesTrap 0xE (w64 rd) s))
    (∀ i ∈ [Instr.lb rd rs1 imm, .lh rd rs1 imm, .lw rd rs1 imm, .ld rd rs1 imm, .lbu rd rs1 imm, .lhu rd rs1 imm, .lwu rd rs1 imm, .sb rs1 rs2 imm, .sh rs1 rs2 imm,
      .sw rs1 rs2 imm, .sd rs1 rs2 imm, .lda rd rs1 wd sc, .stl rs1 rs2 wd sc, .jalr rd rs1 imm, .send rd rs1 rs2, .sendu rd rs1 rs2, .cntrd rd rs1, .engst rd rs1,
      .leaseq rd rs1, .capack rs1, .sleep rs1, .dqsteal rd rs1], first i) ∧
    (vs ≠ 15 → ∀ i ∈ [Instr.sendv rd rs1 vs, .shape vs rs1, .grpst rs1 vs, .grpld vs rs1], first i) ∧
    (∀ i ∈ [Instr.dqpush rd rs1 rs2, .cntadd rs1 rs2, .cntset rs1 rs2, .cntarm rs1 rs2, .publish rd rs1 rs2, .cuadd rs1 rs2, .cuaddi rs1 rs2, .tpost rs1 rs2,
      .retrd rd rs1 rs2, .waitc rd rs1 rs2, .pubwait rd rs1 rs2] ++ [.aaddW rd rs1 rs2 q l, .aaddD rd rs1 rs2 q l, .aswapW rd rs1 rs2 q l, .aswapD rd rs1 rs2 q l, .axorW rd rs1 rs2 q l,
      .axorD rd rs1 rs2 q l, .afaddW rd rs1 rs2 q l, .aorW rd rs1 rs2 q l, .aorD rd rs1 rs2 q l, .aandW rd rs1 rs2 q l, .aandD rd rs1 rs2 q l,
      .aminW rd rs1 rs2 q l, .aminD rd rs1 rs2 q l, .amaxW rd rs1 rs2 q l, .amaxD rd rs1 rs2 q l, .aminuW rd rs1 rs2 q l, .aminuD rd rs1 rs2 q l,
      .amaxuW rd rs1 rs2 q l, .amaxuD rd rs1 rs2 q l], second i) ∧
    ∀ i ∈ [Instr.acasW rd rs1 rs2 q l, .acasD rd rs1 rs2 q l], third i

/-- R127 to R130: an atomic performed at issue, where nothing stalls it (R122, R142): rd takes the old value, and the location the new one; a poisoned
location is not written, and sets CHKI.PSN with ORIGIN 9 (log entry 47). -/
def Obligations.AtomicsUpdateMemory : Prop :=
  ∀ (s u : State) (rd rs1 rs2 : Reg) (aq rl : Bool) (loc : Nat), s.mishap = .none → s.b.poisX rs1 = false → s.b.poisX rs2 = false →
    let va := s.b.getX rs1
    let performs (i : Instr) (n : Nat) (new : Nat → Nat → Nat → Nat) (clean : Prop) : Prop :=
      clean → s.locate .both va n 0 rd (Nat.log2 n) = .ok u loc → rd ≠ 0 ∨ u.ownSpad loc = true → u.stalled loc n = false → u.full n [loc] = false →
      (rl = true → ∀ q ∈ u.pend, q.act ≠ s.actKey) →
      let w := u.mergeLine loc
      let old := w.numAt loc n
      let x := (s.b.getX rs2).toNat % 2 ^ (8 * n)
      let c := (s.b.getX rd).toNat % 2 ^ (8 * n)
      Ends i s fun t => OnlyAccess s t ∧ t.b.pc = s.b.pc + 4 ∧ HoldsX rd (.ofInt 64 ((old : Int).bmod (2 ^ (8 * n)))) (w.poisAt loc n) t.b ∧
        OnlyX rd s.b { t.b with chki := s.b.chki } ∧ t.b.chki = (if w.poisAt loc n then (if s.b.chki &&& 3 = 0 then 0x901 else s.b.chki ||| 1) else s.b.chki) ∧
        t.numAt loc n = (if w.poisAt loc n then old else new old x c) ∧ SameMemBut loc n w t ∧ (s.comm = [] → SameMemBut loc n s t)
    let si (n v : Nat) : Int := (v : Int).bmod (2 ^ (8 * n))
    performs (.aaddW rd rs1 rs2 aq rl) 4 (fun o x _ => (o + x) % 2 ^ 32) True ∧ performs (.aaddD rd rs1 rs2 aq rl) 8 (fun o x _ => (o + x) % 2 ^ 64) True ∧
    performs (.aswapW rd rs1 rs2 aq rl) 4 (fun _ x _ => x) True ∧ performs (.aswapD rd rs1 rs2 aq rl) 8 (fun _ x _ => x) True ∧
    performs (.axorW rd rs1 rs2 aq rl) 4 (fun o x _ => o ^^^ x) True ∧ performs (.axorD rd rs1 rs2 aq rl) 8 (fun o x _ => o ^^^ x) True ∧
    performs (.aorW rd rs1 rs2 aq rl) 4 (fun o x _ => o ||| x) True ∧ performs (.aorD rd rs1 rs2 aq rl) 8 (fun o x _ => o ||| x) True ∧
    performs (.aandW rd rs1 rs2 aq rl) 4 (fun o x _ => o &&& x) True ∧ performs (.aandD rd rs1 rs2 aq rl) 8 (fun o x _ => o &&& x) True ∧
    performs (.aminW rd rs1 rs2 aq rl) 4 (fun o x _ => if si 4 x < si 4 o then x else o) True ∧
    performs (.aminD rd rs1 rs2 aq rl) 8 (fun o x _ => if si 8 x < si 8 o then x else o) True ∧
    performs (.amaxW rd rs1 rs2 aq rl) 4 (fun o x _ => if si 4 o < si 4 x then x else o) True ∧
    performs (.amaxD rd rs1 rs2 aq rl) 8 (fun o x _ => if si 8 o < si 8 x then x else o) True ∧
    performs (.aminuW rd rs1 rs2 aq rl) 4 (fun o x _ => min o x) True ∧ performs (.aminuD rd rs1 rs2 aq rl) 8 (fun o x _ => min o x) True ∧
    performs (.amaxuW rd rs1 rs2 aq rl) 4 (fun o x _ => max o x) True ∧ performs (.amaxuD rd rs1 rs2 aq rl) 8 (fun o x _ => max o x) True ∧
    performs (.acasW rd rs1 rs2 aq rl) 4 (fun o x c => if o = c then x else o) (s.b.poisX rd = false) ∧
    performs (.acasD rd rs1 rs2 aq rl) 8 (fun o x c => if o = c then x else o) (s.b.poisX rd = false) ∧
    performs (.afaddW rd rs1 rs2 aq rl) 4 (fun o x _ => (fadd32 (.ofNat 32 o) (.ofNat 32 x)).toNat) True

/-- R130, R131: with rd = x0 outside the own scratchpad an atomic is posted: buffered until ENDH in an entry of the send queue, or SQFULL with none free;
commutative updates: to another cluster's scratchpad posted, to the own performed, to T1 and T2 added into the cluster's partial. -/
def Obligations.PostedAndCommutativeUpdates : Prop :=
  ∀ (s u : State) (rs1 rs2 : Reg) (aq rl : Bool) (loc : Nat), s.mishap = .none → s.b.poisX rs1 = false → s.b.poisX rs2 = false →
    let va := s.b.getX rs1
    let x (n : Nat) := (s.b.getX rs2).toNat % 2 ^ (8 * n)
    let posts (i : Instr) (n : Nat) (op : AtomOp) (rl : Bool) (c : Prop) : Prop :=
      s.locate .both va n 0 0 (Nat.log2 n) = .ok u loc → u.ownSpad loc = false → c →
      (s.sqFreeTo s.cur = true → Ends i s fun t => OnlyAccess s t ∧ SameMem u t ∧
        t.b = { s.b with pc := s.b.pc + 4, buf := s.b.buf ++ [⟨.atomic ⟨s.actKey, rl, s.jid, va.toNat, op, n, w64 (x n), 0⟩, some (coreOf s.cur), bankNo s.cur == 4⟩] }) ∧
      (s.sqFreeTo s.cur = false → Ends i s fun t => t.b.tcause = 6 ∧ t.b.tval = va ∧ SameMem u t ∧ t.b.service = true ∧
        t.b.sqtraps.toNat = min (s.b.sqtraps.toNat + 1) 0xFFFF)
    let words := [(Instr.aaddW 0 rs1 rs2 aq rl, AtomOp.add), (.aswapW 0 rs1 rs2 aq rl, .swap), (.axorW 0 rs1 rs2 aq rl, .xor), (.acasW 0 rs1 rs2 aq rl, .cas),
      (.afaddW 0 rs1 rs2 aq rl, .fadd), (.aorW 0 rs1 rs2 aq rl, .or), (.aandW 0 rs1 rs2 aq rl, .and), (.aminW 0 rs1 rs2 aq rl, .min),
      (.amaxW 0 rs1 rs2 aq rl, .max), (.aminuW 0 rs1 rs2 aq rl, .minu), (.amaxuW 0 rs1 rs2 aq rl, .maxu)]
    let doubles := [(Instr.aaddD 0 rs1 rs2 aq rl, AtomOp.add), (.aswapD 0 rs1 rs2 aq rl, .swap), (.axorD 0 rs1 rs2 aq rl, .xor), (.acasD 0 rs1 rs2 aq rl, .cas),
      (.aorD 0 rs1 rs2 aq rl, .or), (.aandD 0 rs1 rs2 aq rl, .and), (.aminD 0 rs1 rs2 aq rl, .min), (.amaxD 0 rs1 rs2 aq rl, .max),
      (.aminuD 0 rs1 rs2 aq rl, .minu), (.amaxuD 0 rs1 rs2 aq rl, .maxu)]
    (∀ e ∈ words, posts e.1 4 e.2 rl True) ∧ (∀ e ∈ doubles, posts e.1 8 e.2 rl True) ∧
    posts (.cuadd rs1 rs2) 4 .fadd false (isSpad loc = true) ∧ posts (.cuaddi rs1 rs2) 8 .add false (isSpad loc = true) ∧
    (s.locate .both va 8 0 0 3 = .ok u loc → u.stalled loc 8 = false → u.full 8 [loc] = false →
      (u.ownSpad loc = true → Ends (.cuaddi rs1 rs2) s fun t => { t.b with pc := s.b.pc } = s.b ∧ t.b.pc = s.b.pc + 4 ∧
        t.numAt loc 8 = (if (u.mergeLine loc).poisAt loc 8 then (u.mergeLine loc).numAt loc 8 else ((u.mergeLine loc).numAt loc 8 + x 8) % 2 ^ 64) ∧
        SameMemBut loc 8 (u.mergeLine loc) t) ∧
      (isSpad loc = false → u.comm = [] → Ends (.cuaddi rs1 rs2) s fun t => { t.b with pc := s.b.pc } = s.b ∧ t.b.pc = s.b.pc + 4 ∧ SameMem u t ∧
        t.comm = [⟨lineOf loc, true, [], [(s.ck, (List.replicate 8 (0 : W64)).set (loc % 64 / 8) (w64 (x 8)))], false⟩])) ∧
    (s.locate .both va 4 0 0 2 = .ok u loc → u.stalled loc 4 = false → u.full 4 [loc] = false →
      (isSpad loc = false → u.comm = [] → loc % 4 = 0 → Ends (.cuadd rs1 rs2) s fun t => { t.b with pc := s.b.pc } = s.b ∧ t.b.pc = s.b.pc + 4 ∧ SameMem u t ∧
        ∃ part, t.comm = [⟨lineOf loc, false, [], [(s.ck, part)], false⟩] ∧ part.length = 8 ∧
          ∀ k, k < 16 → let w (l : List W64) : W32 := ((l.getD (k / 2) 0) >>> (32 * (k % 2))).setWidth 32
            w part = if k = loc % 64 / 4 then fadd32 0 (.ofNat 32 (x 4)) else 0) ∧
      (u.ownSpad loc = true →
      Ends (.cuadd rs1 rs2) s fun t => { t.b with pc := s.b.pc } = s.b ∧ t.b.pc = s.b.pc + 4 ∧ SameMemBut loc 4 (u.mergeLine loc) t ∧
        t.numAt loc 4 = (if (u.mergeLine loc).poisAt loc 4 then (u.mergeLine loc).numAt loc 4
          else (fadd32 (.ofNat 32 ((u.mergeLine loc).numAt loc 4)) (.ofNat 32 (x 4))).toNat)))

/-- R164, R172: MASKU opens a window of 256 instructions unless one is open or a pre-emption is pending, and then it waits; UNMASKU closes it. R87, R173: YIELD
and WFI change nothing, or give the bank to what is pending for the core by PREEMPT with reason 4. R164, R391: the instructions that may not stand in a window
take MASKOVER with TVAL 3, after POISON. R338: in service mode the window closes instead, the trap is due at TRET, and YIELD and WFI complete; that they save
nothing there is the model's choice (log entries 48, 49, 66). -/
def Obligations.MaskedWindowAndYield : Prop :=
  (∀ (s : State) (rd rs1 rs2 : Reg),
    (s.b.maskOn = false → s.b.preempt = none → Ends .masku s fun t => OnlyBank s t ∧ SameMem s t ∧
      t.b = { s.b with maskOn := true, maskLeft := 256, maskStart := s.cycles, pc := s.b.pc + 4 }) ∧
    (s.b.maskOn = true → Ends .masku s (WritesPc (s.b.pc + 4) s)) ∧
    (s.b.maskOn = false → s.b.preempt ≠ none → Ends .masku s fun t => t = s) ∧
    (Ends .unmasku s fun t => OnlyBank s t ∧ SameMem s t ∧ t.b = { s.b with maskOn := false, maskLeft := 256, pc := s.b.pc + 4 }) ∧
    (s.b.maskOn = true → s.b.service = false → s.b.poisX rs1 = false → s.b.poisX rs2 = false →
      ∀ i ∈ [Instr.yield, .wfi, .waitc rd rs1 rs2, .sleep rs1, .dqsteal rd rs1, .pubwait rd rs1 rs2], Ends i s (TakesTrap 9 3 s)) ∧
    (s.b.maskOn = true → s.b.service = true → let u := s.modB fun b => { b with maskOn := false, maskLeft := 256, maskDue := 3 }
      (∀ i ∈ [Instr.yield, .wfi], Ends i s (WritesPc (s.b.pc + 4) u)) ∧
      (s.b.poisX rs1 = false → s.b.poisX rs2 = false → ∀ i ∈ [Instr.waitc rd rs1 rs2, .sleep rs1, .dqsteal rd rs1, .pubwait rd rs1 rs2], exec i s = exec i u))) ∧
  (∀ (s : State), s.b.maskOn = false → ∀ i ∈ [Instr.yield, .wfi],
    (s.b.service = true ∨ s.givesWay s.cur = false → Ends i s (WritesPc (s.b.pc + 4) s)) ∧
    (s.b.service = false → s.givesWay s.cur = true → Ends i s (TakesTrap 0xC 4 (s.modB Bank.advance))))

/-- R157, R174, R175: the waits of a handler complete at once where their condition holds, and the bank waits where it does not. R145, R157, R174, R175:
what ends the waits: the bank runs on at the next instruction, with its result. R121, R350: an outstanding load whose data is all there returns it, into x1 to
x7 of the mode that issued it (R338), and one that lacks a part does not yet. -/
def Obligations.WaitsOfAHandler : Prop :=
  (∀ (s : State) (rd rs1 rs2 : Reg), s.b.maskOn = false →
    let a := s.b.getX rs1
    let b := s.b.getX rs2
    let count := (s.counterAt (cntKey s.ck s.jid a.toNat)).count.toNat
    (s.b.poisX rs1 = false → s.b.poisX rs2 = false → a.toNat < 4096 → a.toNat < (s.jobAt s.jid).img.allot →
      (b.toNat ≤ count → Ends (.waitc rd rs1 rs2) s (WritesX rd (w64 count) false (s.b.pc + 4) s)) ∧
      (count < b.toNat → Ends (.waitc rd rs1 rs2) s (Waits (.counter rd a.toNat b.toNat) s))) ∧
    (s.b.poisX rs1 = false → s.b.poisX rs2 = false → (s.jobAt s.jid).img.allot ≤ a.toNat → Ends (.waitc rd rs1 rs2) s (TakesTrap 5 a s)) ∧
    (s.b.poisX rs1 = false → a.toNat < 2 ^ 32 → s.b.deadline = none →
      (a = 0 → Ends (.sleep rs1) s (WritesPc (s.b.pc + 4) s)) ∧
      (a ≠ 0 → Ends (.sleep rs1) s fun t => OnlyBank s t ∧ SameMem s t ∧
        t.b = { s.b with st := .waiting, wait := .sleep, since := s.cycles, deadline := some (s.time + a.toNat) })) ∧
    (s.b.poisX rs1 = false → 2 ^ 32 ≤ a.toNat → Ends (.sleep rs1) s (TakesTrap 5 a s)) ∧
    (s.b.poisX rs1 = false → s.b.poisX rs2 = false → 256 ≤ a.toNat → Ends (.pubwait rd rs1 rs2) s (TakesTrap 5 a s)) ∧
    (∀ r, s.b.poisX rs1 = false → s.b.poisX rs2 = false → a.toNat < 256 → (s.jobAt s.jid).regions[a.toNat]? = some r → r.len ≠ 0 →
      let w := b.toNat % 2 ^ 48
      ((r.gen + 2 ^ 48 - w) % 2 ^ 48 < 2 ^ 47 → Ends (.pubwait rd rs1 rs2) s (WritesX rd (w64 r.gen) false (s.b.pc + 4) s)) ∧
      (2 ^ 47 ≤ (r.gen + 2 ^ 48 - w) % 2 ^ 48 → Ends (.pubwait rd rs1 rs2) s (Waits (.pub rd a.toNat w) s)))) ∧
  (∀ (s : State) (bk rd : Nat), (s.bankAt bk).st = .waiting → rd < 32 →
    let b := s.bankAt bk
    let act := ckOf bk * 2 ^ 32 + b.seq
    let endsAs (h : Instr) (u : State) (v : Option W64) : Prop := Ends h s fun t => OnlyBankAt bk u t ∧ SameMem s t ∧
      (t.bankAt bk).st = .running ∧
      (t.bankAt bk).wait = .none ∧ (t.bankAt bk).pc = b.pc + 4 ∧
      (match v with
        | some v => HoldsX (.ofNat 32 rd) v false (t.bankAt bk) ∧ OnlyX (.ofNat 32 rd) b { t.bankAt bk with st := b.st, wait := b.wait }
        | none => { t.bankAt bk with st := b.st, wait := b.wait, pc := b.pc, deadline := b.deadline } = b)
    let ends (h : Instr) (v : Option W64) : Prop := endsAs h s v
    (∀ c n, b.wait = .counter rd c n →
      let count := (s.counterAt (cntKey (ckOf bk) b.job c)).count.toNat
      (n ≤ count → ends (.waitcWake (.bank bk)) (some (w64 count))) ∧ (count < n → Ends (.waitcWake (.bank bk)) s fun t => t = s)) ∧
    (∀ d, b.wait = .sleep → b.deadline = some d → s.reached d = true → ends (.sleepExpiry (.bank bk)) none) ∧
    (∀ g w r, b.wait = .pub rd g w → (s.jobAt b.job).regions[g]? = some r → genReached r.gen w = true →
      ends (.pubwaitWake (.bank bk)) (some (w64 r.gen))) ∧
    (∀ dom, b.wait = .fence dom → (∀ p ∈ s.pend, p.act ≠ act) →
      (dom = true → ∀ x ∈ s.flight, match x with | .pkt _ p _ _ => p.job = b.job → placesBytes p.body = false | _ => True) →
      endsAs (.fenceComplete (.bank bk)) { s with
        stale := s.stale.filter fun r => !r.read.has act,
        groups := s.groups.map fun e => (e.1, { e.2 with old := e.2.old.filter fun r => !r.read.has act }) } none)) ∧
  (∀ (s : State) (bk k id rd n e v : Nat) (sx acq svc p : Bool), rd < 32 → 0 < n → v < 2 ^ (8 * n) →
    let b := s.bankAt bk
    let data : W64 := .ofInt 64 (if sx then (v : Int).bmod (2 ^ (8 * n)) else v)
    (b.loads[k]? = some ⟨id, .x rd sx, n, acq, svc, [⟨e, some (v, p)⟩]⟩ → Ends (.loadReturn ⟨.bank bk, k⟩) s fun t =>
      let c := t.bankAt bk
      OnlyBankAt bk s t ∧ SameMem s t ∧ c.pc = b.pc ∧ c.loads = b.loads.eraseIdx k ∧
        c.chki = (if p then (if b.chki &&& 3 = 0 then 0x901 else b.chki ||| 1) else b.chki) ∧
        (svc = b.service ∨ rd = 0 ∨ 8 ≤ rd → OnlyX (.ofNat 32 rd) b { c with chki := b.chki, loads := b.loads } ∧ HoldsX (.ofNat 32 rd) data p c) ∧
        (svc ≠ b.service → rd ≠ 0 → rd < 8 → { c with svc := b.svc, svcp := b.svcp, chki := b.chki, loads := b.loads } = b ∧
          FMap.get 0 c.svc rd = data ∧ FMap.get false c.svcp rd = p)) ∧
    (∀ o, b.loads[k]? = some o → (∃ q ∈ o.parts, q.got = none) → Ends (.loadReturn ⟨.bank bk, k⟩) s fun t => t = s))

/-- R169, R176: the instructions on the own deque, in the issuing job's view. R170, R177, R184: a steal: the request holds a slot and the bank waits; the
victim gives the upper half of its bottom range, or a range of one; the answer is written to rd, the slot freed and the steal counted. Both halves of a split
range go to the top (log entry 41). -/
def Obligations.DequesAndSteals : Prop :=
  (∀ (s : State) (rd rs1 rs2 : Reg),
    let lo := (s.b.getX rs1).toNat % 2 ^ 32
    let hi := (s.b.getX rs2).toNat % 2 ^ 32
    let q := (s.coreAt (coreOf s.cur)).dq
    (s.b.poisX rs1 = false → s.b.poisX rs2 = false →
      (lo < hi → q.length < 64 → Ends (.dqpush rd rs1 rs2) s (DequeDone rd 1 (q ++ [⟨lo, hi, s.jid⟩]) s)) ∧
      (lo < hi → 64 ≤ q.length → Ends (.dqpush rd rs1 rs2) s (DequeDone rd 0 q s)) ∧
      (hi ≤ lo → Ends (.dqpush rd rs1 rs2) s (TakesTrap 5 (w64 (hi * 2 ^ 32 + lo)) s))) ∧
    ((∀ r ∈ q, r.job ≠ s.jid) → Ends (.dqpop rd) s (DequeDone rd 0 q s) ∧ Ends (.dqsplit rd) s (DequeDone rd 0 q s)) ∧
    (∀ pre r post, q = pre ++ r :: post → r.job = s.jid → (∀ x ∈ post, x.job ≠ s.jid) →
      Ends (.dqpop rd) s (DequeDone rd (w64 (r.hi * 2 ^ 32 + r.lo)) (pre ++ post) s) ∧
      (r.hi - r.lo < 2 ∨ 64 ≤ q.length → Ends (.dqsplit rd) s (DequeDone rd 0 q s)) ∧
      (2 ≤ r.hi - r.lo → q.length < 64 → let m := r.lo + (r.hi - r.lo) / 2
        Ends (.dqsplit rd) s (DequeDone rd 1 (pre ++ post ++ [⟨r.lo, m, r.job⟩, ⟨m, r.hi, r.job⟩]) s))) ∧
    Ends (.dqlen rd) s (DequeDone rd (w64 (q.filter fun r => r.job == s.jid).length) q s)) ∧
  (∀ (s u : State) (rd rs1 : Reg) (k slot bk job victim rd' : Nat) (ans : W64),
    let h := s.b.getX rs1
    (s.b.maskOn = false → s.b.poisX rs1 = false → fld h 28 36 = 0 → fld h 0 16 = s.modid.toNat → s.inPlace s.jid (fld h 16 2) (fld h 18 6) = true →
      (s.b.freeSlot = some slot → s.sqFreeTo s.cur = true → Ends (.dqsteal rd rs1) s fun t =>
        t.b = { s.b with slots := s.b.slots.add slot, slotJob := t.b.slotJob, st := .waiting, wait := .steal rd s.cur slot, since := s.cycles } ∧
        FMap.get 0 t.b.slotJob slot = s.jid ∧ SameMem s t ∧
        t.flight = s.flight ++ [.stealReq s.cur slot s.jid ((fld h 16 2 * 64 + fld h 18 6) * 16 + fld h 24 4)] ∧ OnlyBank { s with flight := t.flight } t) ∧
      (s.b.freeSlot = none ∨ s.sqFreeTo s.cur = false → Ends (.dqsteal rd rs1) s (SqFull h s))) ∧
    (s.takeFlight k = some (.stealReq bk slot job victim, u) →
      let c := s.coreAt victim
      ((∀ r ∈ c.dq, r.job ≠ job) → Ends (.stealRequestArrival k) s fun t => t.coreAt victim = c ∧ t.flight = u.flight ++ [.stealAns bk slot job 0]) ∧
      (∀ pre r post, c.dq = pre ++ r :: post → r.job = job → (∀ x ∈ pre, x.job ≠ job) → r.lo < r.hi → r.hi < 2 ^ 32 →
        let m := r.lo + (r.hi - r.lo) / 2
        Ends (.stealRequestArrival k) s fun t => t.flight = u.flight ++ [.stealAns bk slot job (w64 (r.hi * 2 ^ 32 + m))] ∧
          t.coreAt victim = { c with dq := pre ++ (if r.hi - r.lo = 1 then [] else [⟨r.lo, m, job⟩]) ++ post, given := c.given + 1 })) ∧
    (s.takeFlight k = some (.stealAns bk slot job ans, u) → (s.bankAt bk).st = .waiting → (s.bankAt bk).wait = .steal rd' bk slot → rd' < 32 →
      Ends (.stealAnswerArrival k) s fun t => (t.bankAt bk).st = .running ∧ (t.bankAt bk).pc = (s.bankAt bk).pc + 4 ∧
        HoldsX (.ofNat 32 rd') ans false (t.bankAt bk) ∧ (t.bankAt bk).slots.has slot = false ∧ t.flight = u.flight ∧
        (t.coreAt (coreOf bk)).taken = (s.coreAt (coreOf bk)).taken + (if ans = 0 then 0 else 1)))

/-- R99, R183, R184, R195: SEND, SENDU and SENDV buffer a message with its sender fields in an entry of the send queue, and reserve a reply slot where rd is
not x0; SQFULL where none is free. R195: the checks of a handle, in order, and the traps of those that fail. R196, R99: the first REPLY of an activation that
owes one is buffered, routed by MHDR1; without a debt, or with one buffered, it is discarded. -/
def Obligations.MessagesAreBuffered : Prop :=
  (∀ (s u : State) (rd rs1 rs2 : Reg) (vs2 : VReg) (ps : List LoadPiece), s.b.poisX rs1 = false → HandleOk s (s.b.getX rs1) → u.b = s.b → OnlyAccess s u →
    let v := s.b.getX rs1
    let n := fld v 57 6
    let slot := if rd = 0 then none else s.b.freeSlot
    let sender := bankNo s.cur * 2 ^ 28 + coreOf s.cur % 16 * 2 ^ 24 + s.ck % 64 * 2 ^ 18 + s.ck / 64 % 4 * 2 ^ 16 + s.modid.toNat
    let h1 := w64 (slot.isSome.toNat * 2 ^ 52 + slot.getD 0 * 2 ^ 48 + sender)
    let buffers (i : Instr) (h : W64) (pay : List (W64 × Bool)) : Prop :=
      (s.sqFreeTo s.cur = true → (rd ≠ 0 → s.b.freeSlot.isSome = true) → Ends i s fun t => OnlyAccess s t ∧ SameMem u t ∧ t.b.pc = s.b.pc + 4 ∧
        t.b.buf = s.b.buf ++ [⟨.send ⟨h, h1, pay.map Prod.fst, pay.map Prod.snd⟩ (slot.map fun k => (s.cur, k)), some (coreOf s.cur), bankNo s.cur == 4⟩] ∧
        (∀ k, slot = some k → t.b.slots = s.b.slots.add k ∧ FMap.get 0 t.b.slotJob k = s.jid) ∧ (slot = none → t.b.slots = s.b.slots) ∧
        OnlyX rd s.b { t.b with buf := s.b.buf, slots := s.b.slots, slotJob := s.b.slotJob } ∧ HoldsX rd (w64 (slot.getD 0)) false t.b) ∧
      (s.sqFreeTo s.cur = false ∨ (rd ≠ 0 ∧ s.b.freeSlot = none) → Ends i s fun t => SqFull h { u with clusters := t.clusters } t)
    (fld v 55 1 = 0 → s.mishap = .none → (0 < n → s.b.poisX rs2 = false) → payPlaces rs2 n 0 (s.b.getX rs2) s = .ok u ps → u.Calm →
      let pay := ps.map fun q => (u.dwAt q.2.1, u.poisAt q.2.1 8)
      buffers (.send rd rs1 rs2) v pay ∧ buffers (.sendu rd rs1 rs2) (v ||| (1#64 <<< 55)) pay) ∧
    (u = s → vs2.val + (n + 3) / 4 ≤ 15 → vs2 ≠ 15 →
      buffers (.sendv rd rs1 vs2) v ((List.range n).map fun i => (dwOf (s.b.getV (vs2 + i / 4)) (i % 4), dwPois (s.b.poisV (vs2 + i / 4)) (i % 4))))) ∧
  (∀ (s : State) (rd rs1 rs2 : Reg), s.b.poisX rs1 = false → s.b.poisX rs2 = false →
    let h := s.b.getX rs1
    let bad := fld h 63 1 = 1 ∨ fld h 56 1 = 1 ∨ 32 < fld h 57 6
    let stray := fld h 28 15 ≠ s.jid ∨ s.inPlace s.jid (fld h 16 2) (fld h 18 6) = false
    let unknown := fld h 43 12 = 0xFFF ∨ ((s.jobAt s.jid).handler (fld h 43 12)).isNone = true
    (bad ∨ fld h 55 1 = 1 → Ends (.send rd rs1 rs2) s (TakesTrap 5 h s)) ∧ (bad → Ends (.sendu rd rs1 rs2) s (TakesTrap 5 h s)) ∧
    (¬ bad → fld h 0 16 = s.modid.toNat → stray → fld h 55 1 = 0 → Ends (.send rd rs1 rs2) s (TakesTrap 4 h s)) ∧
    (¬ bad → fld h 0 16 = s.modid.toNat → ¬ stray → unknown → fld h 55 1 = 0 → Ends (.send rd rs1 rs2) s (TakesTrap 5 h s))) ∧
  (∀ (s : State) (rs1 : Reg) (vs2 : VReg), vs2 ≠ 15 →
    let req := s.b.msg.m.h1
    let v := s.b.getX rs1
    let n := min (min (fld v 57 6) 32) (4 * (15 - vs2.val))
    (fld req 52 1 = 0 ∨ s.b.reply.isSome = true → Ends (.reply rs1 vs2) s (WritesPc (s.b.pc + 4) s)) ∧
    (fld req 52 1 = 1 → s.b.reply = none → Ends (.reply rs1 vs2) s fun t => OnlyBank s t ∧ SameMem s t ∧ t.b.pc = s.b.pc + 4 ∧
      { t.b with reply := none, pc := s.b.pc } = s.b ∧ ∃ m, t.b.reply = some m ∧
        fld m.h0 0 16 = fld req 0 16 ∧ fld m.h0 16 2 = fld req 16 2 ∧ fld m.h0 18 6 = fld req 18 6 ∧ fld m.h0 24 4 = fld req 24 4 ∧
        fld m.h0 56 1 = 1 ∧ fld m.h1 48 4 = fld req 48 4 ∧ fld m.h1 53 3 = fld req 28 3 ∧ fld m.h1 52 1 = 0 ∧
        (s.b.poisX rs1 = true ∨ fld v 43 12 = 0xFFF → fld m.h0 43 12 = 0xFFF ∧ fld m.h0 57 6 = 0 ∧ m.pay = []) ∧
        (s.b.poisX rs1 = false → fld v 43 12 ≠ 0xFFF → fld m.h0 43 12 = fld v 43 12 ∧ fld m.h0 55 1 = fld v 55 1 ∧ fld m.h0 57 6 = n ∧
          m.pay = (List.range n).map (fun i => dwOf (s.b.getV (vs2 + i / 4)) (i % 4)) ∧
          m.pois = (List.range n).map fun i => dwPois (s.b.poisV (vs2 + i / 4)) (i % 4))))

/-- R197, R198: the counter updates are checked and buffered; CNTRD reads a counter of the own cluster. -/
def Obligations.CounterInstructions : Prop :=
  ∀ (s : State) (rd rs1 rs2 : Reg), s.b.poisX rs1 = false → s.b.poisX rs2 = false →
    let r := s.b.getX rs1
    let a := s.b.getX rs2
    let c := fld r 0 12
    let own := fld r 20 1 = 1
    let ck := if own then s.ck else fld r 18 2 * 64 + fld r 12 6
    let low : W32 := .ofNat 32 a.toNat
    let updates (i : Instr) (op : CntOp) : Prop := fld r 21 43 = 0 → c < (s.jobAt s.jid).img.allot →
      (¬ own ∧ s.inPlace s.jid (fld r 18 2) (fld r 12 6) = false → Ends i s (TakesTrap 4 r s)) ∧
      (own ∨ s.inPlace s.jid (fld r 18 2) (fld r 12 6) = true →
        (s.sqFreeTo s.cur = true → Ends i s fun t => OnlyBank s t ∧ SameMem s t ∧
          t.b = { s.b with pc := s.b.pc + 4, buf := s.b.buf ++ [⟨.cnt ck s.jid c op, some (coreOf s.cur), bankNo s.cur == 4⟩] }) ∧
        (s.sqFreeTo s.cur = false → Ends i s (SqFull r s)))
    updates (.cntadd rs1 rs2) (.add low) ∧ updates (.cntset rs1 rs2) (.set low) ∧
    (low ≠ 0 → updates (.cntarm rs1 rs2) (.arm low (fld a 32 1 == 1))) ∧
    (low = 0 → fld r 21 43 = 0 → c < (s.jobAt s.jid).img.allot → own ∨ s.inPlace s.jid (fld r 18 2) (fld r 12 6) = true →
      Ends (.cntarm rs1 rs2) s (TakesTrap 5 a s)) ∧
    (fld r 21 43 ≠ 0 ∨ (s.jobAt s.jid).img.allot ≤ c → ∀ i ∈ [Instr.cntadd rs1 rs2, .cntset rs1 rs2, .cntarm rs1 rs2], Ends i s (TakesTrap 5 r s)) ∧
    (fld r 13 51 = 0 → c < (s.jobAt s.jid).img.allot → let k := s.counterAt (cntKey s.ck s.jid c)
      Ends (.cntrd rd rs1) s (WritesX rd (if fld r 12 1 = 1 then w64 (k.fires.toNat * 2 ^ 32 + k.thresh.toNat)
        else w64 (k.armed.toNat * 2 ^ 63 + k.rearm.toNat * 2 ^ 62 + k.act.toNat * 2 ^ 60 + k.hid.toNat * 2 ^ 32 + k.count.toNat)) false (s.b.pc + 4) s))

/-- R162, R171, R185: ENDH without poison releases the buffered effects in order, then its reply, or a null reply where one is owed, and frees the bank; with
PSN or CHK set it raises CHECK, with the masked window closed before (log entry 17). R171, R344, R346: ABORTH drops the buffered effects and frees the bank;
with v[0] = 1, under the retry limit, the message stands again at the head of its queue with TRY one higher; else, past the limit too, it goes to the job's error
handler, behind its queue, with the abort word, X(rs1) and MHDR0 before words 0 to 28; where there is no error handler, or it is the error handler that aborts, the
message is dropped and counted, and a reply owed is a null reply. R171: both wait for the loads that are outstanding, and in every other state both complete. -/
def Obligations.EndAndAbort : Prop :=
  (∀ (s : State) (rs1 : Reg),
    (s.b.loads ≠ [] → ∀ i ∈ [Instr.endh, .aborth rs1], Ends i s fun t => t = s) ∧
    (s.b.loads = [] → s.b.chki &&& 3 = 0 → Ends .endh s fun t => SameMem s t ∧ (t.bankAt s.cur).st = .free ∧ (t.bankAt s.cur).buf = []) ∧
    (s.b.loads = [] → Ends (.aborth rs1) s fun t => (t.bankAt s.cur).st = .free ∧ (t.bankAt s.cur).buf = [] ∧ t.counters = s.counters ∧
      ∀ p ∈ t.pend, p ∈ s.pend)) ∧
  (∀ (s : State), s.b.loads = [] →
    (s.b.chki &&& 3 ≠ 0 → Ends .endh s fun t => t.b.tcause = 0xB ∧ t.b.tval = s.b.chki ∧ t.b.service = true ∧ t.b.maskOn = false ∧ SameMem s t ∧
      t.b.buf = s.b.buf ∧ t.flight = s.flight) ∧
    (s.b.chki &&& 3 = 0 → (∀ e ∈ s.b.buf, ∀ m sl, e.eff = .send m sl → s.isLocal m = true) → (∀ m, s.b.reply = some m → s.isLocal m = true) →
      (s.b.reply = none → fld s.b.msg.m.h1 52 1 = 1 → fld s.b.msg.m.h1 0 16 = s.modid.toNat) →
      Ends .endh s fun t => SameMem s t ∧ t.pend = s.pend ∧ (t.bankAt s.cur).st = .free ∧ (t.bankAt s.cur).buf = [] ∧ (t.bankAt s.cur).maskOn = false ∧
        (∀ bk k, s.b.msg.slot = some (bk, k) → (t.bankAt bk).slots.has k = false) ∧
        (match s.b.reply with
          | some m => t.flight = s.flight ++ s.b.buf.map (unitOfEffect s) ++ [.reply (coreOf s.cur) s.actKey m]
          | none =>
            (fld s.b.msg.m.h1 52 1 = 0 → t.flight = s.flight ++ s.b.buf.map (unitOfEffect s)) ∧
            (fld s.b.msg.m.h1 52 1 = 1 → ∃ src act m, t.flight = s.flight ++ s.b.buf.map (unitOfEffect s) ++ [.reply src act m] ∧ fld m.h0 43 12 = 0xFFF ∧
              fld m.h0 57 6 = 0 ∧ fld m.h1 48 4 = fld s.b.msg.m.h1 48 4 ∧ fld m.h1 53 3 = fld s.b.msg.m.h1 28 3)))) ∧
  (∀ (s : State) (rs1 : Reg), s.b.loads = [] → s.assisted 8 = false → (∀ e ∈ s.b.buf, ∀ m sl, e.eff = .send m sl → sl = none) → s.b.wait = .none →
    let again := s.b.poisX rs1 = true ∨ fld (s.b.getX rs1) 0 1 = 1
    let tries := fld s.b.msg.m.h1 32 3
    let q := s.b.msg
    let j := s.jobAt q.job
    let val : W64 := if s.b.poisX rs1 then 0 else s.b.getX rs1
    let ends (t : State) : Prop := (t.bankAt s.cur).st = .free ∧ (t.bankAt s.cur).buf = [] ∧ SameMem s t ∧
      ∀ p, p ∈ t.pend ↔ p ∈ s.pend ∧ ¬ (p.act = s.actKey ∧ ∃ k, p.op = .load k)
    (¬ (again ∧ tries < (s.jobAt s.b.job).retry) → j.errh ≠ 0xFFF → q.hid ≠ j.errh → j.errh < 4096 → q.job < 32768 → s.b.hid < 4096 →
      j.gone = false → j.jstate ≠ 0 → (s.unitAt (unitOf 9 s.ck 0)).st ≠ .retired → j.placedOn s.ck = true → j.section s.ck q.urg.toNat = [] →
      s.spaceUsed s.ck q.job q.urg < spaceDepth j q.urg → Ends (.aborth rs1) s fun t => ends t ∧ t.flight = s.flight ∧ t.jobs = s.jobs ∧
        ∃ m, (t.clusterAt s.ck).queue = (s.clusterAt s.ck).queue ++ [⟨q.job, j.errh, q.urg, none, true, none, m⟩] ∧ m.h1 = q.m.h1 ∧
          m.pay = w64 (((s.b.pc.toNat + 2 ^ 32 - 0x100000) % 2 ^ 32) * 2 ^ 32 + s.b.hid * 2 ^ 20 + (if 29 < q.m.pay.length then 2 ^ 19 else 0) +
            tries * 2 ^ 16 + fld val 8 8 * 2 ^ 8) :: val :: q.m.h0 :: q.m.pay.take 29 ∧
          m.pois = false :: false :: false :: q.m.pois.take 29 ∧ fld m.h0 43 12 = j.errh ∧ fld m.h0 55 1 = q.urg.toNat ∧ fld m.h0 28 15 = q.job ∧
          fld m.h0 24 4 = 15) ∧
    (again → tries < (s.jobAt s.b.job).retry → Ends (.aborth rs1) s fun t => ends t ∧ t.flight = s.flight ∧
      ∃ y, (t.clusterAt s.ck).queue = y :: (s.clusterAt s.ck).queue ∧ fld y.m.h1 32 3 = (tries + 1) % 8 ∧ y.m.h0 = q.m.h0 ∧
        y.m.pay = q.m.pay ∧ y.job = q.job ∧ y.hid = q.hid) ∧
    (¬ (again ∧ tries < (s.jobAt s.b.job).retry) → j.errh = 0xFFF ∨ q.hid = j.errh → Ends (.aborth rs1) s fun t => ends t ∧
      (t.clusterAt s.ck).queue = (s.clusterAt s.ck).queue ∧ (t.jobAt q.job).errDrop = j.errDrop + 1 ∧
      (fld q.m.h1 52 1 = 0 → t.flight = s.flight) ∧
      (fld q.m.h1 52 1 = 1 → fld q.m.h1 0 16 = s.modid.toNat → ∃ src act m, t.flight = s.flight ++ [.reply src act m] ∧ fld m.h0 43 12 = 0xFFF ∧
        fld m.h0 57 6 = 0 ∧ fld m.h1 48 4 = fld q.m.h1 48 4 ∧ fld m.h1 53 3 = fld q.m.h1 28 3)))

/-- R199 to R204, R207: the element operations on each element that is written, in the integer types, in the float types (`FF.result` is the exact value
rounded under RNDM with its flags, R202), and bitwise in every type; the second operand is a vector, a scalar or an immediate (R201). An element is written
where it is live and its predicate bit is set. R203, R94: an element is live where masking is off, or where its group is active and its position is below the
group's length. Masking looks at the groups that VCFG.LGS makes (log entry 21). -/
def Obligations.VectorArithmetic : Prop :=
  (∀ (s : State) (p : PReg) (vs1 vs2 vd : VReg) (rs2 : Reg) (imm : BitVec 5), s.mishap = .none →
    let w := s.b.ew
    let r := s.b.readV vs1
    let q := r.1.readV vs2
    let on (j : Nat) : Bool := s.b.live j && (p == 0 || (s.b.p.get 0 p).getLsbD (j * w / 8))
    let lanes (i : Instr) (b : Bank) (y : Nat → Nat × Bool) (f : Nat → Nat → Nat → Nat × Flags) (third : Bool) : Prop :=
      Ends i s (Lanes vd w (fun j => if on j then
        let x := f (elem r.2.1 w j) (y j).1 (elem (s.b.getV vd) w j)
        some ⟨x.1, x.2, elemPois r.2.2 w j || (y j).2 || (third && elemPois (s.b.poisV vd) w j)⟩ else none) b s)
    let yv (j : Nat) : Nat × Bool := (elem q.2.1 w j, elemPois q.2.2 w j)
    let yx (_ : Nat) : Nat × Bool := ((s.b.getX rs2).toNat % 2 ^ w, s.b.poisX rs2)
    let yi (_ : Nat) : Nat × Bool := ((match s.b.ety with | .flt f => (f.ofVal .rne (Val.ofInt imm.toInt)).1 | _ => (imm.toInt % 2 ^ w).toNat), false)
    let three (vv vx vi : Instr) (f : Nat → Nat → Nat × Flags) : Prop :=
      lanes vv q.1 yv (fun x y _ => f x y) false ∧ lanes vx r.1 yx (fun x y _ => f x y) false ∧ lanes vi r.1 yi (fun x y _ => f x y) false
    let signed (x : Nat) : Int := (x : Int).bmod (2 ^ w)
    (s.b.ety.isInt = true →
      let uns := s.b.ety = .uint
      let int (x : Nat) : Int := if uns then x else signed x
      let lo : Int := if uns then 0 else -(2 ^ (w - 1))
      let hi : Int := if uns then 2 ^ w - 1 else 2 ^ (w - 1) - 1
      let fits (z : Int) : Nat × Flags :=
        if s.b.satm then ((max lo (min hi z) % 2 ^ w).toNat, if z < lo ∨ hi < z then 0x10 else 0) else ((z % 2 ^ w).toNat, 0)
      three (.vaddVV p vs2 vs1 vd) (.vaddVX p rs2 vs1 vd) (.vaddVI p imm vs1 vd) (fun x y => fits (int x + int y)) ∧
      three (.vsubVV p vs2 vs1 vd) (.vsubVX p rs2 vs1 vd) (.vsubVI p imm vs1 vd) (fun x y => fits (int x - int y)) ∧
      three (.vmulVV p vs2 vs1 vd) (.vmulVX p rs2 vs1 vd) (.vmulVI p imm vs1 vd) (fun x y => fits (int x * int y)) ∧
      three (.vminVV p vs2 vs1 vd) (.vminVX p rs2 vs1 vd) (.vminVI p imm vs1 vd) (fun x y => ((min (int x) (int y) % 2 ^ w).toNat, 0)) ∧
      three (.vmaxVV p vs2 vs1 vd) (.vmaxVX p rs2 vs1 vd) (.vmaxVI p imm vs1 vd) (fun x y => ((max (int x) (int y) % 2 ^ w).toNat, 0)) ∧
      lanes (.vfma p vs2 vs1 vd) q.1 yv (fun x y z => fits (int z + int x * int y)) true ∧
      lanes (.vfms p vs2 vs1 vd) q.1 yv (fun x y z => fits (int z - int x * int y)) true ∧
      lanes (.vabs p vs1 vd) r.1 (fun _ => (0, false)) (fun x _ _ => fits (int x).natAbs) false ∧
      lanes (.vneg p vs1 vd) r.1 (fun _ => (0, false)) (fun x _ _ => fits (-int x)) false) ∧
    (∀ f, s.b.ety = .flt f →
      let v := f.value
      let m := s.b.mode
      three (.vaddVV p vs2 vs1 vd) (.vaddVX p rs2 vs1 vd) (.vaddVI p imm vs1 vd) (fun x y => f.result m ((v x).add m (v y)) [v x, v y]) ∧
      three (.vsubVV p vs2 vs1 vd) (.vsubVX p rs2 vs1 vd) (.vsubVI p imm vs1 vd) (fun x y => f.result m ((v x).add m (v y).negate) [v x, v y]) ∧
      three (.vmulVV p vs2 vs1 vd) (.vmulVX p rs2 vs1 vd) (.vmulVI p imm vs1 vd) (fun x y => f.result m ((v x).mul (v y)) [v x, v y]) ∧
      three (.vminVV p vs2 vs1 vd) (.vminVX p rs2 vs1 vd) (.vminVI p imm vs1 vd) (fun x y => (fltPick f false x y, 0)) ∧
      three (.vmaxVV p vs2 vs1 vd) (.vmaxVX p rs2 vs1 vd) (.vmaxVI p imm vs1 vd) (fun x y => (fltPick f true x y, 0)) ∧
      lanes (.vfma p vs2 vs1 vd) q.1 yv (fun x y z => f.result m ((v x).fma m (v y) (v z)) [v x, v y, v z]) true ∧
      lanes (.vfms p vs2 vs1 vd) q.1 yv (fun x y z => f.result m ((v x).negate.fma m (v y) (v z)) [v x, v y, v z]) true ∧
      lanes (.vabs p vs1 vd) r.1 (fun _ => (0, false)) (fun x _ _ => (if (v x).isNan then f.nan else x % 2 ^ (f.eb + f.fb), 0)) false ∧
      lanes (.vneg p vs1 vd) r.1 (fun _ => (0, false)) (fun x _ _ => (if (v x).isNan then f.nan else (x + 2 ^ (f.eb + f.fb)) % 2 ^ f.width, 0)) false) ∧
    three (.vandVV p vs2 vs1 vd) (.vandVX p rs2 vs1 vd) (.vandVI p imm vs1 vd) (fun x y => (x &&& y, 0)) ∧
    three (.vorVV p vs2 vs1 vd) (.vorVX p rs2 vs1 vd) (.vorVI p imm vs1 vd) (fun x y => (x ||| y, 0)) ∧
    three (.vxorVV p vs2 vs1 vd) (.vxorVX p rs2 vs1 vd) (.vxorVI p imm vs1 vd) (fun x y => (x ^^^ y, 0)) ∧
    three (.vshlVV p vs2 vs1 vd) (.vshlVX p rs2 vs1 vd) (.vshlVI p imm vs1 vd) (fun x y => (if w ≤ y then 0 else x * 2 ^ y % 2 ^ w, 0)) ∧
    three (.vshrVV p vs2 vs1 vd) (.vshrVX p rs2 vs1 vd) (.vshrVI p imm vs1 vd) (fun x y => (if w ≤ y then 0 else x / 2 ^ y, 0)) ∧
    three (.vsraVV p vs2 vs1 vd) (.vsraVX p rs2 vs1 vd) (.vsraVI p imm vs1 vd) (fun x y => ((signed x / 2 ^ min y (w - 1) % 2 ^ w).toNat, 0))) ∧
  (∀ (b : Bank) (j : Nat), fld b.vcfg 6 2 ≠ 3 →
    let n := 2 ^ fld b.vcfg 6 2
    let m := 256 / n / b.ew
    let g := j / m
    let masked := ∃ k, k < n ∧ (b.lgact.getLsbD k = true ∨ b.lgact.getLsbD (4 + k) = true)
    b.groups = n ∧ b.perGroup = m ∧
    (b.live j = true ↔ ¬ masked ∨ (b.lgact.getLsbD g = true ∧ j % m < b.lglen.toNat / 2 ^ (16 * g) % 2 ^ 16)))

/-- R208: a comparison writes all bits of the predicate: those of a live element by the condition, poisoned elements as false with CHKI.PSN, the others as
false. R209: selection by bytes, permutation, broadcast, and a doubleword moved to X(rd). An element of VSEL is poisoned by what its bytes come from (log entry
47). -/
def Obligations.VectorCompareAndMoves : Prop :=
  (∀ (s : State) (pd : PReg) (vs1 vs2 : VReg) (rs2 : Reg) (imm : BitVec 5) (cc : Cond), s.mishap = .none →
    let w := s.b.ew
    let r := s.b.readV vs1
    let q := r.1.readV vs2
    let gives (i : Instr) (b : Bank) (y : Nat → Nat × Bool) : Prop :=
      let bad (j : Nat) : Bool := elemPois r.2.2 w j || (y j).2
      let holds (j : Nat) : Prop :=
        let x := elem r.2.1 w j
        let z := (y j).1
        let sx (k : Nat) : Int := (k : Int).bmod (2 ^ w)
        match cc with
        | .ltu => x < z | .leu => x ≤ z | .gtu => z < x | .geu => z ≤ x
        | cc => match s.b.ety with
          | .flt f => if (f.value x).isNan ∨ (f.value z).isNan then cc = .ne ∨ cc = .unord else ordCond cc ((f.value x).cmp (f.value z)) = true
          | .uint => ordCond cc (if x < z then -1 else if x = z then 0 else 1) = true
          | .sint => ordCond cc (if sx x < sx z then -1 else if sx x = sx z then 0 else 1) = true
      Ends i s fun t => OnlyBank s t ∧ SameMem s t ∧ t.b.pc = s.b.pc + 4 ∧ t.b.cursor = b.cursor ∧
        { t.b with p := s.b.p, chki := s.b.chki, cursor := s.b.cursor, pc := s.b.pc } = s.b ∧
        (∀ k, k ≠ pd → t.b.getP k = s.b.getP k) ∧
        (pd ≠ 0 → ∀ j, j < 256 / w → ∀ k, k < w / 8 →
          ((t.b.getP pd).getLsbD (w / 8 * j + k) = true ↔ s.b.live j = true ∧ bad j = false ∧ holds j)) ∧
        t.b.chki = (if (List.range (256 / w)).any (fun j => s.b.live j && bad j) then (if b.chki &&& 3 = 0 then 0x201 else b.chki ||| 1) else b.chki)
    gives (.vcmpVV pd vs2 vs1 cc) q.1 (fun j => (elem q.2.1 w j, elemPois q.2.2 w j)) ∧
    gives (.vcmpVX pd rs2 vs1 cc) r.1 (fun _ => ((s.b.getX rs2).toNat % 2 ^ w, s.b.poisX rs2)) ∧
    gives (.vcmpVI pd imm vs1 cc) r.1 (fun _ => ((match s.b.ety with | .flt f => (f.ofVal .rne (Val.ofInt imm.toInt)).1 | _ => (imm.toInt % 2 ^ w).toNat), false))) ∧
  (∀ (s : State) (p : PReg) (vs1 vs2 vd : VReg) (rd rs2 : Reg) (imm : BitVec 5) (k : Fin 4), s.mishap = .none →
    let w := s.b.ew
    let r := s.b.readV vs1
    let q := r.1.readV vs2
    let byte (v : V256) (i : Nat) : Nat := v.toNat / 2 ^ (8 * i) % 256
    let bits (j : Nat) : List Nat := (List.range (w / 8)).map fun i => w / 8 * j + i
    (Ends (.vsel p vs2 vs1 vd) s fun t =>
      ∃ el : Nat → Option El, Lanes vd w el q.1 s t ∧ ∀ j, j < 256 / w → if s.b.live j then
        ∃ x, el j = some x ∧ x.fl = 0 ∧ (∀ i, i < w / 8 → x.bits / 2 ^ (8 * i) % 256 = byte (if (s.b.getP p).getLsbD (w / 8 * j + i) then r.2.1 else q.2.1) (w / 8 * j + i)) ∧
          x.p = (((bits j).any (fun i => (s.b.getP p).getLsbD i) && elemPois r.2.2 w j) || ((bits j).any (fun i => !(s.b.getP p).getLsbD i) && elemPois q.2.2 w j))
        else el j = none) ∧
    Ends (.vperm p vs2 vs1 vd) s (Lanes vd w (fun j => if s.b.writes p j then
      let i := elem q.2.1 w j % (256 / w); some ⟨elem r.2.1 w i, 0, elemPois r.2.2 w i || elemPois q.2.2 w j⟩ else none) q.1 s) ∧
    Ends (.vbcastX p rs2 vd) s (Lanes vd w (fun j => if s.b.writes p j then some ⟨(s.b.getX rs2).toNat % 2 ^ w, 0, s.b.poisX rs2⟩ else none) s.b s) ∧
    Ends (.vbcastI p imm vd) s (Lanes vd w (fun j => if s.b.writes p j then
      some ⟨(match s.b.ety with | .flt f => (f.ofVal .rne (Val.ofInt imm.toInt)).1 | _ => (imm.toInt % 2 ^ w).toNat), 0, false⟩ else none) s.b s) ∧
    Ends (.vmovx rd vs1 k) s fun t => OnlyBank s t ∧ SameMem s t ∧ t.b.pc = s.b.pc + 4 ∧ OnlyX rd r.1 t.b ∧
      HoldsX rd (w64 (r.2.1.toNat / 2 ^ (64 * k.val) % 2 ^ 64)) (r.2.2.getLsbD (2 * k.val) || r.2.2.getLsbD (2 * k.val + 1)) t.b)

/-- R210, R202: a reduction of a group that is worked on leaves its combination, in increasing element order, in the group's lowest element and zeros in the
others; an integer sum saturates at each step under SATM = 1; a group that is not worked on keeps its elements. -/
def Obligations.VectorReductions : Prop :=
  ∀ (s : State) (p : PReg) (vs1 vd : VReg), s.mishap = .none →
    let w := s.b.ew
    let m := s.b.perGroup
    let r := s.b.readV vs1
    let mine (g : Nat) : List Nat := ((List.range m).map fun i => g * m + i).filter (s.b.writes p)
    let runs (i : Instr) (f : List Nat → Nat × Flags) : Prop :=
      Ends i s (Lanes vd w (fun j =>
        if s.b.masking && !s.b.lgact.getLsbD (j / m) then none
        else if j % m = 0 then let x := f ((mine (j / m)).map fun j => elem r.2.1 w j); some ⟨x.1, x.2, (mine (j / m)).any fun j => elemPois r.2.2 w j⟩
        else some ⟨0, 0, false⟩) r.1 s)
    (∀ u, s.b.ety = u → u.isInt = true →
      let int (x : Nat) : Int := if u = .uint then x else (x : Int).bmod (2 ^ w)
      let lo : Int := if u = .uint then 0 else -(2 ^ (w - 1))
      let hi : Int := if u = .uint then 2 ^ w - 1 else 2 ^ (w - 1) - 1
      let code (z : Int) : Nat × Flags := ((z % 2 ^ w).toNat, 0)
      (s.b.satm = false → runs (.vredadd p vs1 vd) (fun xs => code (xs.foldl (fun a x => a + int x) 0))) ∧
      (s.b.satm = true → runs (.vredadd p vs1 vd) (fun xs =>
        let y := xs.foldl (fun (a : Int × Flags) x => (max lo (min hi (a.1 + int x)), if a.1 + int x < lo ∨ hi < a.1 + int x then 0x10 else a.2)) (0, 0)
        ((y.1 % 2 ^ w).toNat, y.2))) ∧
      runs (.vredmax p vs1 vd) (fun xs => code (xs.foldl (fun a x => max a (int x)) lo)) ∧
      runs (.vredmin p vs1 vd) (fun xs => code (xs.foldl (fun a x => min a (int x)) hi))) ∧
    (∀ f, s.b.ety = .flt f →
      let sum (xs : List Nat) : Nat × Flags := match xs with
        | [] => (0, 0)
        | x :: t => t.foldl (fun (a : Nat × Flags) y =>
          let z := f.result s.b.mode ((f.value a.1).add s.b.mode (f.value y)) [f.value a.1, f.value y]; (z.1, a.2 ||| z.2)) (x, 0)
      let canon (x : Nat × Flags) : Nat × Flags := (if (f.value x.1).isNan then f.nan else x.1, x.2)
      runs (.vredadd p vs1 vd) (fun xs => canon (sum xs)) ∧
      runs (.vredmax p vs1 vd) (fun xs => canon (xs.foldl (fltPick f true) (f.signed true (f.top + 1)), 0)) ∧
      runs (.vredmin p vs1 vd) (fun xs => canon (xs.foldl (fltPick f false) (f.top + 1), 0)))

/-- R70 to R78: what the conversions give, by element, by block (R60) and by row chunk. R58 to R60: a shared-exponent block that was formed without INX and
QNTF holds its sixteen sources exactly. -/
def Obligations.VectorConversions : Prop :=
  (∀ (s : State) (dst src : Fmt) (rm : RCode) (vr vs vd : VReg) (k : Sx) (four : Bool), s.mishap = .none →
    let r := s.b.readV vs
    let q := r.1.readV vr
    let v := r.2.1.toNat
    let ws := fmtWidth src
    let wd := fmtWidth dst
    let n := 256 / max ws wd
    let mode := rcMode rm s.b
    let cvt (m : Nat → RM) (p : Nat → Bool) (j : Nat) : Option El :=
      if j < n then let x := fmtOf dst (m j) (fmtValue src (v / 2 ^ (ws * j) % 2 ^ ws)); some ⟨x.1, x.2, elemPois r.2.2 ws j || p j⟩ else some ⟨0, 0, false⟩
    let kb := match k with | .sx2 => 2 | .sx4 => 4 | .sx7 => 7
    let blk := quantise kb (fun _ => mode) ((List.range 16).map fun j => FF.bf16.value (v / 2 ^ (16 * j) % 2 ^ 16))
    let w := if four then 4 else 8
    let h := (s.b.getV vd).toNat % 2 ^ 32
    let code (j : Nat) := rowCode mode (2 ^ w - 1) (FF.fp16.value (h % 65536)) (FF.fp16.value (h / 65536)) (FF.fp32.value (v / 2 ^ (32 * j) % 2 ^ 32))
    Ends (.vcvt dst src rm vs vd) s (Lanes vd wd (cvt (fun _ => mode) fun _ => false) r.1 s) ∧
    Ends (.vcvtsr dst src vr vs vd) s (Lanes vd wd (cvt (fun j => .sr (elem q.2.1 (256 / n) j) (256 / n)) fun j => elemPois q.2.2 (256 / n) j) q.1 s) ∧
    Ends (.vqsx k rm vs vd) s (Words vd (fun i => (blk.1.bits kb / 2 ^ (32 * i) % 2 ^ 32, decide (4 * i < 2 + 2 * (kb + 1)) && r.2.2 != 0)) blk.2 r.1 s) ∧
    Ends (.vdqsx k rm vs vd) s (Lanes vd 16 (fun j => some ⟨(FF.bf16.ofVal .rne (blockVal kb v j)).1, 0,
      r.2.2.getLsbD 0 || r.2.2.getLsbD ((16 + (kb + 1) * j) / 32) || r.2.2.getLsbD ((16 + (kb + 1) * j + kb) / 32)⟩) r.1 s) ∧
    (vd ≠ 15 → Ends (.vqrow four rm vs vd) s fun t => OnlyBank s t ∧ SameMem s t ∧ OnlyV vd r.1 t.b ∧ t.b.pc = s.b.pc + 4 ∧
      (t.b.getV vd).toNat % 2 ^ 32 = h ∧ (∀ j, j < 8 → (t.b.getV vd).toNat / 2 ^ (32 + w * j) % 2 ^ w = (code j).1) ∧
      (t.b.getV vd).toNat < 2 ^ (32 + 8 * w) ∧
      (∀ i, t.b.aflags.getLsbD i = (s.b.aflags.getLsbD i || (List.range 8).any fun j => (code j).2.getLsbD i)) ∧
      ((s.b.poisV vd).getLsbD 0 = true → ∀ i, i ≤ 8 * w / 32 → (t.b.poisV vd).getLsbD i = true)) ∧
    Ends (.vdqrow four rm vs vd) s (Lanes vd 32 (fun j =>
      let x := Val.ofInt (v / 2 ^ (32 + w * j) % 2 ^ w : Nat)
      let sg := FF.fp16.value (v % 65536)
      let om := FF.fp16.value (v / 65536 % 65536)
      let c := FF.fp32.result mode (sg.fma mode x om) [sg, x, om]
      some ⟨c.1, c.2, r.2.2.getLsbD 0 || r.2.2.getLsbD (1 + w * j / 32)⟩) r.1 s)) ∧
  (∀ (k : Sx) (mode : RM) (c : Nat → Nat), (∀ j, (FF.bf16.value (c j)).isFin = true) →
    let kb := match k with | .sx2 => 2 | .sx4 => 4 | .sx7 => 7
    let q := quantise kb (fun _ => mode) ((List.range 16).map fun j => FF.bf16.value (c j))
    q.2 &&& 0x08 = 0 → ∀ j, j < 16 → (blockVal kb (q.1.bits kb) j).cmp (FF.bf16.value (c j)) = 0)

/-- R211, R212, R205, R35: what the special functions give, for each element that is written: at NaN, zeros, infinities, negative numbers and beyond the range of
the sine and the cosine, with their flags; the exact result, without INX, wherever R211 calls for it; INX at every other argument, and there, of 1/x and 1/√x in
FP32, one of the two numbers beside the exact value; FP16 and BF16 round the FP32 result once more. ILLEGAL in an integer type. Which of the numbers within the
bound of R211 a result is, and the results at +∞ that R212 leaves out, are free values (log entry 9). -/
def Obligations.SpecialFunctions : Prop :=
  (∀ (s : State) (p : PReg) (vs1 vd : VReg), s.mishap = .none →
    let w := s.b.ew
    let r := s.b.readV vs1
    let mode := s.b.mode
    let f32 := FF.fp32
    let one : Val := .fin false 1 1
    let zero : Val := .fin false 0 1
    let is (v : Val) (fl : Flags) : Option (Nat × Flags) := some ((f32.ofVal mode v).1, fl)
    let inv := is .nan 1
    let exact (neg : Bool) (m : Mag) : Option (Nat × Flags) := if (f32.round mode neg m).2.getLsbD 3 then none else some ((f32.round mode neg m).1, 0)
    (∀ g, s.b.ety = .flt g →
      let gives (i : Instr) (value : Val → Option (Bool × Mag)) (row : Val → Option (Nat × Flags)) : Prop :=
        Ends i s fun t => ∃ el : Nat → Option El, Lanes vd w el r.1 s t ∧ ∀ j, j < 256 / w →
          let a := g.value (elem r.2.1 w j)
          if s.b.writes p j then ∃ x, el j = some x ∧ x.p = elemPois r.2.2 w j ∧ (a.isNan = true → x.bits = g.nan ∧ x.fl = 0) ∧
            (∀ c, row a = some c → if g = f32 then x.bits = c.1 ∧ x.fl = c.2
              else x.bits = (g.ofVal mode (f32.value c.1)).1 ∧ x.fl = (g.ofVal mode (f32.value c.1)).2 ||| c.2) ∧
            (a.isNan = false → row a = none → x.fl.getLsbD 3 = true ∧ ∀ neg m, value a = some (neg, m) → g = f32 →
              let lo := (f32.round .rtz false m).1
              lo < 0x7F7FFFFF → x.bits = f32.signed neg lo ∨ x.bits = f32.signed neg (lo + 1))
          else el j = none
      let free : Val → Option (Bool × Mag) := fun _ => none
      gives (.vexp2 p vs1 vd) free (fun a => match a with
        | .fin neg n d => if n % d = 0 ∧ n ≤ 2000 * d then exact false (Mag.dyad 1 (if neg then -(n / d : Nat) else (n / d : Nat))) else none
        | .inf neg => is (if neg then zero else .inf false) 0
        | .nan => none) ∧
      gives (.vexp p vs1 vd) free (fun a => match a with
        | .fin _ n _ => if n = 0 then is one 0 else none
        | .inf neg => is (if neg then zero else .inf false) 0
        | .nan => none) ∧
      gives (.vlog2 p vs1 vd) free (fun a => match a with
        | .fin neg n d => if n = 0 then is (.inf true) 0 else if neg then inv
            else if (scaleDown n d (ratLog2 n d)).1 = (scaleDown n d (ratLog2 n d)).2 then is (Val.ofInt (ratLog2 n d)) 0 else none
        | .inf neg => if neg then inv else none
        | .nan => none) ∧
      gives (.vlog p vs1 vd) free (fun a => match a with
        | .fin neg n d => if n = 0 then is (.inf true) 0 else if neg then inv else if n = d then is zero 0 else none
        | .inf neg => if neg then inv else none
        | .nan => none) ∧
      gives (.vsin p vs1 vd) free (fun a => match a with
        | .fin neg n d => if n = 0 then is (.fin neg 0 1) 0 else if beyond n d then is .nan 0x20 else none
        | .inf _ => inv
        | .nan => none) ∧
      gives (.vcos p vs1 vd) free (fun a => match a with
        | .fin _ n d => if n = 0 then is one 0 else if beyond n d then is .nan 0x20 else none
        | .inf _ => inv
        | .nan => none) ∧
      gives (.vrcp p vs1 vd) (fun a => match a with | .fin neg n d => some (neg, .rat d n) | _ => none) (fun a => match a with
        | .fin neg n d => if n = 0 then is (.inf neg) 0 else exact neg (.rat d n)
        | .inf neg => is (.fin neg 0 1) 0
        | .nan => none) ∧
      gives (.vrsqrt p vs1 vd) (fun a => match a with | .fin _ n d => some (false, .sqrt d n) | _ => none) (fun a => match a with
        | .fin neg n d => if n = 0 then is (.inf neg) 0 else if neg then inv else exact false (.sqrt d n)
        | .inf neg => if neg then inv else none
        | .nan => none) ∧
      gives (.vsig p vs1 vd) free (fun a => match a with
        | .fin _ n _ => if n = 0 then is (.fin false 1 2) 0 else none
        | .inf neg => is (if neg then zero else one) 0
        | .nan => none) ∧
      gives (.vtanh p vs1 vd) free (fun a => match a with
        | .fin neg n _ => if n = 0 then is (.fin neg 0 1) 0 else none
        | .inf neg => is (.fin neg 1 1) 0
        | .nan => none)) ∧
    (s.b.ety.isInt = true → ∀ i ∈ [Instr.vexp2 p vs1 vd, .vlog2 p vs1 vd, .vexp p vs1 vd, .vlog p vs1 vd, .vsin p vs1 vd, .vcos p vs1 vd,
      .vrcp p vs1 vd, .vrsqrt p vs1 vd, .vsig p vs1 vd, .vtanh p vs1 vd], ∃ word, encode i = some word ∧ Ends i s (TakesTrap 1 (w64 word) s))) ∧
  beyond 32941986 10 = false ∧ beyond 32941987 10 = true

/-- R213 to R215: the gate: its checks, the merge of the set of entries and lanes, ordered by code and then by expert, and the finish: {W, 0x80, EXP} for each valid entry, the raw weights
exact before they are rounded. R216: VREFILL: a poisoned step word of an active group traps; each active group's length drops by its step, a group that
reaches zero sets FIN and takes the top range of the job's view of the deque, of at most 65,535, or loses ACT where there is none; no steal request is on its way to
the core there, as steals may fall between its pops, but it completes beside them too. -/
def Obligations.TopKGateAndRefill : Prop :=
  (∀ (s : State) (p : PReg) (vs2 vs1 vd : VReg), s.mishap = .none →
    let r := s.b.readV vs1
    let q := r.1.readV vs2
    let ctl := dwOf q.2.1 0
    let k := fld ctl 8 4
    let op := fld ctl 12 2
    let i := Instr.vtopk p vs2 vs1 vd
    let dirty := q.2.2.getLsbD 0 = true ∨ q.2.2.getLsbD 1 = true
    let wrong := fld ctl 14 50 ≠ 0 ∨ k = 0 ∨ 8 < k ∨ op = 3 ∨ (op = 0 ∧ 248 < fld ctl 0 8)
    let old : List (Nat × Nat × Bool) := (List.range 8).filterMap fun e =>
      let x := elem (s.b.getV vd) 32 e
      if 2 ^ 31 ≤ x then some (x % 2 ^ 16, x / 2 ^ 16 % 256, (s.b.poisV vd).getLsbD e) else none
    let new : List (Nat × Nat × Bool) := (List.range 8).filterMap fun j =>
      let x := elem r.2.1 32 j
      if (s.b.getP p).getLsbD (4 * j) && !(FF.fp32.value x).isNan then
        some ((if x < 2 ^ 31 then x + 2 ^ 31 else 2 ^ 32 - 1 - x) / 2 ^ 16, fld ctl 0 8 + j, r.2.2.getLsbD j) else none
    let score (c : Nat) : Val := FF.bf16.value (if 2 ^ 15 ≤ c then c - 2 ^ 15 else 2 ^ 16 - 1 - c)
    (dirty → Ends i s (TakesTrap 0xE (w64 (32 + vs2.val)) s)) ∧
    (¬ dirty → wrong → Ends i s (TakesTrap 5 ctl s)) ∧
    let once : List (Nat × Nat × Bool) := (old ++ new).foldl (fun l a => if l.any fun x => x.1 == a.1 && x.2.1 == a.2.1 then l else l ++ [a]) []
    (¬ dirty → ¬ wrong → op = 0 → Ends i s fun t => ∃ l : List (Nat × Nat × Bool), l.Perm once ∧
      l.Pairwise (fun a b => b.1 < a.1 ∨ (a.1 = b.1 ∧ a.2.1 < b.2.1)) ∧
      Words vd (fun i => (match (l.take k)[i]? with | some a => 2 ^ 31 + a.2.1 * 2 ^ 16 + a.1 | none => 0, (old ++ new).any fun a => a.2.2)) 0 q.1 s t) ∧
    (¬ dirty → ¬ wrong → op ≠ 0 → Ends i s fun t => ∃ (wt : Nat → Nat) (fl : Flags), (∀ i, wt i < 2 ^ 16) ∧
      Words vd (fun i => (match old[i]? with | some a => wt i * 2 ^ 16 + 0x8000 + a.2.1 | none => 0, old.any fun a => a.2.2)) fl q.1 s t ∧
      (op = 2 → (old.any (fun a => !(score a.1).isFin) = true → fl = 1 ∧ ∀ i, i < old.length → wt i = 0x7FC0) ∧
        (old.any (fun a => !(score a.1).isFin) = false → let sum := old.foldl (fun v a => v.add .rne (score a.1)) (.fin false 0 1)
          ∀ i a, old[i]? = some a → wt i = (FF.bf16.ofVal s.b.mode (if sum.isZero then .fin false 1 old.length else (score a.1).div sum)).1)))) ∧
  (∀ (s : State) (vs2 vs1 vd : VReg) (lgs : Nat), fld s.b.vcfg 6 2 = lgs → lgs < 3 → vd ≠ 15 → s.mishap = .none →
    let n := 2 ^ lgs
    let r := s.b.readV vs1
    let q := r.1.readV vs2
    let dq := (s.coreAt (coreOf s.cur)).dq
    let group (v : V256) (g : Nat) : Nat := v.toNat / 2 ^ (256 / n * g) % 2 ^ (256 / n)
    let step (g : Nat) : Nat := group r.2.1 g % 2 ^ 16
    let act (b : Bank) (g : Nat) : Bool := b.lgact.getLsbD g
    let len (b : Bank) (g : Nat) : Nat := b.lglen.toNat / 2 ^ (16 * g) % 2 ^ 16
    let done (g : Nat) : Prop := act s.b g = true ∧ len s.b g ≤ step g
    let dirty := ∃ g, g < n ∧ act s.b g = true ∧ r.2.2.getLsbD (8 / n * g) = true
    let keeps (t : State) (g : Nat) : Prop := len t.b g = (if act s.b g then len s.b g - step g else len s.b g) ∧ act t.b g = act s.b g ∧
      t.b.lgact.getLsbD (4 + g) = s.b.lgact.getLsbD (4 + g) ∧ group (t.b.getV vd) g = group q.2.1 g
    let frame (t : State) : Prop := OnlyDeque s t ∧ SameMem s t ∧ t.b.pc = s.b.pc + 4 ∧
      { t.b with v := s.b.v, vp := s.b.vp, lglen := s.b.lglen, lgact := s.b.lgact, pc := s.b.pc, chki := s.b.chki, cursor := s.b.cursor } = s.b
    (dirty → Ends (.vrefill vs2 vs1 vd) s (TakesTrap 0xE (w64 (32 + vs1.val)) s)) ∧
    (¬ dirty → Ends (.vrefill vs2 vs1 vd) s fun t => SameMem s t ∧ t.b.pc = s.b.pc + 4) ∧
    (¬ dirty → (∀ g, g < n → ¬ done g) → Ends (.vrefill vs2 vs1 vd) s fun t => frame t ∧ (∀ g, g < n → keeps t g) ∧ (t.coreAt (coreOf s.cur)).dq = dq) ∧
    ((∀ f ∈ s.flight, s.stealHere f = false) → ¬ dirty → (∀ x ∈ dq, x.job ≠ s.jid) → Ends (.vrefill vs2 vs1 vd) s fun t => frame t ∧ (t.coreAt (coreOf s.cur)).dq = dq ∧ ∀ g, g < n →
      (¬ done g → keeps t g) ∧ (done g → len t.b g = 0 ∧ act t.b g = false ∧ t.b.lgact.getLsbD (4 + g) = true ∧ group (t.b.getV vd) g = group q.2.1 g)) ∧
    (∀ g pre x post, (∀ f ∈ s.flight, s.stealHere f = false) → ¬ dirty → g < n → done g → (∀ k, k < n → k ≠ g → ¬ done k) → dq = pre ++ x :: post → x.job = s.jid → (∀ y ∈ post, y.job ≠ s.jid) →
      x.lo < x.hi → x.hi < 2 ^ 32 → Ends (.vrefill vs2 vs1 vd) s fun t => frame t ∧ (∀ k, k < n → k ≠ g → keeps t k) ∧
        let hi := min x.hi (x.lo + 65535)
        len t.b g = hi - x.lo ∧ act t.b g = true ∧ t.b.lgact.getLsbD (4 + g) = true ∧ group (t.b.getV vd) g = hi * 2 ^ 32 + x.lo ∧
          (t.coreAt (coreOf s.cur)).dq = pre ++ post ++ (if hi < x.hi then [⟨hi, x.hi, s.jid⟩] else [])))

/-- R217, R86, R98: the vector loads and stores over the elements that are written, where nothing stalls; each element's address; nothing where none is. -/
def Obligations.VectorMemory : Prop :=
  ∀ (s : State) (p : PReg) (off : BitVec 4) (rs1 : Reg) (vk vd : VReg) (loc : Nat → Nat) (l : Nat), s.mishap = .none → s.b.poisX rs1 = false → s.Calm →
    l % 8 = 0 →
    let w := s.b.ew
    let n := w / 8
    let js := (List.range (256 / w)).filter (s.b.writes p)
    let base : Int := (s.b.getX rs1).toInt + 32 * off.toNat
    let strided (j : Nat) : Int := base + (s.b.vstr.toNat : Int).bmod (2 ^ 32) * j
    let k := s.b.readV vk
    let indexed (j : Nat) : Int := (s.b.getX rs1).toInt + n * (if s.b.ety = .uint then (elem k.2.1 w j : Int) else (elem k.2.1 w j : Int).bmod (2 ^ w))
    let placed (need : Need) (va : Int) (size at_ : Nat) : Prop := let a := (va % 2 ^ 64).toNat
      a % size = 0 ∧ s.reach need a = (s, .at at_) ∧ regionAt (s.jobAt s.jid).regions a = none
    let row (need : Need) : Prop := placed need base 32 l
    let ready (need : Need) (va : Nat → Int) : Prop := ∀ j ∈ js, placed need (va j) n (loc j)
    let loads (i : Instr) (b : Bank) (at_ : Nat → Nat) : Prop := Ends i s fun t => OnlyAccess s t ∧ SameMem s t ∧
      Elements vd w (fun j => if s.b.writes p j then some ⟨s.numAt (at_ j) n, 0, s.poisAt (at_ j) n⟩ else none)
        (b.psnIf (js.any fun j => s.poisAt (at_ j) n) 9) t.b
    let stores (i : Instr) (at_ : Nat → Nat) : Prop := Ends i s fun t => OnlyAccess s t ∧
      { t.b with chki := s.b.chki, cursor := s.b.cursor, pc := s.b.pc } = s.b ∧ t.b.cursor = k.1.cursor ∧ t.b.chki = k.1.chki ∧ t.b.pc = s.b.pc + 4 ∧
      (∀ a, (∀ j ∈ js, a < at_ j ∨ at_ j + n ≤ a) → t.byteAt a = s.byteAt a) ∧
      (∀ j ∈ js, (∀ i ∈ js, j < i → at_ i + n ≤ at_ j ∨ at_ j + n ≤ at_ i) → t.numAt (at_ j) n = elem k.2.1 w j)
    (js = [] → ∀ i ∈ [Instr.vld p off rs1 vd, .vst p off rs1 vk, .vlds p off rs1 vd, .vsts p off rs1 vk, .vldi p vk rs1 vd], Ends i s (WritesPc (s.b.pc + 4) s)) ∧
    (js ≠ [] →
      (row .read → loads (.vld p off rs1 vd) s.b fun j => l + n * j) ∧
      (ready .read strided → loads (.vlds p off rs1 vd) s.b loc) ∧
      (ready .read indexed → (∀ j ∈ js, elemPois k.2.2 w j = false) → loads (.vldi p vk rs1 vd) k.1 loc) ∧
      (row .write → stores (.vst p off rs1 vk) fun j => l + n * j) ∧
      (ready .write strided → stores (.vsts p off rs1 vk) loc))

/-- R347, R348, R351, R352: CTXSV writes the handler's state to the entry that its address names and frees the bank; CTXLD loads it and clears VALID; RESUME
takes a saved activation up in handler mode, with a parked access of the image left to reissue (R350, log entry 49); CHKERR reads CHKI or raises CHECK. CTXLD
waits for loads that are owed to the image, CHKERR for those outstanding, and CTXSV and CTXLD for those that service mode issued (log entry 49). -/
def Obligations.ContextsAreSavedAndLoaded : Prop :=
  ∀ (s : State) (rd rs1 : Reg) (ck i bk : Nat) (c : Cluster) (x : Saved), i < 256 →
    let dw (t : State) (k off : Nat) : W64 := t.dwAt (ctxLoc k (1024 * i + off))
    let valid (t : State) (k : Nat) : Prop := fld (dw t k 0) 63 1 = 1
    let zero (k : Nat) : Prop := s.numAt (ctxLoc k (1024 * i + 0x304)) 4 = 0 ∧ s.numAt (ctxLoc k (1024 * i + 0x398)) 104 = 0
    let names := (s.b.getX rs1).toNat = ctxBase s.ck + 1024 * i
    let settled := ∀ o ∈ s.b.loads, o.svc = false
    let left (w0 w1 : W64) : Option Redo := if fld w0 63 1 = 1 ∧ (fld w1 0 4 = 1 ∨ fld w1 0 4 = 3) ∧ fld w0 56 7 < 32 ∧ fld w1 4 4 % 8 < 4 then
      some ⟨fld w0 0 56, fld w1 0 4, fld w0 56 7, fld w1 4 4⟩ else none
    (s.b.service = true → settled → names → s.b.hid < 2 ^ 12 → s.b.job < 2 ^ 15 → Ends (.ctxsv rs1) s fun t =>
      t.b.st = .free ∧ valid t s.ck ∧ fld (dw t s.ck 0) 48 12 = s.b.hid ∧ fld (dw t s.ck 0) 33 15 = s.b.job ∧
      (∀ k, 0 < k → k < 32 → dw t s.ck (8 * k) = (if k < 8 then s.b.svc.get 0 k else s.b.x.get 0 k)) ∧
      (∀ k, k < 15 → t.numAt (ctxLoc s.ck (1024 * i + 0x100 + 32 * k)) 32 = (s.b.getV k).toNat) ∧
      dw t s.ck 0x308 = s.b.chki ∧ dw t s.ck 0x310 = s.b.aflags ∧ dw t s.ck 0x350 = s.b.tepc ∧ dw t s.ck 0x388 = s.b.msg.m.h0 ∧
      (s.b.redo = none → (∀ pg d va n reg sz, s.b.owed ≠ .parked pg d va n reg sz) → fld (dw t s.ck 0x378) 63 1 = 0) ∧
      (∀ pg d va n reg sz, s.b.redo = none → s.b.owed = .parked pg d va n reg sz → va < 2 ^ 56 → 0 < n → n < 16 → reg < 128 → sz < 16 →
        fld (dw t s.ck 0x378) 63 1 = 1 ∧ fld (dw t s.ck 0x378) 56 7 = reg ∧ fld (dw t s.ck 0x378) 0 56 = va ∧ fld (dw t s.ck 0x380) 0 4 = n ∧
        fld (dw t s.ck 0x380) 4 4 = sz) ∧
      SameMemBut (ctxLoc s.ck (1024 * i)) 1024 s t ∧
      ∃ y ∈ (t.clusterAt s.ck).saved, y.idx = i ∧ y.urg = (bankNo s.cur == 4) ∧ y.bank.buf = s.b.buf ∧ y.bank.reply = s.b.reply) ∧
    (s.b.service = true → settled → names → valid s s.ck → zero s.ck → (s.savedBank s.ck i).loads = [] → Ends (.ctxld rs1) s fun t =>
      (∀ k, 0 < k → k < 32 → (if k < 8 then t.b.svc.get 0 k else t.b.x.get 0 k) = dw s s.ck (8 * k)) ∧
      (∀ k, k < 15 → (t.b.getV k).toNat = s.numAt (ctxLoc s.ck (1024 * i + 0x100 + 32 * k)) 32) ∧ t.b.chki = dw s s.ck 0x308 ∧
      t.b.maskOn = (fld (dw s s.ck 0x340) 16 1 == 1) ∧ t.b.maskLeft = fld (dw s s.ck 0x340) 0 16 ∧ t.b.preempt = s.b.preempt ∧
      t.b.redo = left (dw s s.ck 0x378) (dw s s.ck 0x380) ∧
      t.b.tepc = dw s s.ck 0x350 &&& ~~~3#64 ∧ fld t.b.tstat 0 1 = 0 ∧ t.b.service = true ∧ t.b.pc = s.b.pc + 4 ∧ ¬ valid t s.ck ∧
      SameMemBut (ctxLoc s.ck (1024 * i)) 8 s t) ∧
    (s.b.service = true → names → valid s s.ck → zero s.ck → (s.savedBank s.ck i).loads ≠ [] ∨ ¬ settled → Ends (.ctxld rs1) s fun t => t = s) ∧
    (s.b.service = true → ¬ settled → Ends (.ctxsv rs1) s fun t => t = s) ∧
    (s.b.service = true → names → ¬ valid s s.ck → Ends (.ctxld rs1) s (TakesTrap 1 (s.b.getX rs1) s)) ∧
    (s.b.service = true → settled → (s.b.getX rs1).toNat % 1024 ≠ 0 → ∀ j ∈ [Instr.ctxsv rs1, .ctxld rs1], Ends j s (TakesTrap 2 (s.b.getX rs1) s)) ∧
    (s.choice ck = some (c, .saved i bk) → ckOf bk = ck → c.saved.find? (fun y => y.idx == i) = some x → Ends (.resume ck) s fun t =>
      (∀ k, 0 < k → k < 32 → (t.bankAt bk).x.get 0 k = dw s ck (8 * k)) ∧ (t.bankAt bk).pc = dw s ck 0x350 ∧ (t.bankAt bk).service = false ∧
      (t.bankAt bk).st = .running ∧ (t.bankAt bk).buf = x.bank.buf ∧ (t.bankAt bk).svc = (s.bankAt bk).svc ∧ ¬ valid t ck ∧
      (t.bankAt bk).redo = left (dw s ck 0x378) (dw s ck 0x380) ∧
      SameMemBut (ctxLoc ck (1024 * i)) 8 s t ∧ ∀ y ∈ (t.clusterAt ck).saved, y.idx ≠ i) ∧
    (s.b.loads ≠ [] → Ends (.chkerr rd rs1) s fun t => t = s) ∧
    (s.b.loads = [] →
      (s.b.chki &&& 3 = 0 → Ends (.chkerr rd rs1) s (WritesX rd 0 false (s.b.pc + 4) s)) ∧
      (s.b.chki &&& 3 ≠ 0 → s.b.poisX rs1 = true ∨ fld (s.b.getX rs1) 0 1 = 1 → Ends (.chkerr rd rs1) s (TakesTrap 0xB s.b.chki s)) ∧
      (s.b.chki &&& 3 ≠ 0 → s.b.poisX rs1 = false → fld (s.b.getX rs1) 0 1 = 0 → Ends (.chkerr rd rs1) s (WritesX rd s.b.chki false (s.b.pc + 4) s)))

/-- R134 to R137: SHAPE writes a checked record with SV = 1, and names the first check that fails; a poisoned record it writes as it is, poisoned, with SV = 1
(log entry 15); LDG and STG access the element that the record and the indices give, dense or ragged, and trap outside its rows and columns, of a ragged row by
its table. -/
def Obligations.LayoutRecords : Prop :=
  ∀ (s : State) (rd rs1 rs2 : Reg) (vd vs : VReg) (loc l0 l1 : Nat), s.mishap = .none → s.b.poisX rs1 = false → vd ≠ 15 → vs ≠ 15 → s.Calm →
    let placed (need : Need) (a size at_ : Nat) : Prop :=
      a % size = 0 ∧ s.reach need a = (s, .at at_) ∧ regionAt (s.jobAt s.jid).regions a = none
    let f (v i n : Nat) : Nat := v / 2 ^ i % 2 ^ n
    let m := s.numAt loc 32
    let rag := f m 205 1 = 1
    let es := 2 ^ f m 206 2
    let bad2 := f m 192 11 ≠ 0 ∨ f m 208 15 ≠ 0 ∨ (rag ∧ (f m 224 32 ≠ 0 ∨ f m 96 32 ≠ 0)) ∨ (¬ rag ∧ f m 128 64 ≠ 0)
    let bad3 := f m 64 32 = 0 ∨ (¬ rag ∧ f m 224 32 < f m 96 32)
    let bad4 := f m 0 64 % es ≠ 0
    let bad5 := f m 128 64 % 4 ≠ 0
    let bad6 := 2 ^ 56 ≤ (if rag then f m 128 64 + 4 * (f m 64 32 + 1) else f m 0 64 + f m 64 32 * f m 224 32 * es)
    let stops (k : Nat) : Prop := Ends (.shape vd rs1) s fun t => t.b.tcause = 0xD ∧ t.b.tval = w64 k ∧ t.b.service = true ∧ t.b.v = s.b.v ∧ SameMem s t
    let shape := placed .read (s.b.getX rs1).toNat 32 loc
    let v := (s.b.getV vs).toNat
    let x := s.b.getX rs2
    let row := f x.toNat 32 32
    let col := f x.toNat 0 32
    let n := 2 ^ f v 206 2
    let dense := f v 205 1 = 0
    let ready := s.b.poisV vs = 0 ∧ s.b.poisX rs2 = false ∧ f v 223 1 = 1
    let inside := row < f v 64 32
    let cell (e : Nat) : Nat := (f v 0 64 + e * n) % 2 ^ 64
    let o0 := s.numAt l0 4
    let o1 := s.numAt l1 4
    let table := (f v 128 64 + 4 * row) % 2 ^ 64
    let tabled := ¬ dense ∧ placed .read table 4 l0 ∧ placed .read ((table + 4) % 2 ^ 64) 4 l1
    let ragged := tabled ∧ s.poisAt l0 4 = false ∧ s.poisAt l1 4 = false
    let beyond (i : Instr) : Prop := Ends i s fun t => ∃ u, OnlyAccess s u ∧ u.b = s.b ∧ SameMem s u ∧ TakesTrap 5 x u t
    let ldg (e : Nat) : Prop := placed .read (cell e) n loc → Ends (.ldg rd vs rs2) s (Loads rd loc n (f v 203 1 == 1) s s)
    let stg (e : Nat) : Prop := placed .write (cell e) n loc → Ends (.stg rd vs rs2) s (Stores loc n (s.b.getX rd).toNat (s.b.poisX rd) s s)
    (shape → s.poisAt loc 32 = false →
      (bad2 → stops 2) ∧ (¬ bad2 → bad3 → stops 3) ∧ (¬ bad2 → ¬ bad3 → bad4 → stops 4) ∧ (¬ bad2 → ¬ bad3 → ¬ bad4 → bad5 → stops 5) ∧
      (¬ bad2 → ¬ bad3 → ¬ bad4 → ¬ bad5 → bad6 → stops 6) ∧
      (¬ bad2 → ¬ bad3 → ¬ bad4 → ¬ bad5 → ¬ bad6 → Ends (.shape vd rs1) s fun t => OnlyAccess s t ∧ SameMem s t ∧ OnlyV vd s.b t.b ∧
        t.b.pc = s.b.pc + 4 ∧ t.b.aflags = s.b.aflags ∧ t.b.chki = s.b.chki ∧ t.b.poisV vd = 0 ∧
        (t.b.getV vd).toNat = m + (if f m 223 1 = 1 then 0 else 2 ^ 223))) ∧
    (shape → s.poisAt loc 32 = true → Ends (.shape vd rs1) s fun t => OnlyAccess s t ∧ SameMem s t ∧ OnlyV vd s.b t.b ∧ t.b.pc = s.b.pc + 4 ∧
      t.b.aflags = s.b.aflags ∧ t.b.chki = (if s.b.chki &&& 3 = 0 then 0x901 else s.b.chki ||| 1) ∧ t.b.poisV vd = 0xFF ∧
      (t.b.getV vd).toNat = m + (if f m 223 1 = 1 then 0 else 2 ^ 223)) ∧
    (s.b.poisV vs = 0 → s.b.poisX rs2 = false → f v 223 1 = 0 → Ends (.ldg rd vs rs2) s (TakesTrap 0xD 1 s) ∧ Ends (.stg rd vs rs2) s (TakesTrap 0xD 1 s)) ∧
    (ready → f v 204 1 = 0 → Ends (.stg rd vs rs2) s (TakesTrap 0xD 7 s)) ∧
    (ready → ¬ inside ∨ (dense ∧ f v 96 32 ≤ col) → Ends (.ldg rd vs rs2) s (TakesTrap 5 x s) ∧ (f v 204 1 = 1 → Ends (.stg rd vs rs2) s (TakesTrap 5 x s))) ∧
    (ready → inside → dense → col < f v 96 32 → ldg (row * f v 224 32 + col) ∧ (f v 204 1 = 1 → stg (row * f v 224 32 + col))) ∧
    (ready → inside → ragged → o0 ≤ o1 → col < o1 - o0 → ldg (o0 + col) ∧ (f v 204 1 = 1 → stg (o0 + col))) ∧
    (ready → inside → tabled → o1 < o0 ∨ o1 - o0 ≤ col → beyond (.ldg rd vs rs2) ∧ (f v 204 1 = 1 → beyond (.stg rd vs rs2)))

/-- R150, R156, R126: PUBLISH raises TGT where it is the expected value and returns it; a leaf turn advances GEN by one unless TGT equals it or a command
writes the hidden side, and a load of the region that a stall holds then reads the side that is visible; a scratchpad bank enters retention after IDLE and
leaves it, whatever it did before (log entry 34). -/
def Obligations.RegionsAndRetention : Prop :=
  ∀ (s : State) (rd rs1 rs2 : Reg) (job g ck k : Nat) (r : Region),
    let e := (s.b.getX rs2).toNat % 2 ^ 48
    let rs := (s.jobAt s.jid).regions
    let x := s.b.getX rs1
    let c := s.clusterAt ck
    (s.b.poisX rs1 = false → s.b.poisX rs2 = false →
      (x.toNat < 256 → rs[x.toNat]? = some r → r.len ≠ 0 → let tgt := if r.tgt = e then (r.tgt + 1) % 2 ^ 48 else r.tgt
        Ends (.publish rd rs1 rs2) s fun t => HoldsX rd (w64 tgt) false t.b ∧ OnlyX rd s.b t.b ∧ t.b.pc = s.b.pc + 4 ∧ SameMem s t ∧
          (t.jobAt s.jid).regions = rs.set x.toNat { r with tgt := tgt } ∧ { t with banks := s.banks, jobs := s.jobs } = s) ∧
      (256 ≤ x.toNat ∨ rs[x.toNat]? = none ∨ (rs[x.toNat]? = some r ∧ r.len = 0) → Ends (.publish rd rs1 rs2) s (TakesTrap 5 x s))) ∧
    ((s.jobAt job).regions[g]? = some r →
      let busy := ∃ l ∈ r.latches, l.2.2 = true ∧ l.2.1 = (r.gen + 1) % 2
      (r.tgt ≠ r.gen → ¬ busy → Ends (.leafTurn job g) s fun t => SameMem s t ∧ { t with jobs := s.jobs, pend := s.pend } = s ∧
        t.pend = (s.pend.map fun p => if p.job = job ∧ (regionAt (s.jobAt job).regions p.va).map Prod.fst = some g then { p with loc := otherSide p.loc } else p) ∧
        (t.jobAt job).regions = (s.jobAt job).regions.set g { r with gen := (r.gen + 1) % 2 ^ 48 }) ∧
      (r.tgt = r.gen ∨ busy → Ends (.leafTurn job g) s fun t => t = s)) ∧
    (k < 16 → c.retEn = true → c.inret.has k = false → (s.unitAt (unitOf 6 ck k)).st = .inService →
      (∀ p ∈ s.pend, ¬ (isSpad p.loc = true ∧ spadCk p.loc = ck ∧ spadBank p.loc = k)) →
      (c.entering.has k = false → c.lastAcc.get 0 k + 1600 * c.retIdle ≤ s.cycles → Ends (.retentionEntry ck k) s fun t => SameMem s t ∧
        t.clusterAt ck = { c with entering := c.entering.add k }) ∧
      (c.entering.has k = true → Ends (.retentionEntry ck k) s fun t => SameMem s t ∧ (t.clusterAt ck).inret.has k = true ∧
        (t.clusterAt ck).entering.has k = false)) ∧
    Ends (.retentionExit ck k) s fun t => SameMem s t ∧ (t.clusterAt ck).inret.has k = false ∧ (t.clusterAt ck).entering.has k = false ∧
      (t.clusterAt ck).lastAcc.get 0 k = s.cycles ∧ ∀ j, j ≠ k → (t.clusterAt ck).inret.has j = c.inret.has j

/-- R36 to R38, R225, R227, R233, R236 to R238: ENGQ queues a command that passes the checks, or gives 0 with the queue full, or raises ENGFAULT; TPOST
buffers a record of the local cluster; ENGST reads the status words. R232 to R235: a record arrives in the pool where the job is placed, the pool has room and
nothing is spilled before it; the oldest record issues its first TCW to a free class; a spilled record is taken from the carafe, its words from byte 16 of the
entry (log entry 35). A command that no unit has started counts in the status of unit 0 (log entry 23). -/
def Obligations.EngineInstructionsAndTaskPool : Prop :=
  (∀ (s : State) (rd rs1 rs2 : Reg) (vs : VReg) (c : Nat) (ws : List W64) (u : State), vs ≠ 15 → s.b.poisX rs1 = false →
    let v := s.b.getV vs
    let w (k : Nat) : W64 := .ofNat 64 (v.toNat / 2 ^ (64 * k))
    let cls := fld (w 0) 0 4
    let q := (s.engAt s.ck cls).q
    let cmd : QCmd := ⟨w 0, w 1, w 2, w 3, s.jid, none⟩
    let r := s.b.getX rs1
    let t := s.b.getX rs2
    let others (u : State) : Prop := { u with banks := s.banks, clusters := s.clusters } = s ∧ (∀ k, k ≠ s.ck → u.clusterAt k = s.clusterAt k) ∧
      { u.clusterAt s.ck with eng := (s.clusterAt s.ck).eng } = s.clusterAt s.ck ∧ ∀ k, k ≠ cls → u.engAt s.ck k = s.engAt s.ck k
    (s.b.poisV vs = 0 →
      (s.tcwCheck s.ck s.jid (w 0) (w 1) (w 2) (w 3) = some c →
        Ends (.engq rd vs) s (TakesTrap 7 (w64 (fld (w 0) 32 16 * 2 ^ 20 + fld (w 0) 4 8 * 2 ^ 12 + cls * 2 ^ 8 + c)) s)) ∧
      (s.tcwCheck s.ck s.jid (w 0) (w 1) (w 2) (w 3) = none → cls ≠ 0 →
        (q.length < (if cls = 3 ∨ cls = 4 then 32 else 16) → Ends (.engq rd vs) s fun t => HoldsX rd 1 false t.b ∧ OnlyX rd s.b t.b ∧ t.b.pc = s.b.pc + 4 ∧
          SameMem s t ∧ others t ∧ t.engAt s.ck cls = { s.engAt s.ck cls with q := q ++ [cmd] }) ∧
        ((if cls = 3 ∨ cls = 4 then 32 else 16) ≤ q.length → Ends (.engq rd vs) s (WritesX rd 0 false (s.b.pc + 4) s))) ∧
      (s.tcwCheck s.ck s.jid (w 0) (w 1) (w 2) (w 3) = none → cls = 0 →
        let tile := s.projected s.ck (fld (w 0) 28 4 % 4)
        let i := tcwInstr (w 0) (w 1) (w 2) (w 3) ⟨1, 1⟩
        let broken := ∃ j, i = some j ∧ tile.broken j = true
        let tval (c : Nat) := w64 (fld (w 0) 32 16 * 2 ^ 20 + fld (w 0) 4 8 * 2 ^ 12 + c)
        (tile.foreign s.jid = true → Ends (.engq rd vs) s (TakesTrap 7 (tval 0x10) s)) ∧
        (tile.foreign s.jid = false → broken → Ends (.engq rd vs) s (TakesTrap 8 (tval (fld (w 0) 28 4 % 4)) s)) ∧
        (tile.foreign s.jid = false → ¬ broken →
          (q.length < 16 → Ends (.engq rd vs) s fun t => HoldsX rd 1 false t.b ∧ OnlyX rd s.b t.b ∧ t.b.pc = s.b.pc + 4 ∧ SameMem s t ∧ others t ∧
            t.engAt s.ck cls = { s.engAt s.ck cls with q := q ++ [cmd] }) ∧
          (16 ≤ q.length → Ends (.engq rd vs) s (WritesX rd 0 false (s.b.pc + 4) s))))) ∧
    (s.b.poisX rs2 = false → fld t 21 43 = 0 → fld t 0 12 = 0 → r.toNat % 128 = 0 → readRec r rs1 s = .ok u (ws, false) → u.b = s.b → u.cur = s.cur →
      let posts (ck : Nat) (sq : Option Nat) : Prop := u.recFault ck s.jid ws = none → Ends (.tpost rs1 rs2) s fun t => SameMem u t ∧
        t.b = { s.b with pc := s.b.pc + 4, buf := s.b.buf ++ [⟨.record ck ws, sq, bankNo s.cur == 4⟩] } ∧ { t with banks := u.banks } = u
      let far := fld t 18 2 * 64 + fld t 12 6
      (fld t 20 1 = 1 → s.b.localPosts < 4 → posts s.ck none) ∧
      (fld t 20 1 = 0 → s.inPlace s.jid (fld t 18 2) (fld t 12 6) = true → far ≠ s.ck → u.sqFreeTo s.cur = true → posts far (some (coreOf s.cur)))) ∧
    (s.b.poisX rs2 = false → fld t 21 43 ≠ 0 ∨ fld t 0 12 ≠ 0 → Ends (.tpost rs1 rs2) s (TakesTrap 5 t s)) ∧
    (s.b.poisX rs2 = false → fld t 21 43 = 0 → fld t 0 12 = 0 → fld t 20 1 = 1 → r.toNat % 128 ≠ 0 → Ends (.tpost rs1 rs2) s (TakesTrap 2 r s)) ∧
    (let cl := fld r 0 4
      let n := fld r 4 2
      let e := s.engAt s.ck cl
      let y := e.statOf n
      let wrong := fld r 9 55 ≠ 0 ∨ fld r 6 2 ≠ 0 ∨ 5 < cl ∨ (n ≠ 0 ∧ cl ≠ 4) ∨ (fld r 8 1 = 1 ∧ cl ≠ 0)
      (wrong → Ends (.engst rd rs1) s (TakesTrap 5 r s)) ∧
      (¬ wrong → fld r 8 1 = 1 → Ends (.engst rd rs1) s (WritesX rd (s.rowprogWord s.ck) false (s.b.pc + 4) s)) ∧
      (¬ wrong → fld r 8 1 = 0 → Ends (.engst rd rs1) s (WritesX rd (w64 (y.tag.toNat * 2 ^ 48 + y.errcode.toNat * 2 ^ 40 + y.errtag.toNat * 2 ^ 24 +
        ((if cl = 3 ∨ cl = 4 then 32 else 16) - e.q.length) * 2 ^ 16 + y.errcnt.toNat * 2 ^ 8 + s.engState s.ck cl n * 2 ^ 4 + cl)) false (s.b.pc + 4) s)))) ∧
  (∀ (s u : State) (k src ck act job : Nat) (ws : List W64) (r : TtsRec) (rest : List TtsRec) (e : CarEnt) (j : Job),
    let c := s.clusterAt ck
    (s.takeFlight k = some (.record src ck act job ws, u) → (s.jobAt job).gone = false → (s.jobAt job).placed.has ck = true → c.tts.length < 64 →
      (s.jobAt job).section ck 2 = [] → Ends (.ttsRecordArrival k) s fun t => SameMem s t ∧ t.flight = u.flight ∧ { t with clusters := s.clusters } = u ∧
        t.clusterAt ck = { c with tts := c.tts ++ [⟨c.ttsNext, job, ws, .pooled⟩], ttsNext := c.ttsNext + 1 }) ∧
    (c.tts = r :: rest → r.st = .pooled → (∀ q ∈ c.tts, r.id ≤ q.id) → (∀ q ∈ rest, r.id ≠ q.id) → fld (r.words.getD 0 0) 10 2 ≠ 0 →
      let w (n : Nat) : W64 := r.words.getD (8 + n) 0
      let cls := fld (w 0) 0 4
      let x := s.engAt ck cls
      cls ≠ 0 → s.engGone ck cls = false → s.tcwCheck ck r.job (w 0) (w 1) (w 2) (w 3) = none → x.q = [] → (cls = 4 → x.runs.length < 4) → Ends (.ttsRecordIssue ck) s fun t => SameMem s t ∧
        (t.clusterAt ck).tts = { r with st := .issued } :: rest ∧ t.engAt ck cls = { x with q := [⟨w 0, w 1, w 2, w 3, r.job, some r.id⟩] } ∧
        { t with clusters := s.clusters } = s) ∧
    (s.jobs = [(job, j)] → s.comm = [] → j.section ck 2 = [e] → j.placed.has ck = true → c.tts.length < 64 → Ends (.ttsRefill ck) s fun t => SameMem s t ∧
      t.clusterAt ck = { c with tts := c.tts ++ [⟨c.ttsNext, job, (List.range e.words.length).map fun i => s.dwAt (e.loc + 16 + 8 * i), .pooled⟩], ttsNext := c.ttsNext + 1 } ∧
      (t.jobAt job).carafe = j.carafe.erase e ∧ { t with clusters := s.clusters, jobs := s.jobs } = s))

/-- R322 to R327: GRPST buffers a contribution. A router that has the values of its children and all its local contributions combines them, the children in
the order N, E, S, W and then the cores by number, and sends the value to its parent; the root has the result. A result goes to the children and at a member
into the result buffer, counts the round and updates the counter. A second contribution of a core waits for the next round. GRPLD reads the last result and
the status, or under R146 freely one before it that the activation may still read (log entry 57). -/
def Obligations.GroupInstructions : Prop :=
  (∀ (s : State) (rs1 : Reg) (vs vd : VReg) (gr : Group), vs ≠ 15 → vd ≠ 15 → s.b.poisX rs1 = false →
    let x := s.b.getX rs1
    let own := s.grpAt (grpKey s.ck s.jid x.toNat)
    (x.toNat < 256 → (s.jobAt s.jid).groups[x.toNat]? = some gr → gr.members.has s.ck = true → own.dis = false →
      (s.b.contributes x.toNat = false → s.contribsHeld < 4 → Ends (.grpst rs1 vs) s fun t => OnlyBank s t ∧ SameMem s t ∧
        t.b = { s.b with pc := s.b.pc + 4, buf := s.b.buf ++ [⟨.contrib x.toNat
          ((List.range gr.width).map fun i => .ofNat 32 ((s.b.getV vs).toNat / 2 ^ (32 * i))) ((List.range gr.width).map fun i => (s.b.poisV vs).getLsbD i),
          none, bankNo s.cur == 4⟩] }) ∧
      (s.b.contributes x.toNat = true → Ends (.grpst rs1 vs) s (TakesTrap 5 x s)) ∧
      (s.b.contributes x.toNat = false → 4 ≤ s.contribsHeld → Ends (.grpst rs1 vs) s (SqFull x s))) ∧
    (256 ≤ x.toNat → Ends (.grpst rs1 vs) s (TakesTrap 5 x s)) ∧
    (x.toNat < 512 → let h := x.toNat % 256
      (s.jobAt s.jid).groups[h]? = some gr → gr.members.has s.ck = true →
      let y := s.grpAt (grpKey s.ck s.jid h)
      let holds (res : GrpVal) (rounds : W32) (t : State) : Prop := OnlyV vd s.b t.b ∧ t.b.pc = s.b.pc + 4 ∧
        (256 ≤ x.toNat → t.b.poisV vd = 0 ∧ (t.b.getV vd).toNat = rounds.toNat + res.flags.toNat * 2 ^ 32 + y.dis.toNat * 2 ^ 36) ∧
        (x.toNat < 256 → res.vals.length ≤ 8 → ∀ i, i < 8 → (t.b.getV vd).toNat / 2 ^ (32 * i) % 2 ^ 32 = (res.vals.getD i 0).toNat)
      ((∀ r ∈ y.old, r.seen.has s.actKey = true) → Ends (.grpld vd rs1) s fun t => OnlyBank s t ∧ SameMem s t ∧ holds y.result y.rounds t) ∧
      Ends (.grpld vd rs1) s fun t => { t with banks := s.banks, groups := s.groups, freeN := s.freeN } = s ∧ SameMem s t ∧
        (∀ k, k ≠ s.cur → t.bankAt k = s.bankAt k) ∧ (∀ j, { t.grpAt j with old := (s.grpAt j).old } = s.grpAt j) ∧
        (holds y.result y.rounds t ∨ ∃ r ∈ y.old, r.seen.has s.actKey = false ∧ holds r.result r.rounds t))) ∧
  (∀ (s u : State) (k ck act g job d : Nat) (gr : Group) (c : Contrib) (v : GrpVal) (e : GrpEntry),
    let key := grpKey ck job g
    let y := s.grpAt key
    let ctr := cntKey ck job gr.ctr
    let others (t : State) : Prop := SameMem s t ∧ { t with flight := u.flight, groups := u.groups, counters := u.counters } = u ∧
      (∀ j, j ≠ key → t.grpAt j = s.grpAt j) ∧ ∀ j, j ≠ ctr → t.counterAt j = s.counterAt j
    let finishes (res : GrpVal) (t : State) : Prop :=
      t.flight = u.flight ++ e.children.map (fun d => .result (neighbour ck d) job g res) ∧
      (e.lcl = 0 → t.grpAt key = { y with parts := [], conts := [], sent := false } ∧ t.counterAt ctr = s.counterAt ctr) ∧
      (e.lcl ≠ 0 → t.grpAt key = { y with parts := [], conts := [], sent := false, result := res, rounds := y.rounds + 1, old := ⟨y.result, y.rounds, [], []⟩ :: y.old } ∧
        t.counterAt ctr = { s.counterAt ctr with count := (s.counterAt ctr).count + 1 })
    let arrives (i : Instr) (parts : FMap (Option GrpVal)) (conts : List Contrib) : Prop :=
      let vals := e.children.filterMap (parts.get none) ++ (inCoreOrder conts).map fun c => ⟨c.vals, c.pois, if c.pois.any id then 8 else 0⟩
      let ready := (∀ d ∈ e.children, (parts.get none d).isSome) ∧ e.lcl ≤ conts.length ∧ (e.children ≠ [] ∨ e.lcl ≠ 0)
      let now := { y with parts := parts, conts := conts }
      (∀ x xs, vals = x :: xs → ready → let acc := xs.foldl (grpCombine gr.op) x
        (∀ p, e.parent = some p → Ends i s fun t => others t ∧ t.flight = u.flight ++ [.part (neighbour ck p) job g ((p + 2) % 4) acc] ∧
          t.grpAt key = { now with sent := true } ∧ t.counterAt ctr = s.counterAt ctr) ∧
        (e.parent = none → (s.counterAt ctr).armed = false → Ends i s fun t => others t ∧ finishes acc t)) ∧
      (¬ ready → Ends i s fun t => others t ∧ t.flight = u.flight ∧ t.grpAt key = now ∧ t.counterAt ctr = s.counterAt ctr)
    (s.jobAt job).groups[g]? = some gr → y.dis = false → y.entry = some e →
    (s.takeFlight k = some (.contrib ck act c, u) → c.job = job → c.g = g →
      let mine (l : List Contrib) : Prop := ∃ z ∈ l, coreOf z.bk = coreOf c.bk
      let joins := y.conts.length < e.lcl ∧ ¬ mine y.conts ∧ y.sent = false
      (joins → y.next = [] → arrives (.groupContributionArrival k) y.parts (y.conts ++ [c])) ∧
      (¬ joins → ¬ mine y.next → Ends (.groupContributionArrival k) s fun t => others t ∧ t.flight = u.flight ∧ t.grpAt key = { y with next := y.next ++ [c] }) ∧
      (¬ joins → mine y.next → exec (.groupContributionArrival k) s = .next s)) ∧
    (s.takeFlight k = some (.part ck job g d v, u) → y.sent = false → y.next = [] → arrives (.groupPartialArrival k) (y.parts.set none d (some v)) y.conts) ∧
    (s.takeFlight k = some (.result ck job g v, u) → y.next = [] → (s.counterAt ctr).armed = false →
      Ends (.groupResultArrival k) s fun t => others t ∧ finishes v t)) ∧
  (∀ (op : Nat) (a v : GrpVal) (n : Nat), op ≤ 0xB → a.vals.length = n → v.vals.length = n → a.pois.length = n → v.pois.length = n → (op = 0xB → n % 2 = 0) →
    let r := grpCombine op a v
    let x (l : List W32) (i : Nat) : W32 := l.getD i 0
    let p (l : List Bool) (i : Nat) : Bool := l.getD i false
    let fsum (i : Nat) : Nat × Flags :=
      let l := FF.fp32.value (x a.vals i).toNat
      let q := FF.fp32.value (x v.vals i).toNat
      FF.fp32.result .rne (l.add .rne q) [l, q]
    let some_ (bit : Nat) : Bool := op == 1 && (List.range n).any fun i => (fsum i).2.getLsbD bit
    r.vals.length = n ∧ r.pois.length = n ∧
    (∀ i, i < n → match op with
      | 0 => x r.vals i = x a.vals i + x v.vals i
      | 1 => x r.vals i = .ofNat 32 (fsum i).1
      | 2 => (x r.vals i).toInt = max (x a.vals i).toInt (x v.vals i).toInt
      | 3 => (x r.vals i).toInt = min (x a.vals i).toInt (x v.vals i).toInt
      | 4 => (x r.vals i).toNat = max (x a.vals i).toNat (x v.vals i).toNat
      | 5 => (x r.vals i).toNat = min (x a.vals i).toNat (x v.vals i).toNat
      | 6 => x r.vals i = .ofNat 32 (fltPick .fp32 true (x a.vals i).toNat (x v.vals i).toNat)
      | 7 => x r.vals i = .ofNat 32 (fltPick .fp32 false (x a.vals i).toNat (x v.vals i).toNat)
      | 8 => x r.vals i = x a.vals i &&& x v.vals i
      | 9 => x r.vals i = x a.vals i ||| x v.vals i
      | 10 => x r.vals i = x a.vals i ^^^ x v.vals i
      | _ => i % 2 = 0 → x r.vals (i + 1) ++ x r.vals i = (x a.vals (i + 1) ++ x a.vals i) + (x v.vals (i + 1) ++ x v.vals i)) ∧
    (∀ i, i < n → p r.pois i = (if op = 0xB then p a.pois (i / 2 * 2) || p a.pois (i / 2 * 2 + 1) || p v.pois (i / 2 * 2) || p v.pois (i / 2 * 2 + 1)
      else p a.pois i || p v.pois i)) ∧
    (∀ k, k < 4 → r.flags.getLsbD k = (a.flags.getLsbD k || v.flags.getLsbD k || (k == 0 && some_ 0) || (k == 1 && some_ 1) || (k == 2 && some_ 3)))) ∧
  (∀ (s : State) (gr : Group) (tree : NSet) (ck : Nat) (l : List Contrib), (s.treeEntry gr tree ck).children.Pairwise (· < ·) ∧
    (inCoreOrder l).Perm l ∧ (inCoreOrder l).Pairwise fun a b => coreOf a.bk % 16 ≤ coreOf b.bk % 16)

/-- R184, R187 to R190: a message joins its handler queue where the job is placed and its space has room, is written to an entry of the carafe in T1 where it
has not, and is counted where the carafe is full or its job is gone or unknown; a reply joins the queue of the job that reserved its slot, a null reply frees
the slot, and one without a slot is counted (log entry 67); refill moves the head of a section, as T1 holds it, to the queue, its job, handler and number of
words as they were spilled (log entry 35). -/
def Obligations.ArrivalsAtTheQueues : Prop :=
  ∀ (s u : State) (k src ck act job loc : Nat) (m : Msg) (e : CarEnt) (urg : Bool),
    let j := s.jobAt (fld m.h0 28 15)
    let c := s.clusterAt ck
    let q : QMsg := ⟨fld m.h0 28 15, fld m.h0 43 12, fld m.h0 55 1 == 1, if fld m.h0 24 4 = 15 then none else some (fld m.h0 24 4), true, none, m⟩
    let here := j.placed.has ck = true ∧ j.carafe.filter (fun e => e.ck == ck && e.sec == fld m.h0 55 1) = [] ∧ s.spaceUsed ck q.job q.urg < (if q.urg then 32 else j.depth)
    (s.takeFlight k = some (.msg src ck act m, u) → fld m.h1 52 1 = 0 →
      (j.jstate = 1 ∨ j.jstate = 2 → (s.unitAt (unitId 9 (ck / 64) (ck % 64) 0)).st ≠ .retired →
        (here → Ends (.messageArrival k) s fun t => SameMem s t ∧ t.clusterAt ck = { c with queue := c.queue ++ [q] } ∧ { t with clusters := s.clusters } = u) ∧
        (¬ here → s.carSlot j = some loc → loc + 512 ≤ 2 ^ 52 → s.comm = [] → m.pay.length ≤ 32 → Ends (.messageArrival k) s fun t =>
          SameMemBut loc 512 s t ∧ t.dwAt loc = m.h0 ∧ t.dwAt (loc + 8) = m.h1 ∧ (∀ i w, m.pay[i]? = some w → t.dwAt (loc + 16 + 8 * i) = w) ∧
          (∀ i, m.pay.length ≤ i → i < 62 → t.dwAt (loc + 16 + 8 * i) = 0) ∧ (t.jobAt q.job).carafe = j.carafe ++ [⟨ck, q.urg.toNat, q, [], loc⟩] ∧
          { t with mem := s.mem, check := s.check, pois := s.pois, stale := s.stale, jobs := s.jobs } = u) ∧
        (¬ here → s.carSlot j = none → Ends (.messageArrival k) s fun t => SameMem s t ∧
          (t.jobAt q.job).carDrop = j.carDrop + 1 ∧ (t.jobAt q.job).carafe = j.carafe ∧ t.clusters = s.clusters)) ∧
      (j.jstate = 3 ∨ (j.jstate = 0 ∧ j.once = true) → Ends (.messageArrival k) s fun t => SameMem s t ∧ (t.jobAt q.job).late = j.late + 1 ∧
        t.clusters = s.clusters ∧ t.flight = u.flight) ∧
      (j.jstate = 0 → j.once = false → Ends (.messageArrival k) s fun t => SameMem s t ∧ (t.dieAt (ck / 64)).misdir = (s.dieAt (ck / 64)).misdir + 1 ∧
        t.clusters = s.clusters ∧ t.flight = u.flight)) ∧
    (s.takeFlight k = some (.reply src act m, u) →
      let to_ := fld m.h0 16 2 * 64 + fld m.h0 18 6
      let bk := (to_ * 16 + fld m.h0 24 4) * 5 + fld m.h1 53 3
      let sl := fld m.h1 48 4
      let cell := (s.bankAt bk).slotJob.find? fun x => x.1 == sl
      let freed (v : State) (t : State) : Prop := { t with banks := v.banks } = v ∧ (∀ b, b ≠ bk → t.bankAt b = s.bankAt b) ∧ SameMem s t ∧
        t.bankAt bk = { s.bankAt bk with slots := (s.bankAt bk).slots.del sl, slotJob := (s.bankAt bk).slotJob.erase sl }
      let foreign := fld m.h1 0 16 = s.modid.toNat ∧ fld m.h0 28 15 ≠ job
      let none_ := (s.jobAt job).gone = true ∨ (s.unitAt (unitId 9 (to_ / 64) (to_ % 64) 0)).st = .retired
      let null := fld m.h0 43 12 = 0xFFF ∨ ((s.jobAt job).handler (fld m.h0 43 12)).isNone = true
      (cell = some (sl, job) → ¬ foreign → ¬ none_ → ¬ null → Ends (.replyArrival k) s fun t => SameMem s t ∧ { t with clusters := s.clusters } = u ∧
        t.clusterAt to_ = { s.clusterAt to_ with
          queue := (s.clusterAt to_).queue ++ [⟨job, q.hid, q.urg, some (fld m.h0 24 4), false, some (bk, sl), m⟩] }) ∧
      (cell = some (sl, job) → ¬ foreign → ¬ none_ → null → Ends (.replyArrival k) s (freed u)) ∧
      (cell = some (sl, job) → ¬ foreign → none_ → Ends (.replyArrival k) s fun t => freed { u with jobs := t.jobs } t ∧
        (t.jobAt job).late = (s.jobAt job).late + 1) ∧
      (cell = none ∨ (cell = some (sl, job) ∧ foreign) → Ends (.replyArrival k) s fun t => SameMem s t ∧ { t with jobs := s.jobs } = u ∧
        (t.jobAt (fld m.h0 28 15)).late = j.late + 1)) ∧
    (let jj := s.jobAt job
      let depth := if urg then 32 else jj.depth
      jj.placed.has ck = true → jj.carafe.filter (fun e => e.ck == ck && e.sec == urg.toNat) = [e] → s.spaceUsed ck job urg ≤ depth / 2 → 0 < depth →
      (urg = false → s.refillDue ck job true = false) → s.comm = [] → Ends (.carafeRefill ck job urg) s fun t => SameMem s t ∧
        (∃ x, t.clusterAt ck = { c with queue := c.queue ++ [{ e.q with m := x }] } ∧ x.h0 = s.dwAt e.loc ∧ x.h1 = s.dwAt (e.loc + 8) ∧
          x.pay.length = e.q.m.pay.length ∧ ∀ i, i < x.pay.length → x.pay[i]? = some (s.dwAt (e.loc + 16 + 8 * i)) ∧
            x.pois[i]? = some (e.q.m.pois.getD i false || s.poisAt (e.loc + 16 + 8 * i) 8)) ∧ (t.jobAt job).carafe = jj.carafe.erase e ∧ { t with clusters := s.clusters, jobs := s.jobs } = s)

/-- R130, R131, R193, R194, R197: a counter's update and its firing; a posted atomic performed at its place, or dropped and counted; the partials of a line
folded toward memory. -/
def Obligations.UpdatesInFlight : Prop :=
  ∀ (s u v : State) (k src ck act job c line d loc : Nat) (op : CntOp) (p : Posted) (l : CommLine) (ps : List W64),
    let key := cntKey ck job c
    let old := s.counterAt key
    let j := s.jobAt job
    let upd : Counter := match op with
      | .add a => { old with count := old.count + a }
      | .set x => { old with count := x }
      | .arm n r => { old with thresh := n, rearm := r, armed := true }
    (s.takeFlight k = some (.cnt src ck act job c op, u) →
      (j.marked.has ck = true → c < j.img.allot →
        (upd.armed = false ∨ upd.count.toNat < upd.thresh.toNat → Ends (.counterUpdate k) s fun t => SameMem s t ∧ t.counterAt key = upd ∧
          { t with counters := s.counters } = u) ∧
        (upd.armed = true → upd.thresh.toNat ≤ upd.count.toNat → Ends (.counterUpdate k) s fun t =>
          (upd.act &&& 1 = 0 → SameMem s t) ∧ t.counterAt key = { upd with fires := upd.fires + 1, armed := upd.rearm, count := if upd.rearm then upd.count - upd.thresh else upd.count } ∧
          (upd.act = 0 → { t with counters := s.counters } = u) ∧
          (upd.act = 2 → t.flight = u.flight ++ [.post ck job c upd.ttra none]) ∧
          (upd.act = 1 → j.placed.has ck = true → (s.unitAt (unitId 9 (ck / 64) (ck % 64) 0)).st ≠ .retired → j.carafe = [] → s.spaceUsed ck job false < j.depth →
            SameMem s t ∧ (t.clusterAt ck).queue = (s.clusterAt ck).queue ++
              [⟨job, upd.hid.toNat, false, none, true, none, ⟨0, 0x800000000, [w64 c, upd.count.setWidth 64, (upd.fires + 1).setWidth 64], []⟩⟩]))) ∧
      (j.marked.has ck = false ∨ j.img.allot ≤ c → Ends (.counterUpdate k) s fun t => t = u)) ∧
    (s.takeFlight k = some (.atomic src ck p none, u) →
      (u.place ck 0 p.job .both p.va = (v, .at loc) → v.stalled loc p.n = false → (p.rl = true → ∀ q ∈ v.pend, q.act ≠ p.act) → v.comm = [] → Ends (.postedAtomicPerform k) s fun t =>
        SameMemBut loc p.n v t ∧ t.flight = v.flight ∧ (v.poisAt loc p.n = true → SameMem v t) ∧
        (v.poisAt loc p.n = false → ∀ new, atomNew p.op p.n (v.numAt loc p.n) p.s.toNat p.c.toNat = some new → t.numAt loc p.n = new % 2 ^ (8 * p.n))) ∧
      (u.place ck 0 p.job .both p.va = (v, .at loc) → v.stalled loc p.n = true → Ends (.postedAtomicPerform k) s fun t => SameMem v t ∧ t.flight = v.flight ∧
        ∃ w, t.pend = v.pend ++ [w] ∧ w.act = p.act ∧ w.loc = loc ∧ w.n = p.n ∧ w.rel = p.rl ∧ w.op = .atom p.op p.s.toNat p.c.toNat) ∧
      (u.place ck 0 p.job .both p.va = (v, .busy) → Ends (.postedAtomicPerform k) s fun t => t = s) ∧
      (u.place ck 0 p.job .both p.va = (v, .refused) → Ends (.postedAtomicPerform k) s fun t => SameMem v t ∧ t.flight = v.flight ∧
        (t.jobAt p.job).postFault = (v.jobAt p.job).postFault + 1)) ∧
    (s.comm = [l] → l.loc = line → l.int64 = true →
      (l.cls = [(ck, ps)] → l.dies = [] → ps.length = 8 → Ends (.clusterPartialEvict line ck) s fun t => SameMem s t ∧
        t.comm = [{ l with cls := [], dies := [(ck / 64, ps)] }] ∧ { t with comm := s.comm } = s) ∧
      (l.dies = [(d, ps)] → ps.length = 8 → Ends (.diePartialEvict line d) s fun t => SameMemBut line 64 s t ∧ t.comm = [{ l with dies := [] }] ∧
        ∀ i x, ps[i]? = some x → t.dwAt (line + 8 * i) = s.dwAt (line + 8 * i) + x))

/-- R161, R163 to R165, R338, R348 to R350: dispatch sets the bank up with the first eight payload words; a bank that has waited for 3,200 cycles gives way; a
pre-emption traps a waiting bank at once and a running one later, and leaves a scalar access that waits on a page to reissue (log entry 49); the bound of a
masked window takes MASKOVER, of a bank that waits in a fence too. -/
def Obligations.DispatchAndPreemption : Prop :=
  ∀ (s : State) (ck bk : Nat) (c : Cluster) (q : QMsg) (h : HandlerEntry) (why : PreReason),
    let b := s.bankAt bk
    let preempted (n : Nat) (t : State) : Prop := OnlyBankAt bk s t ∧ SameMem s t ∧ (t.bankAt bk).service = true ∧ (t.bankAt bk).tcause = 0xC ∧
      (t.bankAt bk).tval = w64 n ∧ (t.bankAt bk).owed = b.wait ∧ (t.bankAt bk).st = .running ∧ (t.bankAt bk).preempt = none ∧
      (∀ rd n w d, b.wait = .counter rd n w ∨ b.wait = .sleep ∨ b.wait = .fence d → (t.bankAt bk).tepc = b.pc &&& ~~~3#64) ∧
      (∀ rd x v, b.wait = .steal rd x v → (t.bankAt bk).tepc = (b.pc + 4) &&& ~~~3#64) ∧
      (∀ pg d va k reg sz, b.wait = .parked pg d va k reg sz → b.redo = none →
        ((k = 1 ∨ k = 3) ∧ reg < 32 ∧ sz % 8 < 4 → (t.bankAt bk).tepc = (b.pc + 4) &&& ~~~3#64 ∧ (t.bankAt bk).redo = some ⟨va, k, reg, sz⟩) ∧
        (¬ ((k = 1 ∨ k = 3) ∧ reg < 32 ∧ sz % 8 < 4) → (t.bankAt bk).tepc = b.pc &&& ~~~3#64 ∧ (t.bankAt bk).redo = none))
    (s.choice ck = some (c, .msg q bk) → (s.jobAt q.job).handler q.hid = some h → Ends (.dispatch ck) s fun t => SameMem s t ∧
      (t.clusterAt ck).queue = c.queue.erase q ∧ (t.clusterAt ck).seq = c.seq + 1 ∧
      let n := t.bankAt bk
      n.pc = w64 (0x100000 + h.off) ∧ n.st = .running ∧ n.service = false ∧ n.job = q.job ∧ n.hid = q.hid ∧ n.msg = q ∧ n.cursor = 8 ∧ n.seq = c.seq + 1 ∧
        (∀ r : Reg, r ≠ 0 → n.getX r = (if 10 ≤ r.val ∧ r.val < 18 then q.m.pay.getD (r.val - 10) 0 else 0) ∧
          n.poisX r = (if 10 ≤ r.val ∧ r.val < 18 then q.m.pois.getD (r.val - 10) false else false)) ∧
        n.v = [] ∧ n.p = [] ∧ n.vcfg = 2 ∧ n.aflags = 0 ∧ n.lgact = 0 ∧ n.maskOn = false ∧ n.buf = [] ∧ n.reply = none ∧
        n.chki = (if (List.range 8).any (fun i => q.m.pois.getD i false) then 0xA01 else 0) ∧ n.slots = b.slots ∧ n.svc = b.svc ∧ n.tvec = b.tvec) ∧
    (bankNo bk ≠ 4 → b.st = .waiting → b.wait ≠ .none → b.wait ≠ .debug → (∀ d, b.wait ≠ .fence d) → b.service = false → b.maskOn = false → b.since + 3200 ≤ s.cycles → s.givesWay bk = true →
      Ends (.longWaitRelease bk) s (preempted 3)) ∧
    ((why = .lease ∧ s.leaseAsks bk = true) ∨ (why = .gang ∧ s.gangAsks bk = true) →
      let n := match why with | .lease => 1 | _ => 2
      (b.st = .waiting → b.service = false → b.maskOn = false → Ends (.preemptionRequest bk why) s (preempted n)) ∧
      (b.st = .running → Ends (.preemptionRequest bk why) s fun t => OnlyBankAt bk s t ∧ SameMem s t ∧ t.bankAt bk = { b with preempt := some why })) ∧
    (b.maskOn = true → b.maskStart + 1024 ≤ s.cycles →
      (b.service = false → (b.st = .running ∧ b.redo = none) ∨ (b.st = .waiting ∧ ∃ d, b.wait = .fence d) → Ends (.maskoverTimeout bk) s fun t => OnlyBankAt bk s t ∧ SameMem s t ∧ (t.bankAt bk).tcause = 9 ∧
        (t.bankAt bk).tval = 2 ∧ (t.bankAt bk).service = true ∧ (t.bankAt bk).maskOn = false ∧ fld (t.bankAt bk).tstat 5 1 = 1 ∧
        (t.bankAt bk).pc = b.tvec &&& ~~~3#64 ∧ (t.bankAt bk).tepc = b.pc &&& ~~~3#64) ∧
      (b.service = true → Ends (.maskoverTimeout bk) s fun t => OnlyBankAt bk s t ∧ SameMem s t ∧
        t.bankAt bk = { b with maskOn := false, maskLeft := 256, maskDue := 2 })) ∧
    (b.maskOn = false → Ends (.maskoverTimeout bk) s fun t => t = s)

/-- R367 to R369, R360, R354, R361: LEASEQ and SUSPR read a unit; with an rs2 field SUSPR charges it, in service mode alone, and the retirement that the
charge starts is part of the step; seconds are rounded down, and a memory channel drains whatever the mode (log entry 36); CAPACK acknowledges the window that
ends at its SEQ and delivers a held notification; RETRD writes the 64 bytes of a record and gives the count. -/
def Obligations.ServiceInstructions : Prop :=
  ∀ (s : State) (rd rs1 rs2 : Reg) (h : CapNote) (r : RetRec) (loc : Nat), s.b.poisX rs1 = false → s.b.poisX rs2 = false →
    let v := s.b.getX rs1
    let p := s.b.getX rs2
    let x := s.unitAt v.toNat
    let kind := v.toNat / 2 ^ 28
    let period := s.karmos.period.get 0 kind
    let full := [0, 120000, 600000, 300000, 400000, 40000, 5000000, 8000000].getD kind 20000000
    let left := match x.st, x.run with
      | .inService, _ => if period = 0 then 0xFFFFFFFF else (x.ended + period * 1000000000 - s.time) / 1000000000
      | .leased, some l => if l.halted then (l.start + full - s.time) / 1000 else full / 1000
      | _, _ => 0
    let j := s.jobAt s.jid
    let seq := v.toNat % 2 ^ 32
    let un := j.unacked.filter fun n => !decide ((seq + 2 ^ 32 - n.seq) % 2 ^ 32 < 2 ^ 31)
    let recs := s.karmos.recs
    (unitValid v.toNat = false → Ends (.leaseq rd rs1) s (TakesTrap 5 v s) ∧ Ends (.suspr rd rs1 0) s (TakesTrap 5 v s)) ∧
    (unitValid v.toNat = true →
      (0 < kind → Ends (.leaseq rd rs1) s (WritesX rd (w64 (x.st.code * 2 ^ 60 + x.score * 2 ^ 32 + left)) false (s.b.pc + 4) s)) ∧
      (kind = 9 → Ends (.suspr rd rs1 0) s (TakesTrap 5 v s)) ∧
      (kind ≠ 9 → Ends (.suspr rd rs1 0) s (WritesX rd (w64 (x.st.code * 2 ^ 16 + x.score)) false (s.b.pc + 4) s) ∧
        (rs2 ≠ 0 → s.b.service = true → ¬ (1 ≤ p.toNat ∧ p.toNat ≤ 1024) → Ends (.suspr rd rs1 rs2) s (TakesTrap 5 p s)) ∧
        (rs2 ≠ 0 → s.b.service = true → 1 ≤ p.toNat → p.toNat ≤ 1024 →
          let sc := min (x.score + p.toNat) 0xFFFF
          let early := if 256 ≤ sc ∧ x.due = none ∧ x.run = none then some ⟨true, false, s.time, 0, 0, 0, 0, false, false⟩ else x.due
          (sc < 1024 ∧ x.reason = 0 ∨ x.st ≠ .inService → Ends (.suspr rd rs1 rs2) s fun t => { t with banks := s.banks, units := s.units } = s ∧
            OnlyX rd s.b t.b ∧ t.b.pc = s.b.pc + 4 ∧ (∀ k, k ≠ s.cur → t.bankAt k = s.bankAt k) ∧ HoldsX rd (w64 (x.st.code * 2 ^ 16 + sc)) false t.b ∧
            (∀ u, u ≠ v.toNat → t.unitAt u = s.unitAt u) ∧ t.unitAt v.toNat = { x with score := sc, due := early }) ∧
          (1024 ≤ sc → x.st = .inService → x.reason = 0 → s.jobs = [] →
            (kind = 7 ∨ kind = 8 → Ends (.suspr rd rs1 rs2) s fun t => { t with banks := s.banks, units := s.units } = s ∧
              OnlyX rd s.b t.b ∧ t.b.pc = s.b.pc + 4 ∧ HoldsX rd (w64 (3 * 2 ^ 16 + sc)) false t.b ∧
              t.unitAt v.toNat = { x with score := sc, due := early, reason := 7, askRetire := false, st := .draining }) ∧
            (kind = 2 ∨ kind = 3 ∨ kind = 4 → s.assisted 1 = true → Ends (.suspr rd rs1 rs2) s fun t =>
              HoldsX rd (w64 (2 * 2 ^ 16 + sc)) false t.b ∧ t.b.pc = s.b.pc + 4 ∧
              t.unitAt v.toNat = { x with score := sc, due := early, reason := 7, askRetire := false, st := .held, heldAt := s.time } ∧
              t.evheld = s.evheld ++ [⟨7, 0, v.toNat / 2 ^ 26 % 4, v, w64 sc, 0, s.eseq + 1⟩]))))) ∧
    (rs2 ≠ 0 → s.b.service = false → Ends (.suspr rd rs1 rs2) s (TakesTrap 1 (w64 ((encode (.suspr rd rs1 rs2)).getD 0)) s)) ∧
    (2 ^ 31 ≤ (j.capLast + 2 ^ 32 - seq) % 2 ^ 32 → Ends (.capack rs1) s (TakesTrap 5 v s)) ∧
    ((j.capLast + 2 ^ 32 - seq) % 2 ^ 32 < 2 ^ 31 →
      (j.held = [] → Ends (.capack rs1) s fun t => { t with banks := s.banks, jobs := s.jobs } = s ∧ t.b = { s.b with pc := s.b.pc + 4 } ∧
        (∀ k, k ≠ s.cur → t.bankAt k = s.bankAt k) ∧ t.jobAt s.jid = { j with unacked := un } ∧ ∀ k, k ≠ s.jid → t.jobAt k = s.jobAt k) ∧
      (j.held = [h] → un.length < 4 → Ends (.capack rs1) s fun t => t.b = { s.b with pc := s.b.pc + 4 } ∧ (t.jobAt s.jid).held = [] ∧
        (t.jobAt s.jid).unacked = un ++ [{ h with lost := j.lostMark, seq := (j.capLast + 1) % 2 ^ 32 }]) ∧
      (j.held = [h] → 4 ≤ un.length → Ends (.capack rs1) s fun t => (t.jobAt s.jid).held = [h] ∧ (t.jobAt s.jid).unacked = un)) ∧
    (recs.length ≤ v.toNat → Ends (.retrd rd rs1 rs2) s (WritesX rd (w64 recs.length) false (s.b.pc + 4) s)) ∧
    (recs[v.toNat]? = some r → r.dws.length = 8 → s.mishap = .none →
      (p.toNat % 32 ≠ 0 → Ends (.retrd rd rs1 rs2) s (TakesTrap 2 p s)) ∧
      (p.toNat % 32 = 0 → s.Calm → s.Window s.ck s.jid p.toNat 64 loc → Ends (.retrd rd rs1 rs2) s fun t => OnlyAccess s t ∧ SameMemBut loc 64 s t ∧
        (∀ k, k < 64 → (t.byteAt (loc + k)).toNat = (r.dws.getD (k / 8) 0).toNat / 2 ^ (8 * (k % 8)) % 256) ∧ OnlyX rd s.b t.b ∧
        HoldsX rd (w64 recs.length) false t.b ∧ t.b.pc = s.b.pc + 4))

/-- R356 to R361: a periodic lease falls due when its period has passed; a due lease that may start withdraws its unit and has its record; while a unit of its
cluster is withdrawn it stays due; a cupping passes or fails; the host's answer fails to come for 10 s; the scores are halved once a day. No job is installed
here, so that no notification is posted. -/
def Obligations.LeasesAndScores : Prop :=
  ∀ (s : State) (u : W32) (die : Nat) (l : Lease), s.jobs = [] →
    let id := u.toNat
    let x := s.unitAt id
    let kind := id / 2 ^ 28
    let period := s.karmos.period.get 0 kind
    let d := s.dieAt (id / 2 ^ 26 % 4)
    let full := [0, 120000, 600000, 300000, 400000, 40000, 5000000, 8000000].getD kind 20000000
    let words (t : State) (ring : Nat) (k : Nat) := (t.dieAt (id / 2 ^ 26 % 4)).leases.get 0 (4 * ring + k)
    let gone (reason : Nat) (t : State) : Prop := (t.unitAt id).st = .retired ∧ (t.unitAt id).reason = reason ∧
      (s.karmos.recs.length < 4096 → t.karmos.recs.length = s.karmos.recs.length + 1)
    (unitValid id = true → kind ≠ 9 → period ≠ 0 → x.due = none → x.run = none → x.st ≠ .retired → x.ended + period * 1000000000 ≤ s.time →
      Ends (.periodicLeaseDue u) s fun t => OnlyUnit id s t ∧ t.unitAt id = { x with due := some ⟨false, false, s.time, 0, 0, 0, 0, false, false⟩ }) ∧
    (period = 0 ∨ x.due.isSome = true ∨ x.run.isSome = true ∨ s.time < x.ended + period * 1000000000 → Ends (.periodicLeaseDue u) s fun t => t = s) ∧
    (x.due = some l → s.assisted 0 = false →
      (s.leaseOk id = true → (∀ e ∈ s.units, e.1 ≠ id → e.2.due = none) → Ends (.leaseStart u) s fun t =>
        { t with units := s.units, dies := s.dies } = s ∧ (∀ v, v ≠ id → t.unitAt v = s.unitAt v) ∧
        t.unitAt id = { x with st := .leased, due := none, run := some ⟨l.early, false, s.time, s.time, x.score, d.lrnext, d.lseq + 1, false, true⟩ } ∧
        (t.dieAt (id / 2 ^ 26 % 4)).lrnext = (d.lrnext + 1) % 256 ∧ (t.dieAt (id / 2 ^ 26 % 4)).lseq = d.lseq + 1 ∧
        words t d.lrnext 0 = w64 (id * 2 ^ 32 + (Config.cuppingId (w32 id)).toNat * 2 ^ 16 + l.early.toNat) ∧ words t d.lrnext 1 = 0 ∧
        words t d.lrnext 2 = w64 period ∧ words t d.lrnext 3 = w64 (x.score * 2 ^ 48 + x.score * 2 ^ 32 + (d.lseq + 1) % 2 ^ 32)) ∧
      (∀ e ∈ s.units, e.1 ≠ id → (e.2.st = .leased ∨ e.2.st = .held) → unitCk e.1 = unitCk id → e.1 / 2 ^ 28 ∈ [1, 2, 3, 4, 6] → kind ∈ [1, 2, 3, 4, 6] →
        Ends (.leaseStart u) s fun t => t = s)) ∧
    (x.run = some l → l.halted = true → l.start + full ≤ s.time → 0 < kind → s.karmos.newPeriod.get none kind = none → x.askRetire = false →
      (x.score < 1024 → Ends (.cuppingEnd u true) s fun t => { t with units := s.units, dies := s.dies, mem := if kind = 6 then s.mem else t.mem } = s ∧
        (∀ v, v ≠ id → t.unitAt v = s.unitAt v) ∧
        t.unitAt id = { x with st := .inService, run := none, ended := s.time, failed := 0, lseq := 0, reason := 0, leaving := none } ∧
        words t l.ring 0 = w64 (id * 2 ^ 32 + (Config.cuppingId (w32 id)).toNat * 2 ^ 16 + 256 + l.host.toNat * 2 + l.early.toNat) ∧
        words t l.ring 2 = w64 ((s.time - l.start) / 1000 * 2 ^ 32 + period) ∧
        words t l.ring 3 = w64 (l.sc0 * 2 ^ 48 + x.score * 2 ^ 32 + l.seq % 2 ^ 32)) ∧
      let sc := min (x.score + 1024) 0xFFFF
      (kind ∉ [5, 7, 8] → (kind = 1 → s.withdrawalDone id = true) → s.assisted 1 = true → Ends (.cuppingEnd u false) s fun t =>
        t.unitAt id = { x with st := .held, run := none, ended := s.time, score := sc, failed := Config.cuppingId (w32 id), lseq := l.seq, reason := 6,
                               heldAt := s.time } ∧
        t.evheld = s.evheld ++ [⟨7, 0, id / 2 ^ 26 % 4, w64 id, w64 sc, 0, s.eseq + 1⟩]) ∧
      (kind ∈ [2, 3, 4] → s.assisted 1 = false → Ends (.cuppingEnd u false) s (gone 6))) ∧
    (x.run = some l → l.halted = true → l.start + full ≤ s.time → kind ∈ [2, 3, 4] → x.askRetire = true → Ends (.cuppingEnd u true) s (gone 8)) ∧
    (x.st = .held → x.leaving = none → kind ∈ [2, 3, 4] → x.heldAt + 10000000000 ≤ s.time → Ends (.retireAnswerTimeout u) s (gone x.reason)) ∧
    (s.time < x.heldAt + 10000000000 → Ends (.retireAnswerTimeout u) s fun t => t = s) ∧
    (die < 3 → (s.units.map Prod.fst).Nodup → (s.dieAt die).halved < s.time / 86400000000000 → Ends (.scoreHalving die) s fun t =>
      (∀ v, t.unitAt v = if v / 2 ^ 26 % 4 = die then { s.unitAt v with score := (s.unitAt v).score / 2 } else s.unitAt v) ∧
      { t with units := s.units, dies := s.dies } = s)

/-- R219 to R222, R226 to R228, R239 to R244: a class 0 command takes a free tile, fails on another job's tile (0x04) or on a tile whose state forbids it
(0x03), and else proceeds by one K-block or row, MMA and CELLP after they have set ROWPROG: MMA on prepacked blocks, CELLP by its cell program, ACZERO, ACCFG,
ACDRAIN, ACLOAD, which reads the status word of its image once and first, and ACSTAT. -/
def Obligations.TileCommands : Prop :=
  ∀ (s : State) (r : RunCmd) (tile : Fin 4) (sx : Sx) (a b : OpaOperand) (kb ks base str loc l1 : Nat) (rel z rc w36 : Bool) (fill : Fin 3) (fmt : DrainFmt)
    (cm rm : Fin 128) (prog : W64) (la lb : Nat → Nat) (ca cb : Nat → Nat → Nat), s.run? = some r → r.parked = none → r.Quiet s → s.mishap = .none →
    let ck := s.cmd.ck
    let job := r.cmd.job
    let x := s.tileAt ck tile
    let own : Tile := { x with free := false, owner := job }
    let n := ks + r.prog
    let rows := x.rowm1 + 1
    let cols := x.colm1 + 1
    let inTile (i j : Nat) := i < rows ∧ j < cols
    let touched (t : State) (i j : Nat) := (t.tileAt ck tile).el i j
    let block (loc : Nat) : Block := blockOf (sxK sx) (s.numAt loc (sxBytes (sxK sx)))
    (x.foreign job = true → ∀ i ∈ [Instr.mma tile sx a b kb ks, .cellp tile a b kb ks, .aczero tile rel fill, .acdrain tile rel z fmt base str,
      .acload tile w36 base str, .accfg tile z rc cm rm prog, .acstat tile base], Ends i s fun t => Failed 4 r s t ∧ t.tileAt ck tile = x) ∧
    (x.foreign job = false →
      (r.aux = [] → let begun (t : State) : Prop := SameMem s t ∧ t.run? = some { r with aux := [x.free.toNat] } ∧ t.tileAt ck tile = own
        let shown (t : State) : Prop := (t.clusterAt ck).rowprog = ⟨BitVec.ofNat 16 (fld r.cmd.w0 32 16), tile, false, true, kb, ks⟩
        (x.isRec = false → Ends (.mma tile sx a b kb ks) s fun t => begun t ∧ shown t) ∧ (x.isRec = true → Ends (.cellp tile a b kb ks) s fun t => begun t ∧ shown t) ∧
        Ends (.acdrain tile rel z fmt base str) s begun ∧ Ends (.acload tile w36 base str) s begun) ∧
      (x.isRec = true → Ends (.mma tile sx a b kb ks) s fun t => Failed 3 r s t ∧ t.tileAt ck tile = x) ∧
      (x.isRec = false → Ends (.cellp tile a b kb ks) s fun t => Failed 3 r s t ∧ t.tileAt ck tile = x) ∧
      (x.isRec = false → r.aux ≠ [] → x.colm1 < 128 → s.Calm → a.fmt = .packed → b.fmt = .packed →
        (∀ i, i < rows → s.Window ck job (a.base + i * a.str + n * sxBytes (sxK sx)) (sxBytes (sxK sx)) (la i)) →
        (∀ j, j < cols → s.Window ck job (b.base + j * b.str + n * sxBytes (sxK sx)) (sxBytes (sxK sx)) (lb j)) →
        Ends (.mma tile sx a b kb ks) s fun t => SameMem s t ∧ Proceeds r (decide (kb ≤ n + 1)) s t ∧ (t.clusterAt ck).rowprog.next = n + 1 ∧
          (t.tileAt ck tile).live = true ∧ (t.tileAt ck tile).owner = job ∧ (t.tileAt ck tile).free = false ∧
          ∀ i j, j < 128 → if inTile i j then
              let A := block (la i)
              let B := block (lb j)
              let S := blockSum A B
              let e : Int := A.e + B.e - 256 - 2 * (sxK sx - 1)
              touched t i j = (if A.e = 255 ∨ B.e = 255 then w36NaN else if A.e = 0 ∨ B.e = 0 ∨ S = 0 then x.el i j
                else (w36OfVal .rne ((w36Value (x.el i j)).add .rne (Val.dyad (decide (S < 0)) S.natAbs e))).1) ∧
              (t.tileAt ck tile).elPois i j = (s.poisAt (la i) (sxBytes (sxK sx)) || s.poisAt (lb j) (sxBytes (sxK sx)) || x.elPois i j)
            else touched t i j = x.el i j ∧ (t.tileAt ck tile).elPois i j = x.elPois i j) ∧
      (x.isRec = true → r.aux ≠ [] → x.colm1 < 128 → s.Calm → ∀ fa fb : Fmt, opFmtStore a.fmt = some fa → opFmtStore b.fmt = some fb →
        (∀ i k, i < rows → k < 16 → s.Window ck job (a.base + i * a.str + (16 * n + k) * opFmtSize a.fmt) (opFmtSize a.fmt) (ca i k)) →
        (∀ j k, j < cols → k < 16 → s.Window ck job (b.base + (16 * n + k) * b.str + j * opFmtSize b.fmt) (opFmtSize b.fmt) (cb j k)) →
        Ends (.cellp tile a b kb ks) s fun t => SameMem s t ∧ Proceeds r (decide (kb ≤ n + 1)) s t ∧ (t.clusterAt ck).rowprog.next = n + 1 ∧
          (t.tileAt ck tile).live = true ∧
          ∀ i j, inTile i j → touched t i j = (List.range 16).foldl (fun acc k =>
            (runCell x.mprog (w36OfVal .rne (fmtValue fa (s.numAt (ca i k) (opFmtSize a.fmt)))).1
              (w36OfVal .rne (fmtValue fb (s.numAt (cb j k) (opFmtSize b.fmt)))).1 [0, 1, 2, 3] (acc, w36Zero false, 0)).1) (x.el i j)) ∧
      Ends (.aczero tile rel fill) s (fun t => SameMem s t ∧ Completed r s t ∧
        t.tileAt ck tile = { x with elems := [], pois := [], fill := [w36Zero false, w36Inf true, w36Inf false].getD fill 0, live := false, flags := 0,
                                    free := rel, owner := if rel then 0 else job }) ∧
      Ends (.accfg tile true rc cm rm prog) s (fun t => SameMem s t ∧ Completed r s t ∧
        t.tileAt ck tile = { own with elems := [], pois := [], fill := w36Zero false, live := false, flags := 0, rowm1 := rm, colm1 := cm, isRec := rc,
                                      mprog := prog }) ∧
      (x.live = false → Ends (.accfg tile false rc cm rm prog) s fun t => SameMem s t ∧ Completed r s t ∧
        t.tileAt ck tile = { own with rowm1 := rm, colm1 := cm, isRec := rc, mprog := prog }) ∧
      (x.live = true →
        (x.config = (rm.val, cm.val, rc, prog) → Ends (.accfg tile false rc cm rm prog) s fun t => SameMem s t ∧ Completed r s t ∧ t.tileAt ck tile = own) ∧
        (x.config ≠ (rm.val, cm.val, rc, prog) → Ends (.accfg tile false rc cm rm prog) s fun t => Failed 3 r s t ∧ t.tileAt ck tile = x)) ∧
      (s.Calm → r.aux ≠ [] →
        (r.prog < rows → s.Window ck job (base + r.prog * str) (cols * drainSize fmt) loc → Ends (.acdrain tile rel z fmt base str) s fun t =>
          SameMemBut loc (cols * drainSize fmt) s t ∧ Proceeds r false s t ∧ (∀ i j, touched t i j = x.el i j) ∧
          ∀ j, j < cols → t.numAt (loc + j * drainSize fmt) (drainSize fmt) = (drainEl fmt (x.el r.prog j)).1 % 2 ^ (8 * drainSize fmt)) ∧
        (rows ≤ r.prog → s.Window ck job (base + rows * str) 8 loc → Ends (.acdrain tile rel z fmt base str) s fun t =>
          SameMemBut loc 8 s t ∧ Completed r s t ∧
          t.dwAt loc = w64 (x.isRec.toNat * 2 ^ 50 + x.colm1 * 2 ^ 43 + x.rowm1 * 2 ^ 36 + x.live.toNat * 2 ^ 32 + job * 2 ^ 16 + x.flags.toNat) ∧
          t.tileAt ck tile = (let y : Tile := if z then { own with elems := [], pois := [], fill := w36Zero false, live := false, flags := 0 } else own
            if rel then { y with free := true, owner := 0 } else y)) ∧
        (r.aux.length = 1 → s.Window ck job (base + rows * str) 8 l1 →
          let st := s.dwAt l1
          let fits := fld st 36 7 = x.rowm1 ∧ fld st 43 7 = x.colm1 ∧ fld st 50 2 = x.isRec.toNat
          (¬ fits → Ends (.acload tile w36 base str) s fun t => Failed 5 r s t ∧
            t.tileAt ck tile = if r.aux = [1] then { own with free := true, owner := 0 } else own) ∧
          (fits → Ends (.acload tile w36 base str) s fun t => SameMem s t ∧ t.tileAt ck tile = own ∧
            t.run? = some { r with aux := [0, fld st 0 8, (s.poisAt l1 8).toNat] })) ∧
        (1 < r.aux.length →
          (r.prog < rows → x.colm1 < 128 → s.Window ck job (base + r.prog * str) (cols * if w36 then 8 else 4) loc → Ends (.acload tile w36 base str) s fun t =>
            SameMem s t ∧ Proceeds r false s t ∧ (t.tileAt ck tile).live = true ∧
            (∀ j, j < cols → touched t r.prog j = (if w36 then BitVec.ofNat 36 (s.numAt (loc + 8 * j) 8)
                else (w36OfVal .rne (FF.fp32.value (s.numAt (loc + 4 * j) 4))).1) ∧
              (t.tileAt ck tile).elPois r.prog j = s.poisAt (loc + (if w36 then 8 else 4) * j) (if w36 then 8 else 4)) ∧
            ∀ i j, i ≠ r.prog → j < 128 → touched t i j = x.el i j) ∧
          (rows ≤ r.prog → Ends (.acload tile w36 base str) s fun t => SameMem s t ∧ Completed r s t ∧ (t.tileAt ck tile).live = true ∧
            (∀ i j, touched t i j = x.el i j) ∧ ∀ k, (t.tileAt ck tile).flags.getLsbD k = true ↔
              (BitVec.ofNat 8 (r.aux.getD 1 0)).getLsbD k = true ∨ (k = 7 ∧ (r.aux.getD 2 0 = 1 ∨ ∃ i j, inTile i j ∧ x.elPois i j = true)))))) ∧
    (x.foreign job = false → s.Calm → s.Window ck job base 16 loc → Ends (.acstat tile base) s fun t => SameMemBut loc 16 s t ∧ Completed r s t ∧
      t.dwAt loc = x.word ∧ t.dwAt (loc + 8) = s.rowprogWord ck ∧ t.tileAt ck tile = x)

/-- R246 to R248, R254, R258, R260, R261, R263 to R265: ROT.CFG takes and clears the named sets or is refused; LOAD reads an image; ROT.SOLVE writes the
unknowns; ROT.READ writes a set in its three forms; ROT.GAIN compensates rows. -/
def Obligations.TriangleSets : Prop :=
  ∀ (s : State) (r : RunCmd) (set : Fin 4) (z rel : Bool) (part : Fin 3) (act tsel base str loc : Nat) (nc : List Nat) (mask : W32),
    s.run? = some r → r.parked = none → r.Quiet s → s.mishap = .none →
    let ck := s.cmd.ck
    let job := r.cmd.job
    let a := s.rtaAt ck
    let x := a.set set
    let now (t : State) : Tri := (t.rtaAt ck).set set
    let named := cfgGroups act tsel nc
    (a.free = false → a.owner ≠ job → Ends (.rotCfg rel z part act tsel nc) s fun t => Failed 4 r s t ∧ t.rtaAt ck = a) ∧
    (a.free = true ∨ a.owner = job → (∀ e ∈ named, (a.set e.2.1).foreign job = false) →
      (z = false → (∃ e ∈ named, (a.set e.2.1).empty = false ∧ (a.set e.2.1).nc ≠ e.2.2) →
        Ends (.rotCfg rel z part act tsel nc) s fun t => Failed 3 r s t ∧ t.rtaAt ck = a) ∧
      ((named.map fun e => e.2.1).Nodup →
        (z = true ∨ (∀ e ∈ named, (a.set e.2.1).empty = true ∨ (a.set e.2.1).nc = e.2.2)) → Ends (.rotCfg rel z part act tsel nc) s fun t =>
          SameMem s t ∧ Completed r s t ∧ (t.rtaAt ck).free = rel ∧ (rel = false → (t.rtaAt ck).owner = job ∧ (t.rtaAt ck).part = part) ∧
          (∀ e ∈ named, let y := (t.rtaAt ck).set e.2.1
            y.free = rel ∧ y.owner = (if rel then 0 else job) ∧ y.nc = e.2.2 ∧ (rel = false → (t.rtaAt ck).group e.1 = ⟨true, e.2.2, e.2.1, 0, none, 0, false⟩) ∧
            (z = true → y.nabs = 0 ∧ y.flags = 0 ∧ y.skipped = 0 ∧ y.empty = true) ∧
            (z = false → (a.set e.2.1).empty = false → y.rows = (a.set e.2.1).rows ∧ y.nabs = (a.set e.2.1).nabs ∧ y.flags = (a.set e.2.1).flags)) ∧
          ∀ k, (∀ e ∈ named, e.2.1 ≠ k) → (t.rtaAt ck).set k = a.set k)) ∧
    (x.foreign job = true → ∀ i ∈ [Instr.rotTriLoad set base, .rotSolve set base, .rotReadFp32 set base str, .rotReadRaw set base, .rotGain set mask],
      Ends i s fun t => Failed 4 r s t ∧ t.rtaAt ck = a) ∧
    (x.foreign job = false → s.Calm →
      (let h := s.dwAt loc
        let n := fld h 32 5 + 1
        let word (i j : Nat) : W64 := s.dwAt (loc + 8 + 8 * (n + 1) * i + 8 * j)
        let m (i j : Nat) : Int := (word i (j + 1)).toInt
        s.Window ck job base (8 + 8 * n * (n + 1)) loc →
        (fld h 5 2 ≠ 0 ∨ fld h 8 8 ≠ 0 ∨ fld h 37 11 ≠ 0 → Ends (.rotTriLoad set base) s fun t => Failed 0x12 r s t ∧ (now t).rows = x.rows) ∧
        (fld h 5 2 = 0 → fld h 8 8 = 0 → fld h 37 11 = 0 →
          (∀ i j, i < n → j < n → fld (word i 0) 10 6 = 0 ∧ fld (word i 0) 22 42 = 0 ∧ (m i j).natAbs < 2 ^ 38 ∧ (j < i → m i j = 0)) →
          Ends (.rotTriLoad set base) s fun t => SameMem s t ∧ Completed r s t ∧ (now t).nc = n ∧ (now t).nabs = fld h 48 16 ∧ (now t).free = false ∧
            (now t).owner = job ∧ ∀ i j, i ≤ j → j < n → (now t).ent i j = (if m i i < 0 then -(m i j) else m i j) ∧
              (m i j ≠ 0 → ((now t).row i).x = sextNat 10 (fld (word i 0) 0 10) ∧ ((now t).row i).g = fld (word i 0) 16 6) ∧
              ((∀ k, k < n → m i k = 0) → ((now t).row i).x = 0 ∧ ((now t).row i).g = 0))) ∧
      (0 < x.nc → s.Window ck job base (4 * x.nc + 4) loc → Ends (.rotSolve set base) s fun t =>
        let n := x.nc - 1
        let y (i : Nat) := t.numAt (loc + 4 * i) 4
        SameMemBut loc (4 * x.nc + 4) s t ∧ Completed r s t ∧ (now t).rows = x.rows ∧
        (∀ i, i < n → y i = if x.ent i i = 0 then 0x7FC00000 else (FF.fp32.ofVal .rne (((List.range (n - 1 - i)).foldl (fun v k =>
          v.add .rne ((Val.ofInt (x.ent i (i + 1 + k))).mul (FF.fp32.value (y (i + 1 + k)))).negate) (Val.ofInt (x.ent i n))).div
            (Val.ofInt (x.ent i i)))).1 % 2 ^ 32) ∧
        y n = (entryTo FF.fp32 (x.ent n n).natAbs (x.row n).x (x.row n).g).1 % 2 ^ 32 ∧
        ((∃ i, i < n ∧ x.ent i i = 0) → y (n + 1) % 2 = 1 ∧ (now t).flags.getLsbD 2 = true)) ∧
      (str < 4 * x.nc → Ends (.rotReadFp32 set base str) s (Failed 3 r s)) ∧
      (4 * x.nc ≤ str → s.Window ck job (base + r.prog * str) (4 * x.nc) loc → Ends (.rotReadFp32 set base str) s fun t =>
        SameMemBut loc (4 * x.nc) s t ∧ Proceeds r (decide (x.nc ≤ r.prog + 1)) s t ∧
        ∀ j, j < x.nc → t.numAt (loc + 4 * j) 4 =
          if j < r.prog then 0 else (entryTo FF.fp32 (x.ent r.prog j) (x.row r.prog).x (x.row r.prog).g).1 % 2 ^ 32) ∧
      (r.prog = 0 → s.Window ck job base 8 loc → Ends (.rotReadRaw set base) s fun t => SameMemBut loc 8 s t ∧ Proceeds r false s t ∧
        t.dwAt loc = w64 (x.nabs * 2 ^ 48 + (x.nc - 1) * 2 ^ 32 + job * 2 ^ 16 + x.empty.toNat * 2 ^ 7 + x.flags.toNat)) ∧
      (r.prog ≠ 0 → s.Window ck job (base + 8 + 8 * (x.nc + 1) * (r.prog - 1)) (8 * (x.nc + 1)) loc → Ends (.rotReadRaw set base) s fun t =>
        SameMemBut loc (8 * (x.nc + 1)) s t ∧ Proceeds r (decide (x.nc ≤ r.prog)) s t ∧
        t.dwAt loc = w64 ((x.row (r.prog - 1)).g * 2 ^ 16 + lowBits 10 (x.row (r.prog - 1)).x) ∧
        ∀ j, j < x.nc → t.dwAt (loc + 8 * (j + 1)) = if j < r.prog - 1 then 0 else BitVec.ofInt 64 (x.ent (r.prog - 1) j)) ∧
      Ends (.rotGain set mask) s (fun t => SameMem s t ∧ Completed r s t ∧ ∀ i row, x.rows[i]? = some row → (now t).rows[i]? = some
        (if mask.getLsbD i then { row with ms := (scaleK row.ms row.x (-(row.g : Int))).1, x := (scaleK row.ms row.x (-(row.g : Int))).2, g := 0 } else row))) ∧
    (s.Calm → s.Window ck job base 96 loc → Ends (.rotReadStat base) s fun t => SameMemBut loc 96 s t ∧ Completed r s t ∧ t.rtaAt ck = a ∧
      ∀ q, q < 4 → let g := a.group q
        t.dwAt (loc + 16 * q) = w64 (g.prob.getD 0xFFFFFFFF * 2 ^ 32 + g.left) ∧
        t.dwAt (loc + 16 * q + 8) = w64 (g.badp * 2 ^ 16 + g.fin.toNat * 2 + g.act.toNat) ∧
        t.dwAt (loc + 64 + 8 * q) = if (a.set q).foreign job then 0 else (a.set q).word)

/-- R248, R249, R258, R261, R262, R266, R267: STREAM and AUTO need the job's configuration; a group absorbs its next row, and a row that is not finite is
skipped and counted; AUTO sets BADP and FIN to 0 when it starts (log entry 81), pops a problem and counts one that it cannot solve; ROT.APPLY reads its header and then rotates one vector after the other; ROT.ANG
converts one word. -/
def Obligations.RowsAndVectors : Prop :=
  ∀ (s : State) (r : RunCmd) (q base dq pmax lo hi vb yb hb n loc l1 l2 l3 : Nat) (rest : List Range) (d : RowDesc) (bf16 : Bool) (vf : Fin 3) (h : ApplyHdr)
    (es : Nat → SeqEnt), s.run? = some r → r.parked = none → r.Quiet s → s.mishap = .none →
    let ck := s.cmd.ck
    let job := r.cmd.job
    let a := s.rtaAt ck
    let g := a.group q
    let x := a.set g.set
    let size := g.nc * rtaSize d.fmt
    let vals := (List.range g.nc).map fun i => (rtaFmt d.fmt).value (s.numAt (loc + rtaSize d.fmt * i) (rtaSize d.fmt))
    let now (t : State) : RtaGroup := (t.rtaAt ck).group q
    let set (t : State) : Tri := (t.rtaAt ck).set g.set
    let phase (t : State) (n : Nat) : Prop := ∀ r', t.run? = some r' → autoPhase r'.aux q = n
    (a.free = true → r.prog = 0 → (Ends (.rotTriStream base) s fun t => Failed 0x10 r s t ∧ t.rtaAt ck = a) ∧
      Ends (.rotTriAuto base dq pmax) s fun t => Failed 0x10 r s t ∧ t.rtaAt ck = a) ∧
    (a.free = false → a.owner ≠ job → r.prog = 0 → (Ends (.rotTriStream base) s fun t => Failed 4 r s t ∧ t.rtaAt ck = a) ∧
      Ends (.rotTriAuto base dq pmax) s fun t => Failed 4 r s t ∧ t.rtaAt ck = a) ∧
    (a.free = false → a.owner = job → r.prog = 0 → a.enabled = [q] → x.foreign job = false →
      (s.Calm → s.Window ck job (base + 16 * q) 16 loc → rowDesc g.nc (s.pbytesAt loc 16) = some d →
        (x.empty = true ∨ x.nc = g.nc → Ends (.rotTriStream base) s fun t => SameMem s t ∧ (d.n = 0 → Completed r s t) ∧
          (d.n ≠ 0 → ∃ r', t.run? = some r' ∧ r'.prog = 1 ∧ savedDesc r'.aux q = d) ∧ (now t).left = d.n ∧ (now t).fin = (d.n == 0) ∧ (set t).nc = g.nc ∧
          (set t).owner = job) ∧
        (x.empty = false → x.nc ≠ g.nc → Ends (.rotTriStream base) s fun t => Failed 3 r s t ∧ t.rtaAt ck = a)) ∧
      Ends (.rotTriAuto base dq pmax) s fun t => SameMem s t ∧ Proceeds r false s t ∧ (now t).badp = 0 ∧ (now t).fin = false ∧ (set t).owner = job) ∧
    (r.prog ≠ 0 → (a.enabled.filter fun p => (a.group p).left != 0) = [] → Ends (.rotTriStream base) s (Completed r s)) ∧
    (r.prog ≠ 0 → (a.enabled.filter fun p => (a.group p).left != 0) = [q] → savedDesc r.aux q = d → s.Calm →
      s.Window ck job (d.base + (d.n - g.left) * d.str) size loc → Ends (.rotTriStream base) s fun t =>
        SameMem s t ∧ (g.left = 1 → Completed r s t) ∧ (g.left ≠ 1 → t.run? = some r) ∧ (now t).left = g.left - 1 ∧ (now t).fin = (g.left == 1) ∧
        (set t).nabs = min (x.nabs + 1) 0xFFFF ∧
        ((∃ v ∈ vals, v.isFin = false) → (set t).rows = x.rows ∧ (set t).skipped = min (x.skipped + 1) 0xFFFF ∧ (set t).flags.getLsbD 0 = true) ∧
        ((∀ v ∈ vals, v.isZero = true) → (set t).rows = x.rows ∧ (set t).flags = x.flags) ∧
        set t = x.absorb vals (s.poisAt loc size) none) ∧
    (r.prog ≠ 0 → anyOf s (autoReady r a) = some q → autoPhase r.aux q ≤ 1 → (∀ e ∈ r.held, e.1 ≠ q) →
      (popTop job (s.autoDq dq) = none → Ends (.rotTriAuto base dq pmax) s fun t => SameMem s t ∧ (now t).fin = true ∧ t.cores = s.cores ∧ phase t 4) ∧
      (s.autoDq dq = rest ++ [⟨lo, hi, job⟩] → Ends (.rotTriAuto base dq pmax) s fun t => SameMem s t ∧ (now t).prob = some lo ∧
        (t.coreAt (ck * 16 + dq)).dq = (if 1 < hi - lo then rest ++ [⟨lo + 1, hi, job⟩] else rest) ∧
        (pmax ≤ lo → (now t).badp = min (g.badp + 1) 0xFFFF ∧ phase t 1) ∧ (lo < pmax → (now t).badp = g.badp ∧ phase t 2))) ∧
    (a.free = false → a.owner ≠ job → Ends (.rotApply bf16 vf vb yb hb) s fun t => Failed 4 r s t ∧ t.rtaAt ck = a) ∧
    (a.free = true ∨ a.owner = job → s.Calm →
      let zy := if bf16 then 2 else 4
      let f := if bf16 then FF.bf16 else FF.fp32
      (r.aux = [] → s.Window ck job hb 32 l1 →
        (applyHdr (rtaSize vf) zy (s.pbytesAt l1 32) = none → Ends (.rotApply bf16 vf vb yb hb) s (Failed 0x11 r s)) ∧
        (applyHdr (rtaSize vf) zy (s.pbytesAt l1 32) = some h → Ends (.rotApply bf16 vf vb yb hb) s fun t => SameMem s t ∧ t.rtaAt ck = a ∧
          ∃ r', t.run? = some r' ∧ r'.aux ≠ [] ∧ savedHdr r'.aux = h ∧ { r' with aux := [] } = r)) ∧
      (r.aux ≠ [] → savedHdr r.aux = h → s.Window ck job (vb + r.prog * h.vstr) (h.l * rtaSize vf) l2 →
        s.Window ck job h.q (8 * h.s) l3 → (∀ k, k < h.s → seqEnt h.l (s.pbytesAt (l3 + 8 * k) 8) = some (es k)) →
        s.Window ck job (yb + r.prog * h.ystr) (h.l * zy) loc → Ends (.rotApply bf16 vf vb yb hb) s fun t =>
          let vs := (List.range h.l).map fun i => (rtaFmt vf).value (s.numAt (l2 + rtaSize vf * i) (rtaSize vf))
          let y (i : Nat) := t.numAt (loc + zy * i) zy
          SameMemBut loc (h.l * zy) s t ∧ Proceeds r (decide (h.n ≤ r.prog + 1)) s t ∧ t.rtaAt ck = a ∧
          ((∃ v ∈ vs, v.isFin = false) → ∀ i, i < h.l → y i = f.nan % 2 ^ (8 * zy)) ∧
          ((∀ v ∈ vs, v.isZero = true) → ∀ i, i < h.l → y i = 0) ∧
          ∀ i, i < h.l → y i = (applySeq f vs ((List.range h.s).map es)).getD i 0 % 2 ^ (8 * zy))) ∧
    (s.Calm → s.Window ck job (vb + 4 * r.prog) 4 l1 → s.Window ck job (yb + 8 * r.prog) 8 loc → Ends (.rotAngToSig32 vb yb n) s fun t =>
      SameMemBut loc 8 s t ∧ Proceeds r (decide (n ≤ r.prog + 1)) s t ∧
      t.dwAt loc = w64 ((bamToSig (s.numAt l1 4)).1.toNat * 2 ^ 32 + (bamToSig (s.numAt l1 4)).2)) ∧
    (s.Calm → s.Window ck job (vb + 8 * r.prog) 8 l1 → s.Window ck job (yb + 4 * r.prog) 4 loc → Ends (.rotAngToBam32 vb yb n) s fun t =>
      SameMemBut loc 4 s t ∧ Proceeds r (decide (n ≤ r.prog + 1)) s t ∧
      t.numAt loc 4 = sigToBam (fld (s.dwAt l1) 32 1 == 1) (fld (s.dwAt l1) 0 32) % 2 ^ 32)

/-- R297 to R299, R302, R303, R305, R306: CP.GET, CP.PUT and CP.SHD refuse ranges whose bytes overlap (log entry 28), else copy any piece that is left, and the last one ends them
with the counter update; CP.MC reads its descriptor, waits for the permit, fetches a tile and writes it to its branches while it fetches the next one; CP.WM arms, frees and reads a
channel; a publishing CP.SHD advances TGT. In what order the parts of CP.MC are fetched and written is log entry 44, which side CP.SHD latches log entry 65. -/
def Obligations.Copying : Prop :=
  ∀ (s : State) (r : RunCmd) (p : Piece) (i rows sb db rlen ss ds mb nt tlen tstr va n g len off etgt l1 loc : Nat) (ch : Fin 16) (och : Option (Fin 16))
    (rcv pub : Bool) (reg reg' reg'' : Region) (e : TlbEnt) (side g' : Nat), s.run? = some r → r.parked = none → r.Quiet s →
    let ck := s.cmd.ck
    let job := r.cmd.job
    let w := (s.clusterAt ck).wmAt ch
    let chAt (t : State) : Wm := (t.clusterAt ck).wmAt ch
    let left := leftOf (copyPieces rows sb db rlen ss ds) r.aux
    let meet := rangesMeet rows sb ss rlen rows db ds rlen
    let start (t : State) : Prop := SameMem s t ∧ Proceeds r false s t
    let moved (l : List (Piece × Nat)) (t : State) : Prop := 1 < l.length → t.run? = some { r with aux := r.aux ++ [i] }
    (r.prog = 0 →
      (meet = true → (Ends (.cpGet rows sb none db rlen ss ds) s (Failed 0x13 r s)) ∧ Ends (.cpPut rcv rows sb db rlen ss ds) s (Failed 0x13 r s)) ∧
      (s.fillOk ck job ch rows db rlen ds = false → Ends (.cpGet rows sb (some ch) db rlen ss ds) s (Failed 0x10 r s)) ∧
      (meet = false → rcv = true → (s.jobAt job).img.allot ≤ tcwCtr r.cmd.w0 → Ends (.cpPut rcv rows sb db rlen ss ds) s (Failed 0x10 r s)) ∧
      (meet = false → (s.fillOk ck job ch rows db rlen ds = true → Ends (.cpGet rows sb (some ch) db rlen ss ds) s start) ∧
        Ends (.cpGet rows sb none db rlen ss ds) s start ∧
        ((rcv = true → tcwCtr r.cmd.w0 < (s.jobAt job).img.allot) → Ends (.cpPut rcv rows sb db rlen ss ds) s start))) ∧
    (r.prog ≠ 0 → anyOf s left = some (p, i) → s.Calm → s.Window ck job p.src p.n l1 → s.Window ck job p.dst p.n loc →
      (Ends (.cpGet rows sb och db rlen ss ds) s fun t => Copies l1 loc p.n s t ∧ moved left t ∧
        (left.length = 1 → Completed r s t ∧ CountsAt ck r s t ∧ (och = some ch → (chAt t).bits.has ((p.dst - 0x400000 - w.base) / 64) = true))) ∧
      Ends (.cpPut rcv rows sb db rlen ss ds) s fun t => Copies l1 loc p.n s t ∧ moved left t ∧
        (left.length = 1 → Completed r s t ∧ CountsAt (if rcv then windowCk ck db else ck) r s t)) ∧
    (r.prog = 0 → s.Calm → s.Window ck job mb 64 l1 →
      let bs := s.pbytesAt l1 64
      let br (b : Nat) := branchAt bs b
      (mcOk (s.jobAt job).img.allot tlen bs = false → Ends (.cpMc sb mb nt tlen tstr) s (Failed 0x11 r s)) ∧
      (mcOk (s.jobAt job).img.allot tlen bs = true → (∀ b, b < 4 → (br b).slots = 0 ∨
        rangesMeet nt sb tstr tlen (min nt (br b).slots) (br b).dst (br b).dstr tlen = false) → r.aux = [] → Ends (.cpMc sb mb nt tlen tstr) s fun t =>
        SameMem s t ∧ ∃ r', t.run? = some r' ∧ r'.prog = 1 ∧ 24 ≤ r'.aux.length ∧ mcTiles r'.aux = ⟨[], [], []⟩ ∧ ∀ b, b < 4 → savedBranch r'.aux b = br b ∧
          savedBase r'.aux b = (s.counterAt (cntKey ck job (br b).ctr)).count.toNat)) ∧
    (r.prog ≠ 0 → 24 ≤ r.aux.length → s.Calm →
      let k := r.prog - 1
      let m := mcTiles r.aux
      let bytes (n : Nat) := (s.pbytesAt l1 n).map fun x => x.1.toNat + 256 * x.2.toNat
      let goes (prog : Nat) (m' : McTiles) (t : State) : Prop := ∃ r', t.run? = some r' ∧ r'.prog = prog ∧ mcTiles r'.aux = m' ∧ r'.aux.take 24 = r.aux.take 24
      let left := leftOf (mcPieces r k tlen) m.done
      let other := left.map (fun e => McDo.write e.1 e.2) ++ if k + 1 < nt then mcFetch s r (k + 1) sb tlen tstr m.next else []
      (m.cur = [] → 0 < tlen → s.permits r k = false → Ends (.cpMc sb mb nt tlen tstr) s fun t => t = s) ∧
      (m.cur.length < tlen → m.cur ≠ [] ∨ s.permits r k = true →
        (pieces (sb + k * tstr + m.cur.length) (tlen - m.cur.length)).head? = some (va, n) → s.Window ck job va n l1 →
        Ends (.cpMc sb mb nt tlen tstr) s fun t => SameMem s t ∧ goes r.prog { m with cur := m.cur ++ bytes n } t) ∧
      (tlen ≤ m.cur.length →
        (other = [] → Ends (.cpMc sb mb nt tlen tstr) s fun t => t = s) ∧
        (anyOf s other = some (.fetch va n) → s.Window ck job va n l1 → Ends (.cpMc sb mb nt tlen tstr) s fun t => SameMem s t ∧
          goes r.prog { m with next := m.next ++ bytes n } t) ∧
        (anyOf s other = some (.write p i) → s.Window ck job p.dst p.n loc → p.src + p.n ≤ m.cur.length → Ends (.cpMc sb mb nt tlen tstr) s fun t =>
          SameMemBut loc p.n s t ∧ (∀ j, j < p.n → (t.byteAt (loc + j)).toNat = m.cur.getD (p.src + j) 0 % 256) ∧
          (1 < left.length → goes r.prog { m with done := m.done ++ [i] } t) ∧ (left.length = 1 → nt ≤ k + 1 → Completed r s t) ∧
          (left.length = 1 → k + 1 < nt → goes (r.prog + 1) ⟨m.next, [], []⟩ t)))) ∧
    ((s.jobAt job).regions[g]? = none ∨ ((s.jobAt job).regions[g]? = some reg ∧ (reg.len = 0 ∨ reg.len < off + len)) →
      Ends (.cpShd pub sb g len off etgt) s (Failed 0x12 r s)) ∧
    ((s.jobAt job).regions[g]? = some reg → reg.len ≠ 0 → off + len ≤ reg.len → let dst := reg.base + off
      let left := leftOf (copyPieces 1 sb dst len 0 0) r.aux
      (r.prog = 0 → (rangesMeet 1 sb 0 len 1 dst 0 len = true → Ends (.cpShd pub sb g len off etgt) s (Failed 0x13 r s)) ∧
        (rangesMeet 1 sb 0 len 1 dst 0 len = false → Ends (.cpShd pub sb g len off etgt) s start)) ∧
      (r.prog ≠ 0 → anyOf s left = some (p, i) → s.Calm → s.Window ck job p.src p.n l1 → translated p.dst = true → s.tlbFind ck 0 job p.dst = some e → e.w = true →
        regionAt (s.jobAt job).regions p.dst = some (g', reg') → reg'.writeSide (cmdNo s.cmd) = some (side, reg'') →
        let at_ := if side = 0 then e.pa + p.dst % leafSize e.lvl e.big else side1 (e.pa + p.dst % leafSize e.lvl e.big)
        Ends (.cpShd pub sb g len off etgt) s fun t => Copies l1 at_ p.n s t ∧ (left.length = 1 → Completed r s t ∧
          ((t.jobAt job).regions[g]?).map Region.tgt = some (if pub ∧ reg.tgt = etgt then (reg.tgt + 1) % 2 ^ 48 else reg.tgt)))) ∧
    (w.owner ≠ none → w.owner ≠ some job → ∀ i ∈ [Instr.cpWmArm ch sb len, .cpWmDisarm ch, .cpWmRead ch sb], Ends i s fun t => Failed 4 r s t ∧ chAt t = w) ∧
    (w.owner = none ∨ w.owner = some job →
      (∀ run, s.runOf ck job = some run → 0x400000 ≤ sb → sb < 0x800000 → sb - 0x400000 + len ≤ run.n * 65536 → Ends (.cpWmArm ch sb len) s fun t =>
        SameMem s t ∧ Completed r s t ∧ chAt t = ⟨some job, true, false, sb - 0x400000, len, []⟩) ∧
      (sb < 0x400000 ∨ 0x800000 ≤ sb ∨ s.runOf ck job = none → Ends (.cpWmArm ch sb len) s (Failed 2 r s)) ∧
      (Ends (.cpWmDisarm ch) s fun t => SameMem s t ∧ Completed r s t ∧ chAt t = Wm.init) ∧
      (s.Calm → s.Window ck job sb 16 loc → Ends (.cpWmRead ch sb) s fun t => SameMemBut loc 16 s t ∧ Completed r s t ∧ chAt t = w ∧
        (w.owner = none → t.dwAt loc = 0 ∧ t.dwAt (loc + 8) = 0) ∧
        (w.owner = some job → t.dwAt loc = w64 (w.armed.toNat * 2 ^ 63 + w.err.toNat * 2 ^ 62 + 0x400000 + w.base + 64 * w.filled (w.len / 64) 0) ∧
          t.dwAt (loc + 8) = w64 (w.base * 2 ^ 32 + w.len))))

/-- R308 to R317, R389, R392: a gather reads and checks its descriptor and ends with its record; a position is invalid, missing, or leads to a row, by its
index alone or by a kernel, whose words do what R309 gives; an invalid or missing one counts, and writes zeros under ZF; a row is copied, dequantised, or pooled
with each sum rounded, a prefetch writes nothing, and a hit copies the output row; G.SCAT keeps a target's updates in the filter, from which the least recently
used leaves where a target that the full filter does not hold is next, and all at the end (log entry 45); G.KERN loads a kernel. -/
def Obligations.Gathering : Prop :=
  ∀ (s : State) (ck unit base nw desc res l1 loc n x : Nat) (r : RunCmd) (slot : Fin 4) (g : Gather) (pf zf q4 bf16 : Bool) (k : GKind) (rest : List (Nat × Bool))
    (e : FEnt) (more : List FEnt),
    (s.run? = some r → r.parked = none → r.Quiet s →
      let own := s.cmd.ck
      let job := r.cmd.job
      (s.Calm → s.Window own job base (4 * nw) l1 →
        let ws := (List.range nw).map fun j => w32 (s.numAt (l1 + 4 * j) 4)
        let free := (s.clusterAt own).kernAt slot = none ∨ ∃ old, (s.clusterAt own).kernAt slot = some (job, old)
        let unused := ∀ y ∈ (s.engAt own 4).runs, y.gather = none
        (free → unused → s.poisAt l1 (4 * nw) = false → kernelOk ws = true → Ends (.gKern slot base nw) s fun t => SameMem s t ∧ Completed r s t ∧
          (t.clusterAt own).kernAt slot = some (job, ws)) ∧
        (free → unused → s.poisAt l1 (4 * nw) = true ∨ kernelOk ws = false → Ends (.gKern slot base nw) s (Failed 0x12 r s)) ∧
        (∀ old other, (s.clusterAt own).kernAt slot = some (other, old) → other ≠ job → Ends (.gKern slot base nw) s (Failed 4 r s))) ∧
      ∀ p ∈ [(Instr.gRows pf zf desc res, GKind.rows pf zf), (.gEmb q4 bf16 zf desc res, .emb q4 bf16 zf), (.gScatFadd desc res, .scat 0),
          (.gScatIadd desc res, .scat 1), (.gScatOverwrite desc res, .scat 2)],
        (r.gather = none → s.Calm → s.Window own job desc 64 l1 → let bs := s.pbytesAt l1 64
          (gdescOk p.2 bs = false → Ends p.1 s (Failed 0x10 r s)) ∧
          (gdescOk p.2 bs = true → ∀ j, (gdesc (pdw bs)).kern = some j → (s.clusterAt own).kernAt j = none → Ends p.1 s (Failed 0x11 r s)) ∧
          (gdescOk p.2 bs = true → (∀ j, (gdesc (pdw bs)).kern = some j → ∃ ws, (s.clusterAt own).kernAt j = some (job, ws)) → Ends p.1 s fun t =>
            SameMem s t ∧ t.run? = some { r with gather := some Gather.init, aux := r.aux ++ (List.range 6).map fun i => (s.dwAt (l1 + 8 * i)).toNat })) ∧
        (r.gather = some g → r.gd.n ≤ g.next → g.filter = [] ∨ p.2.isScat = false →
          (res = 0 → Ends p.1 s fun t => SameMem s t ∧ Completed r s t) ∧
          (res ≠ 0 → s.Calm → s.Window own job res 32 loc → Ends p.1 s fun t => SameMemBut loc 32 s t ∧ Completed r s t ∧
            t.numAt loc 4 = min g.next 0xFFFFFFFF ∧ t.numAt (loc + 4) 4 = min g.inval 0xFFFFFFFF ∧ t.numAt (loc + 8) 4 = min g.miss 0xFFFFFFFF ∧
            t.numAt (loc + 12) 4 = min g.hits 0xFFFFFFFF ∧ t.numAt (loc + 16) 8 = g.flags.toNat ∧ t.numAt (loc + 24) 8 = 0)) ∧
        (r.gather = some g → g.next < r.gd.n → Ends p.1 s fun t => t = s)) ∧
    (let s := { s with cmd := ⟨ck, 4, unit, 0⟩ }
      let job := r.cmd.job
      let d := r.gd
      let i := g.next
      let gath (t : State) : Option Gather := t.run?.bind RunCmd.gather
      let at_ := d.dbase + i * d.dstr
      let z := if bf16 then 2 else 4
      let later := g.ahead.filter fun e => decide (i < e.1)
      let due := d.n ≤ i ∨ (64 ≤ g.filter.length ∧ ∃ y, (i, 0, y) ∈ g.ahead ∧ ∀ f ∈ g.filter, f.target ≠ y)
      let leads (y : Target) : Prop := (d.kern = none ∧ y = if x < d.nrows then .row (d.tbase + x * d.tstr) else .invalid) ∨
        ∃ j kn, d.kern = some j ∧ (s.clusterAt ck).kernAt j = some kn ∧
          (runKernel (r.pfu s) kn.2 64 0 ([w64 x, w64 i, w64 d.tbase, w64 d.nrows] ++ List.replicate 12 0)).run s = (.ok y, s)
      let zeros (len : Nat) (t : State) : Prop := SameMemBut loc len s t ∧ ∀ j, j < len → t.byteAt (loc + j) = 0
      let gapped (g' : Gather) : Prop :=
        (d.bag = 0 → (k = .rows pf false ∨ k = .emb q4 bf16 false ∨ k = .scat n → Ends (.pfuIndexLine ck unit) s fun t => SameMem s t ∧ gath t = some g') ∧
          (∀ len, k = .rows false true ∧ len = d.rlen ∨ k = .emb q4 bf16 true ∧ len = d.rlen * z → s.Window ck job at_ len loc →
            Ends (.pfuIndexLine ck unit) s fun t => zeros len t ∧ gath t = some g')) ∧
        (d.bag ≠ 0 → k = .emb q4 bf16 zf →
          ((i + 1) % d.bag ≠ 0 → Ends (.pfuIndexLine ck unit) s fun t => SameMem s t ∧ gath t = some g') ∧
          ((i + 1) % d.bag = 0 → g.bagN = 0 → s.Window ck job (d.dbase + ((i + 1) / d.bag - 1) * d.dstr) (d.rlen * z) loc →
            Ends (.pfuIndexLine ck unit) s fun t => zeros (d.rlen * z) t ∧ (gath t).map Gather.next = some (i + 1)))
      let sg := FF.fp16.value (s.numAt l1 2)
      let om := FF.fp16.value (s.numAt (l1 + 2) 2)
      let code (f : FF) (j : Nat) : Nat :=
        let q := Val.ofInt (if q4 then s.numAt (l1 + 4 + j / 2) 1 / 16 ^ (j % 2) % 16 else s.numAt (l1 + 4 + j) 1)
        (f.result .rne (sg.fma .rne q om) [sg, q, om]).1
      let pooled (j : Nat) : W32 := if g.bagN = 0 then .ofNat 32 (code .fp32 j) else
        let l := FF.fp32.value (g.bag.getD j 0).toNat
        let q := FF.fp32.value (code .fp32 j)
        .ofNat 32 (FF.fp32.result .rne (l.add .rne q) [l, q]).1
      let out := if bf16 then FF.bf16 else FF.fp32
      s.run? = some r → r.gather = some g → r.parked = none → r.Quiet s → r.held = [] → s.clusterGone ck = false → s.Calm →
      gkindOf (tcwInstr r.cmd.w0 r.cmd.w1 r.cmd.w2 r.cmd.w3 ⟨0, 0⟩) = some k →
      (d.n ≤ i → Ends (.pfuIndexLine ck unit) s fun t => t = s) ∧
      (i < d.n → g.line = (x, true) :: rest → gapped { g with next := i + 1, line := rest, ahead := later, miss := g.miss + 1 }) ∧
      (i < d.n → g.line = (x, false) :: rest → (∀ e ∈ g.ahead, e.1 ≠ i) →
        (leads .invalid → gapped { g with next := i + 1, line := rest, ahead := later, inval := g.inval + 1 }) ∧
        (leads .missing → gapped { g with next := i + 1, line := rest, ahead := later, miss := g.miss + 1 }) ∧
        (∀ a, leads (.row a) → (∀ f ∈ g.filter, f.target ≠ a) →
          (d.bag = 0 → k = .rows false zf → s.Window ck job a d.rlen l1 → s.Window ck job at_ d.rlen loc → Ends (.pfuIndexLine ck unit) s fun t =>
            Copies l1 loc d.rlen s t ∧ ∃ g', gath t = some g' ∧ g'.next = i + 1 ∧ g'.line = rest ∧ g'.inval = g.inval ∧ g'.miss = g.miss ∧ g'.hits = g.hits) ∧
          (d.bag = 0 → k = .rows true zf → g.filter.length ≤ 64 → s.Window ck job a d.rlen l1 → 0 < d.rlen → Ends (.pfuIndexLine ck unit) s fun t =>
            SameMem s t ∧ gath t = some { g with next := i + 1, line := rest, ahead := later }) ∧
          (d.bag = 0 → k = .emb q4 bf16 zf → s.Window ck job a (imageSize q4 d.rlen) l1 → s.Window ck job at_ (d.rlen * z) loc →
            Ends (.pfuIndexLine ck unit) s fun t => SameMemBut loc (d.rlen * z) s t ∧ (∃ g', gath t = some g' ∧ g'.next = i + 1 ∧ g'.line = rest) ∧
              ∀ j, j < d.rlen → t.numAt (loc + z * j) z = code out j % 2 ^ (8 * z)) ∧
          (d.bag ≠ 0 → k = .emb q4 bf16 zf → s.Window ck job a (imageSize q4 d.rlen) l1 → (g.bagN ≠ 0 → g.bag.length = d.rlen) →
            ((i + 1) % d.bag ≠ 0 → Ends (.pfuIndexLine ck unit) s fun t => SameMem s t ∧ ∃ g', gath t = some g' ∧ g'.next = i + 1 ∧ g'.line = rest ∧
              g'.bagN = g.bagN + 1 ∧ g'.bag = (List.range d.rlen).map pooled) ∧
            ((i + 1) % d.bag = 0 → s.Window ck job (d.dbase + ((i + 1) / d.bag - 1) * d.dstr) (d.rlen * z) loc → Ends (.pfuIndexLine ck unit) s fun t =>
              SameMemBut loc (d.rlen * z) s t ∧ (∃ g', gath t = some g' ∧ g'.next = i + 1 ∧ g'.line = rest ∧ g'.bagN = 0) ∧
              ∀ j, j < d.rlen → t.numAt (loc + z * j) z = (out.ofVal .rne (FF.fp32.value (pooled j).toNat)).1 % 2 ^ (8 * z))) ∧
          (d.bag = 0 → k = .scat n → d.rlen ≤ 256 → g.filter.length < 64 → s.Window ck job at_ d.rlen l1 → Ends (.pfuIndexLine ck unit) s fun t =>
            SameMem s t ∧ ∃ g', gath t = some g' ∧ g'.next = i + 1 ∧ g'.line = rest ∧ g'.hits = g.hits ∧ g'.filter = g.filter ++ [⟨a, i, s.pbytesAt l1 d.rlen, 1⟩]) ∧
          (d.bag = 0 → k = .scat n → d.rlen ≤ 256 → 64 ≤ g.filter.length → s.Window ck job at_ d.rlen l1 → Ends (.pfuIndexLine ck unit) s fun t => SameMem s t ∧
            gath t = some { g with ahead := g.ahead ++ [(i, 0, a)] })) ∧
        (∀ a f0, leads (.row a) → (g.filter.find? fun f => f.target == a) = some f0 → d.bag = 0 →
          let last := g.filter.filter fun f => f.target != a
          (k = .rows false zf → s.Window ck job (d.dbase + f0.row * d.dstr) d.rlen l1 → s.Window ck job at_ d.rlen loc → Ends (.pfuIndexLine ck unit) s fun t =>
            Copies l1 loc d.rlen s t ∧ ∃ g', gath t = some g' ∧ g'.next = i + 1 ∧ g'.line = rest ∧ g'.hits = g.hits + 1 ∧
              g'.filter = last ++ [{ f0 with pos := f0.pos + 1 }]) ∧
          (k = .scat 2 → d.rlen ≤ 256 → s.Window ck job at_ d.rlen l1 → Ends (.pfuIndexLine ck unit) s fun t => SameMem s t ∧ ∃ g', gath t = some g' ∧
            g'.next = i + 1 ∧ g'.line = rest ∧ g'.hits = g.hits + 1 ∧ g'.filter = last ++ [{ f0 with part := s.pbytesAt l1 d.rlen, pos := f0.pos + 1 }]) ∧
          (k = .scat 1 → d.rlen ≤ 256 → d.rlen = 8 * n → f0.part.length = 8 * n → s.Window ck job at_ d.rlen l1 → Ends (.pfuIndexLine ck unit) s fun t =>
            SameMem s t ∧ ∃ g' part, gath t = some g' ∧ g'.next = i + 1 ∧ g'.line = rest ∧ g'.hits = g.hits + 1 ∧
              g'.filter = last ++ [{ f0 with part := part, pos := f0.pos + 1 }] ∧ ∀ j, j < n → pdw part j = pdw f0.part j + s.dwAt (l1 + 8 * j)))) ∧
      (g.filter = e :: more → ¬ due → Ends (.filterPartialEvict ck unit) s fun t => t = s) ∧
      (g.filter = e :: more → due → e.part.any Prod.snd = false → s.poisAt loc e.part.length = false →
        (k = .scat 0 → e.target % 4 = 0 → e.part.length = 4 * n → s.Window ck job e.target (4 * n) loc → Ends (.filterPartialEvict ck unit) s fun t =>
          SameMemBut loc (4 * n) s t ∧ gath t = some { g with filter := more } ∧ ∀ j, j < n → t.numAt (loc + 4 * j) 4 =
            (FF.fp32.ofVal .rne ((FF.fp32.value (s.numAt (loc + 4 * j) 4)).add .rne (FF.fp32.value (pfield e.part (4 * j) 4)))).1 % 2 ^ 32) ∧
        (k = .scat 1 → e.target % 8 = 0 → e.part.length = 8 * n → s.Window ck job e.target (8 * n) loc → Ends (.filterPartialEvict ck unit) s fun t =>
          SameMemBut loc (8 * n) s t ∧ gath t = some { g with filter := more } ∧ ∀ j, j < n → t.dwAt (loc + 8 * j) = s.dwAt (loc + 8 * j) + pdw e.part j) ∧
        (k = .scat 0 ∧ e.target % 4 ≠ 0 ∨ k = .scat 1 ∧ e.target % 8 ≠ 0 → Ends (.filterPartialEvict ck unit) s fun t =>
          SameMem s t ∧ gath t = some { g with filter := more, miss := g.miss + e.pos }) ∧
        (k = .scat 2 → s.Window ck job e.target e.part.length loc → Ends (.filterPartialEvict ck unit) s fun t =>
          SameMemBut loc e.part.length s t ∧ gath t = some { g with filter := more } ∧
          ∀ j b, e.part[j]? = some b → t.byteAt (loc + j) = b.1))) ∧
    (∀ (w : Who) (ws : List W32) (fuel k : Nat) (regs : List W64), (ws[k]? = none → (runKernel w ws (fuel + 1) k regs).run s = (.ok .invalid, s)) ∧
      ∀ y, ws[k]? = some y →
        let f (lo n : Nat) : Nat := y.toNat / 2 ^ lo % 2 ^ n
        let ga := regs.getD (f 20 4) 0
        let gb := regs.getD (f 16 4) 0
        let imm : W64 := (y.extractLsb' 0 16).signExtend 64
        let goes (k' : Nat) (regs' : List W64) : Prop := runKernel w ws (fuel + 1) k regs = runKernel w ws fuel k' regs'
        let gives (v : W64) : Prop := goes (k + 1) (regs.set (f 24 4) v)
        let ends (y : Target) : Prop := (runKernel w ws (fuel + 1) k regs).run s = (.ok y, s)
        match f 28 4 with
        | 0x0 => gives (ga + gb) | 0x1 => gives (ga + imm) | 0x2 => gives (ga - gb) | 0x3 => gives (ga * gb) | 0x4 => gives (ga &&& gb) | 0x5 => gives (ga ||| gb)
        | 0x6 => gives (ga <<< f 0 16) | 0x7 => gives (ga >>> f 0 16)
        | 0x8 => (ga + imm).toNat % 8 ≠ 0 → ends .missing
        | 0x9 => gives imm | 0xA => gives (ga ^^^ gb)
        | 0xB => goes (if gb.toNat ≤ ga.toNat then k + 1 + f 0 16 else k + 1) regs
        | 0xC => ends (.row ga.toNat) | 0xD => ends .invalid
        | 0xE => goes (if ga = gb then k + 1 + f 0 16 else k + 1) regs
        | _ => gives (ga &&& .ofNat 64 (f 0 16)))

/-- R40, R284, R285, R287, R288, R291 to R296: the commands of the fabric region: refused to another job; FLOAD takes a free region, then fills its slot with an
image that passes every check, and leaves it empty where one fails, with the region the job's own (log entry 43); FSEL starts a run from the initial state; FARG sets a constant; FSEED, FDRAIN and FSTAT. -/
def Obligations.FabricCommands : Prop :=
  ∀ (s : State) (r : RunCmd) (slot gens : Fin 4) (base maxsw n l1 l2 loc : Nat) (rel clr : Bool) (seed0 seed1 : W64) (im : List Byte),
    s.run? = some r → r.parked = none → r.Quiet s →
    let ck := s.cmd.ck
    let job := r.cmd.job
    let f := s.frAt ck
    let now (t : State) : Fr := t.frAt ck
    let old := f.image slot
    let emptied : Fr := { f with slots := f.slots.set [] slot [] }
    (f.free = false → f.owner ≠ job →
      (∀ i ∈ [Instr.fload slot base, .farg slot base n, .fseed gens seed0 seed1, .fdrain slot rel base, .fstat clr base], Ends i s fun t =>
        Failed 4 r s t ∧ now t = f) ∧
      (r.prog = 0 → Ends (.fsel slot maxsw) s fun t => Failed 4 r s t ∧ now t = f)) ∧
    (f.free = true ∨ f.owner = job →
      (r.prog = 0 → Ends (.fload slot base) s fun t => SameMem s t ∧ Proceeds r false s t ∧ now t = { f with free := false, owner := job }) ∧
      (r.prog ≠ 0 → s.Calm → s.Window ck job base 640 l1 → s.poisAt l1 640 = true → Ends (.fload slot base) s fun t => Failed 0x10 r s t ∧ now t = emptied) ∧
      (r.prog ≠ 0 → s.Calm → s.Window ck job base 640 l1 → s.poisAt l1 640 = false →
        let hd := (s.pbytesAt l1 640).map Prod.fst
        let m := 320 * (imPes hd).length + 8 * imNpre hd
        let whole := hd ++ (s.pbytesAt l2 m).map Prod.fst
        (4096 < imNpre hd → Ends (.fload slot base) s fun t => Failed 0x10 r s t ∧ now t = emptied) ∧
        (s.Window ck job (base + 640) m l2 → s.poisAt l2 m = true → imNpre hd ≤ 4096 → Ends (.fload slot base) s fun t => Failed 0x10 r s t ∧ now t = emptied) ∧
        (s.Window ck job (base + 640) m l2 → s.poisAt l2 m = false → imNpre hd ≤ 4096 →
          (folioOk (s.jobAt job).img.allot whole = true → Ends (.fload slot base) s fun t => SameMem s t ∧ Completed r s t ∧ (now t).image slot = whole ∧
            ∀ k, k ≠ slot.val → (now t).image k = f.image k) ∧
          (folioOk (s.jobAt job).img.allot whole = false → Ends (.fload slot base) s fun t => Failed 0x10 r s t ∧ now t = emptied))) ∧
      (r.prog = 0 → old = [] → Ends (.fsel slot maxsw) s fun t => Failed 0x11 r s t ∧ now t = f) ∧
      (r.prog = 0 → old ≠ [] → Ends (.fsel slot maxsw) s fun t => SameMem s t ∧ RunChanges ck s t fun u y => u.run? = some { r with prog := 1 } ∧
        y.slot = slot ∧ y.maxsw = maxsw ∧ y.sw = 0 ∧ y.chans = [] ∧ y.holds = [] ∧ y.preds = [] ∧ y.agus = [] ∧ y.genSt = f.gens ∧
        ∀ k, y.out k = ((imPre old).filter fun e => e.1 == k).map fun e => e.2.1) ∧
      (r.prog ≠ 0 → Ends (.fsel slot maxsw) s fun t => t = s) ∧
      (s.Calm → s.Window ck job (base + 8 * r.prog) 8 l1 → let e := s.numAt l1 8
        (s.poisAt l1 8 = true ∨ applyFarg old e = none → Ends (.farg slot base n) s fun t => Failed 0x14 r s t ∧ now t = f) ∧
        (s.poisAt l1 8 = false → applyFarg old e = some im → Ends (.farg slot base n) s fun t => SameMem s t ∧
          Proceeds r (decide (n ≤ r.prog + 1)) s t ∧ (now t).image slot = im ∧
          let k := e / 2 ^ 40 % 2 ^ 4
          let pe := e / 2 ^ 48 % 2 ^ 6
          (peOff old pe + 16 * k + 16 ≤ old.length → imNum im (peOff old pe + 16 * k) 16 = imSlot old pe k % 2 ^ 92 + e % 2 ^ 36 * 2 ^ 92))) ∧
      (Ends (.fseed gens seed0 seed1) s fun t => SameMem s t ∧ Completed r s t ∧ (now t).gen 0 = (if gens.val % 2 = 1 then seed0 else f.gen 0) ∧
        (now t).gen 1 = (if gens.val / 2 = 1 then seed1 else f.gen 1) ∧ { now t with gens := f.gens } = f) ∧
      (old = [] → Ends (.fdrain slot rel base) s fun t => Failed 0x11 r s t ∧ now t = f) ∧
      (old ≠ [] → s.Calm → s.Window ck job base old.length loc → Ends (.fdrain slot rel base) s fun t =>
        SameMemBut loc old.length s t ∧ Completed r s t ∧ (∀ j b, old[j]? = some b → t.byteAt (loc + j) = b) ∧ (rel = false → now t = f) ∧
        (rel = true → (now t).image slot = [] ∧ ∀ k, k ≠ slot.val → (now t).image k = f.image k)) ∧
      (s.Calm → s.Window ck job base 128 loc → Ends (.fstat clr base) s fun t => SameMemBut loc 128 s t ∧ Completed r s t ∧
        t.dwAt loc = w64 ((((List.range 4).filter fun k => f.image k != []).map fun k => 2 ^ k).sum * 2 ^ 56 + f.cur * 2 ^ 54 + f.free.toNat * 2 ^ 47 +
          (if f.free then 0 else f.owner) * 2 ^ 32 + f.flags.toNat) ∧
        t.dwAt (loc + 8) = w64 (f.drops % 2 ^ 32 * 2 ^ 32 + f.switches % 2 ^ 32) ∧ t.dwAt (loc + 16) = w64 (f.skips % 2 ^ 32) ∧
        t.dwAt (loc + 24) = f.gen 0 ∧ t.dwAt (loc + 32) = f.gen 1 ∧ t.dwAt (loc + 40) = 0 ∧
        (∀ a, a < 8 → t.dwAt (loc + 64 + 8 * a) = w64 (f.moved.get 0 a % 2 ^ 32)) ∧
        now t = if clr then { f with flags := 0, drops := 0, skips := 0 } else f))

/-- R39, R271, R273, R275, R276: a PE fires its lowest-numbered ready slot where that holds the operation: the result and the poison of its sources go to the
outputs of DM, to hold and to a predicate, the channels of DQ lose their heads, and the status gathers the flags; and what each operation computes, with its
flags: the functions at every argument for which R211 and R212 fix the result, 1/x elsewhere one of the two numbers beside it (log entry 9), all the others at
every operand. PASS, SEL and STEER give the canonical W36 (log entry 42). -/
def Obligations.PeFirings : Prop :=
  (∀ (s : State) (ck pe job w : Nat) (im : List Byte) (x : FRun), s.frRun ck = some (job, im, x) → ∀ e, IsPeOp ck pe e →
    (x.spent = true ∨ x.fires im pe = none → Ends e.1 s fun t => t = s) ∧
    (x.spent = false → x.fires im pe = some w →
      (pf w 86 5 ≠ e.2 → Ends e.1 s fun t => t = s) ∧
      (pf w 86 5 = e.2 → Ends e.1 s fun t => SameMem s t ∧ RunChanges ck s t fun u y =>
        let q := x.preds.get 0 pe
        let head (i : Nat) : Token := (x.chan (4 * pe + i)).headD ⟨0, 0, false⟩
        let hold : Token := x.holds.get ⟨0, 0, false⟩ pe
        let src (k : Nat) : W36 × Bool × Bool := match pf w (55 - 3 * k) 3 with
          | 4 => (BitVec.ofNat 36 (pf w 92 36), false, false)
          | 5 => (hold.data, false, hold.pois)
          | 6 => (0, false, false)
          | 7 => (0, false, false)
          | i => ((head i).data, (head i).pois, (head i).pois)
        let d := peResult w q (src 0).1 (src 1).1 (src 2).1
        let read := (src 0).2.1 || (src 1).2.1 || (src 2).2.1
        let p := (src 0).2.2 || (src 1).2.2 || (src 2).2.2 || s.badMishap
        let lost := e.2 = 0x0F ∧ steerTo w (src 1).1 = none
        let tok : Token := ⟨d.1, BitVec.ofNat 2 (pf w 39 2), p⟩
        (∀ i, i < 4 → y.chan (4 * pe + i) = if pePops w i then (x.chan (4 * pe + i)).tail else x.chan (4 * pe + i)) ∧
        (∀ k, k / 4 ≠ pe → y.chan k = x.chan k ∧ y.out k = x.out k) ∧
        (e.2 ≠ 0x0F → ∀ o, o < 4 → y.out (4 * pe + o) = x.out (4 * pe + o) ++ (if pf w 41 4 / 2 ^ o % 2 = 1 then [tok] else [])) ∧
        (e.2 = 0x0F → ∀ o, o < 4 → y.out (4 * pe + o) = x.out (4 * pe + o) ++ (if steerTo w (src 1).1 = some o then [tok] else [])) ∧
        y.holds.get ⟨0, 0, false⟩ pe = (if pf w 38 1 = 1 then ⟨d.1, 0, p⟩ else hold) ∧
        (∀ b, b < 4 → (y.preds.get 0 pe).getLsbD b = if b = pf w 36 2 ∧ pf w 34 2 ≠ 0 then
          (match pf w 34 2 with | 1 => d.1.getLsbD 35 | 2 => (w36Value d.1).isZero | _ => (head 0).tag.getLsbD 0) else q.getLsbD b) ∧
        (u.frAt ck).drops = (s.frAt ck).drops + (if lost then 1 else 0) ∧
        (u.frAt ck).flags = (s.frAt ck).flags ||| ((d.2 &&& 0x1F) ||| (if read then 0x20 else 0) ||| (if s.badMishap then 0x40 else 0) |||
          (if lost then 0x81 else 0))))) ∧
  ∀ (w : Nat) (q : BitVec 4) (a b c : W36),
    let op := pf w 86 5
    let x := w36Value a
    let y := w36Value b
    let z := w36Value c
    let k := w36Value (BitVec.ofNat 36 (pf w 92 36))
    let mode := if pf w 31 3 = 5 then .sr (c.toNat % 2 ^ 32) 32 else rmOf (pf w 31 3)
    let d := (peResult w q a b c).1
    let fl := (peResult w q a b c).2
    let one : Val := .fin false 1 1
    let zero : Val := .fin false 0 1
    let gives (v : Val) (more : Flags) : Prop := d = (w36OfVal mode v).1 ∧ fl = (w36OfVal mode v).2 ||| more
    let rounds (v : Val) (ops : List Val) : Prop := gives v (if v.isNan = true ∧ ops.all (fun o => !o.isNan) = true then 1 else 0)
    let nans := x.isNan = true ∨ y.isNan = true
    let fn (value : Option (Bool × Mag)) (row : Option (W36 × Flags)) : Prop :=
      (x.isNan = true → d = w36NaN ∧ fl = 0) ∧ (∀ r, row = some r → d = r.1 ∧ fl = r.2) ∧
      (x.isNan = false → row = none → fl.getLsbD 3 = true ∧ ∀ neg m, value = some (neg, m) →
        let lo := w36Round .rtz false m
        lo.1 ≠ 0 → w36Code lo.1 + 1 < 0x3FF * 2 ^ 24 → ∃ e ∈ [w36Code lo.1, w36Code lo.1 + 1],
          d = BitVec.ofNat 36 (neg.toNat * 2 ^ 35 + e / 2 ^ 24 * 2 ^ 25 + 2 ^ 24 + e % 2 ^ 24))
    let is (v : Val) (f : Flags) : Option (W36 × Flags) := some ((w36OfVal mode v).1, f)
    let exact (neg : Bool) (m : Mag) : Option (W36 × Flags) := if (w36Round mode neg m).2.getLsbD 3 then none else some ((w36Round mode neg m).1, 0)
    (op = 0x00 ∨ op = 0x0F → gives x 0) ∧ (op = 0x01 → rounds (x.add mode y) [x, y]) ∧ (op = 0x02 → rounds (x.add mode y.negate) [x, y]) ∧
    (op = 0x03 → rounds (x.mul y) [x, y]) ∧ (op = 0x04 → rounds (x.fma mode y z) [x, y, z]) ∧ (op = 0x05 → rounds (x.negate.fma mode y z) [x, y, z]) ∧
    (op = 0x06 → gives (if x.isNan then y else if y.isNan then x else if x.cmp y = 0 then (if x.isZero && y.isZero && x.neg && !y.neg then y else x)
      else if 0 < x.cmp y then x else y) 0) ∧
    (op = 0x07 → gives (if x.isNan then y else if y.isNan then x else if x.cmp y = 0 then (if x.isZero && y.isZero && !x.neg && y.neg then y else x)
      else if x.cmp y < 0 then x else y) 0) ∧
    (op = 0x08 → gives x.abs 0) ∧ (op = 0x09 → gives x.negate 0) ∧
    (op = 0x0A → (nans → d = w36NaN ∧ fl = 0) ∧ (¬ nans →
      (∀ s, y = .inf s → d = w36NaN ∧ fl = 1) ∧
      ∀ s n m, y = .fin s n m → gives (x.mul (.dyad false 1 (max (-1024) (min 1024 (roundInt .rdn s (.rat n m)))))) 0)) ∧
    (op = 0x0B → (∀ s n m, x = .fin s n m → let i : Val := .fin s (roundAt mode s (.rat n m) 0) 1
        gives i (if i.cmp x = 0 then 0 else 8)) ∧ (x.isFin = false → gives x 0)) ∧
    (op = 0x0C → ∀ e ∈ [(0, ¬ nans ∧ x.cmp y = 0), (1, nans ∨ x.cmp y ≠ 0), (2, ¬ nans ∧ x.cmp y < 0), (3, ¬ nans ∧ x.cmp y ≤ 0), (4, ¬ nans ∧ 0 < x.cmp y),
        (5, ¬ nans ∧ 0 ≤ x.cmp y), (10, nans), (11, ¬ nans)], pf w 25 6 = e.1 → (e.2 → gives one 0) ∧ (¬ e.2 → gives zero 0)) ∧
    (op = 0x0D → gives (if q.getLsbD (pf w 25 6 % 4) then y else x) 0) ∧
    (op = 0x0E → let r := (cvtFmt (pf w 25 6)).ofVal mode x; d = (w36OfVal .rne ((cvtFmt (pf w 25 6)).value r.1)).1 ∧ fl = r.2) ∧
    (op = 0x10 → fn none (match x with
      | .fin neg n d => if n % d = 0 ∧ n ≤ 2000 * d then exact false (Mag.dyad 1 (if neg then -(n / d : Nat) else (n / d : Nat))) else none
      | .inf neg => is (if neg then zero else .inf false) 0
      | .nan => none)) ∧
    (op = 0x11 → fn none (match x with
      | .fin _ n _ => if n = 0 then is one 0 else none
      | .inf neg => is (if neg then zero else .inf false) 0
      | .nan => none)) ∧
    (op = 0x12 → fn none (match x with
      | .fin neg n d => if n = 0 then is (.inf true) 0 else if neg then is .nan 1
          else if (scaleDown n d (ratLog2 n d)).1 = (scaleDown n d (ratLog2 n d)).2 then is (Val.ofInt (ratLog2 n d)) 0 else none
      | .inf neg => if neg then is .nan 1 else none
      | .nan => none)) ∧
    (op = 0x13 → fn none (match x with
      | .fin neg n d => if n = 0 then is (.inf true) 0 else if neg then is .nan 1 else if n = d then is zero 0 else none
      | .inf neg => if neg then is .nan 1 else none
      | .nan => none)) ∧
    (op = 0x14 → fn (match x with | .fin neg n d => some (neg, .rat d n) | _ => none) (match x with
      | .fin neg n d => if n = 0 then is (.inf neg) 0 else exact neg (.rat d n)
      | .inf neg => is (.fin neg 0 1) 0
      | .nan => none)) ∧
    (op = 0x15 → fn none (match x with
      | .fin neg n d => if n = 0 then is (.inf neg) 0 else if neg then is .nan 1 else exact false (.sqrt d n)
      | .inf neg => if neg then is .nan 1 else none
      | .nan => none)) ∧
    (op = 0x16 → let b := y.add .rne x.negate
      ((b.isNan = true ∨ k.isNan = true) ∨ b.cmp k ≤ 0 → gives one 0) ∧ (b.isNan = false → k.isNan = false → 0 < b.cmp k → gives zero 0)) ∧
    (op = 0x17 → rounds (x.div y) [x, y])

/-- R270, R278 to R281, R286, R388: the events of a running folio: a generator emits, a load AGU brings an element or skips a block, a store AGU writes one,
streams connect, send up to the count of the trigger, receive and credit, the folio quiesces, discards what is left after 64 cycles, switches or ends; no
counter posts a message here. -/
def Obligations.FolioEvents : Prop :=
  ∀ (s u : State) (ck a g job k l1 t0 src b : Nat) (im : List Byte) (x : FRun) (d : Dest) (tk : Token) (q : List Token) (fm : Fmt),
    let f := s.frAt ck
    let c := imAgu im a
    let p := x.agu a
    let addr := lowBits 64 ((c.w1 : Int) + (p.moved / c.inner : Nat) * c.ostr + (p.moved % c.inner : Nat) * c.istr)
    let size := aguSize c.fmt
    let runs (t : State) (P : FRun → Prop) : Prop := ∃ y, (t.frAt ck).run = some y ∧ P y
    let done (code : Nat) (t : State) : Prop := (t.frAt ck).run = none ∧ (t.engAt ck 2).runOf 0 = none ∧
      ((s.engAt ck 2).runOf 0 ≠ none → code ≠ 0 → ((t.engAt ck 2).statOf 0).errcode = BitVec.ofNat 8 code)
    (s.frRun ck = some (job, im, x) → (∀ k, (s.counterAt k).armed = false ∨ (s.counterAt k).act &&& 1 = 0) →
      (g < 2 → genRoute im g = [d] → x.stopping im = false → x.room [d] = true → x.gens.get [] g = [] → Ends (.generatorEmit ck g) s fun t =>
        SameMem s t ∧ RunChanges ck s t fun _ y =>
          let s0 := x.genSt.get 1 g
          let s1 := s0 ^^^ (s0 <<< 13)
          let s2 := s1 ^^^ (s1 >>> 7)
          Gives d ⟨(s2 ^^^ (s2 <<< 17)).setWidth 36, 0, false⟩ x y ∧ y.genSt.get 1 g = s0) ∧
      (a < 8 → c.mode = 1 → p.parked = none → x.stopping im = false → p.moved < c.total → routeOf c.route = [d] → x.room [d] = true →
        (c.ctl = true → p.gate.getD 0 = 0 → p.cport = tk :: q →
          ((w36Value tk.data).isZero = true → tk.pois = false → d.kind < 2 ∨ d.idx ≠ a → Ends (.aguLoadToken ck a) s fun t => SameMem s t ∧ RunChanges ck s t fun u y =>
            Gives d ⟨0, 3, false⟩ x y ∧ (y.agu a).moved = p.moved + c.block p.moved ∧ (y.agu a).cport = q ∧ (u.frAt ck).skips = f.skips + 1) ∧
          ((w36Value tk.data).isZero = false ∨ tk.pois = true → Ends (.aguLoadToken ck a) s fun t => SameMem s t ∧ RunChanges ck s t fun _ y =>
            (y.agu a).gate = some (c.block p.moved) ∧ (y.agu a).cport = q ∧ (y.agu a).moved = p.moved)) ∧
        (c.ctl = false ∨ p.gate.getD 0 ≠ 0 → s.mishap = .none → s.Calm → s.Window ck job addr size l1 → Ends (.aguLoadToken ck a) s fun t =>
          SameMem s t ∧ RunChanges ck s t fun _ y => (y.agu a).moved = p.moved + 1 ∧
            let tag : BitVec 2 := if c.tagm = 1 ∧ p.moved % c.inner = c.inner - 1 then 1 else 0
            (aguFmt c.fmt = some fm → Gives d ⟨(w36OfVal .rne (fmtValue fm (s.numAt l1 size))).1, tag, s.poisAt l1 size⟩ x y) ∧
            (aguFmt c.fmt = none → Gives d ⟨BitVec.ofNat 36 (s.numAt l1 size), tag, s.poisAt l1 size⟩ x y))) ∧
      (a < 8 → c.mode = 2 → p.parked = none → p.moved < c.total → x.quiet.isSome = true ∨ x.atCount im a = false → c.rm ≠ 5 → p.dport = tk :: q →
        s.mishap = .none → s.Calm → s.Window ck job addr size l1 → Ends (.aguStoreToken ck a) s fun t => SameMemBut l1 size s t ∧
          (aguFmt c.fmt = some fm → t.numAt l1 size = (fmtOf fm (rmOf c.rm) (w36Value tk.data)).1 % 2 ^ (8 * size)) ∧
          (aguFmt c.fmt = none → t.numAt l1 size = tk.data.toNat % 2 ^ (8 * size)) ∧ RunChanges ck s t fun _ y => (y.agu a).moved = p.moved + 1 ∧ (y.agu a).dport = q) ∧
      (a < 8 → c.mode = 3 → let dst := pf c.w1 0 2 * 64 + pf c.w1 2 6
        (p.conn = false → s.inPlace job (dst / 64) (dst % 64) = true → (s.frAt dst).free = true ∨ (s.frAt dst).owner = job →
          s.canConnect dst (pf c.w1 8 3) job = true → Ends (.streamConnect ck a) s fun t => SameMem s t ∧
            runs t fun y => (y.agu a).conn = true ∧ (y.agu a).out = 0) ∧
        (p.conn = false → s.inPlace job (dst / 64) (dst % 64) = false ∨ ((s.frAt dst).free = false ∧ (s.frAt dst).owner ≠ job) →
          Ends (.streamConnect ck a) s fun t => SameMem s t ∧ done 0x12 t) ∧
        (p.conn = true → x.atCount im a = true → Ends (.streamSendToken ck a) s fun t => t = s) ∧
        (∀ y, p.conn = true → p.dport = tk :: q → p.moved < c.total → x.atCount im a = false → (s.frAt dst).run = some y →
          p.out < (imAgu ((s.frAt dst).image y.slot) (pf c.w1 8 3)).w1 → Ends (.streamSendToken ck a) s fun t => SameMem s t ∧
            RunChanges ck s t fun u z => u.flight = s.flight ++ [.token ck a dst (pf c.w1 8 3) tk true] ∧ (z.agu a).dport = q ∧ (z.agu a).out = p.out + 1 ∧
              (z.agu a).moved = p.moved + 1)) ∧
      (s.takeFlight k = some (.token src b ck a tk true, u) → Ends (.streamTokenArrival k) s fun t => SameMem s t ∧ RunChanges ck s t fun v y =>
        v.flight = u.flight ∧ (y.agu a).buf = p.buf ++ [tk]) ∧
      (s.flight[k]? = some (.credit ck a) → Ends (.streamCreditArrival k) s fun t => SameMem s t ∧ t.flight = s.flight.eraseIdx k ∧
        runs t fun y => (y.agu a).out = p.out - 1) ∧
      (x.quiet = none → x.reached im = true → ∀ i ∈ [if trCount im = 0 then Instr.folioCompletion ck else .folioTrigger ck], Ends i s fun t =>
        SameMem s t ∧ runs t fun y => y = { x with quiet := some s.cycles }) ∧
      (x.quiet = some t0 → x.spent = false → t0 + 64 ≤ s.cycles → Ends (.quiescenceTimeout ck) s fun t => SameMem s t ∧
        runs t fun y => y.chans = [] ∧ y.outs = [] ∧ y.spent = true ∧ (t.frAt ck).drops = f.drops + (x.tokens - y.tokens)) ∧
      (x.quiet = some t0 → x.chans = [] → x.outs = [] → x.storing im = false →
        (trCount im = 0 → Ends (.folioCompletion ck) s fun t => SameMem s t ∧ done 0 t ∧ (t.frAt ck).cur = x.slot ∧ (t.frAt ck).drops = f.drops + x.tokens) ∧
        (trCount im ≠ 0 → x.maxsw ≤ x.sw → Ends (.folioTrigger ck) s fun t => SameMem s t ∧ done 0x13 t) ∧
        (trCount im ≠ 0 → x.sw < x.maxsw → f.image (trNext im) = [] → Ends (.folioTrigger ck) s fun t => SameMem s t ∧ done 0x11 t) ∧
        (trCount im ≠ 0 → x.sw < x.maxsw → f.image (trNext im) ≠ [] → Ends (.folioTrigger ck) s fun t => SameMem s t ∧ ∃ (u : State) (y : FRun),
          t = u.frFlush ck ∧ (u.frAt ck).run = some y ∧ y.slot = trNext im ∧ y.sw = x.sw + 1 ∧ y.maxsw = x.maxsw ∧ y.chans = [] ∧ y.holds = [] ∧ y.preds = [] ∧ y.agus = [] ∧
          (trCv im = true → (s.counterAt (cntKey ck job (trCtr im))).armed = false →
            (u.counterAt (cntKey ck job (trCtr im))).count = (s.counterAt (cntKey ck job (trCtr im))).count + 1)))) ∧
    (s.takeFlight k = some (.token src b ck a tk false, u) → Ends (.streamTokenArrival k) s fun t => SameMem s t ∧ t.flight = u.flight ∧
      (t.frAt ck).drops = f.drops + 1 ∧ (t.frAt ck).flags.getLsbD 7 = true)

/-- R328 to R331, R333, R335: the commands of the network engine on a die that sends nothing else: no route (0x15); a short message is copied into the resend
store and leaves, without ACKL ending its command at once; a long one keeps its unit and sends one packet after another; NE.POST queues a buffer; NE.READ
asks; a malformed NE.XSEND descriptor (0x16). -/
def Obligations.NetworkCommands : Prop :=
  ∀ (s : State) (r : RunCmd) (f : NeFlags) (base len rq daddr xd l1 l2 bl cr : Nat) (dst : NeDst) (imm : W32) (rctr : Option Nat) (cls : List Nat) (doff xc : Nat)
    (m : NeTx), s.run? = some r → r.parked = none → r.Quiet s →
    let ck := s.cmd.ck
    let die := ck / 64
    let job := r.cmd.job
    let d := s.dieAt die
    let mid := 4 * d.txNext + die
    let own := s.modid.toNat
    let data := s.pbytesAt l1 len
    let clean := s.Calm ∧ s.Window ck job base len l1
    let sends (t : State) (cl : Nat) (b : Body) : Prop := (t.dieAt die).txNext = d.txNext + 1 ∧ ∃ x, (t.dieAt die).tx = [x] ∧ x.mid = mid ∧ x.ck = ck ∧ x.job = job ∧
      x.cmd = some r.cmd ∧ x.dck = cl ∧ x.body = b ∧ x.len = len ∧ x.src = base ∧ x.psize = f.psize ∧ x.rod = f.rod ∧ x.ackl = f.ackl ∧ x.waitRoom = false
    (∀ e ∈ [(Instr.neSend f base dst rq len imm, Body.send rq imm len), (.neWrite f base dst rctr len daddr, .write daddr rctr len)],
      (r.prog = 0 → s.neRoute die dst.mod = false → Ends e.1 s (Failed 0x15 r s)) ∧
      (r.prog = 0 → s.neRoute die dst.mod = true → d.tx = [] →
        (65536 < len → Ends e.1 s fun t => SameMem s t ∧ t.run? = some { r with prog := 1, aux := [mid] } ∧ t.flight = s.flight ∧
          sends t (dst.die * 64 + dst.cl) e.2) ∧
        (len ≤ f.psize → 0 < f.psize → len ≤ 65536 → dst.mod = own → clean →
          (f.ackl = true → Ends e.1 s fun t => SameMem s t ∧ t.run? = none ∧ sends t (dst.die * 64 + dst.cl) e.2 ∧ t.flight = s.flight ++
            [.pkt ((dst.die * 64 + dst.cl) / 64) ⟨own, mid, dst.die * 64 + dst.cl, job, 0, 1, 0, data, true, true, f.rod, none, e.2⟩ none 0]) ∧
          (f.ackl = false → s.cmd.cls = 5 → Ends e.1 s fun t => SameMem s t ∧ Completed r s t ∧ CountsAt ck r s t ∧ sends t (dst.die * 64 + dst.cl) e.2))) ∧
      (r.prog ≠ 0 → r.aux = [m.mid] → d.tx = [m] → m.parked = none → m.copy = none → m.sent + 1 < m.total → m.dmod ≠ own → s.Calm →
        s.Window m.ck m.job (m.src + m.sent * m.psize) (m.size m.sent) l2 → Ends e.1 s fun t => SameMem s t ∧ t.run? = some r ∧
          ∃ x, (t.dieAt die).tx = [x] ∧ x.sent = m.sent + 1 ∧ x.timers.get 0 m.sent = s.time ∧
            x.crcs.get 0 m.sent = crc32c ((s.pbytesAt l2 (m.size m.sent)).map Prod.fst)) ∧
      (r.prog ≠ 0 → d.tx = [] → Ends e.1 s fun t => SameMem s t ∧ t.run? = none)) ∧
    (Ends (.nePost base bl cr rq) s fun t => SameMem s t ∧ t.run? = none ∧ t.flight = s.flight ∧
      (t.clusterAt ck).recvs = (s.clusterAt ck).recvs ++ [⟨job, rq, base, bl, cr, r.cmd⟩]) ∧
    (s.neRoute die dst.mod = false → Ends (.neRead f base dst.mod len daddr) s (Failed 0x15 r s)) ∧
    (s.neRoute die dst.mod = true → d.tx = [] → Ends (.neRead f base dst.mod len daddr) s fun t => SameMem s t ∧ t.run? = none ∧ sends t ck (.readData mid len) ∧
      t.flight = s.flight ++ (if dst.mod = own then [.readReq die ⟨own, mid, ck, job, daddr, len, f.psize, f.rod⟩] else [])) ∧
    (s.Calm → s.Window ck job xd 64 l2 →
      (xsendDesc (s.pbytesAt l2 64) len = none → Ends (.neXsend f base xd len) s (Failed 0x16 r s)) ∧
      (xsendDesc (s.pbytesAt l2 64) len = some ([own], cls, doff, xc) → d.tx = [] → len ≤ f.psize → 0 < f.psize → len ≤ 65536 → f.ackl = true →
        s.Window ck job base len l1 → Ends (.neXsend f base xd len) s fun t => SameMem s t ∧ t.run? = none ∧ sends t (cls.headD 0) (.xsend cls doff xc len) ∧
          t.flight = s.flight ++ [.pkt die ⟨own, mid, cls.headD 0, job, 0, 1, 0, data, true, true, f.rod, none, .xsend cls doff xc len⟩ none 0]))

/-- R328 to R333, R337, R375, R382, R383: at a network engine a packet is counted, placed and acknowledged, turned away or dropped, and a duplicate of a message
that has ended is acknowledged again; an acknowledgement ends a message, with the error that it names; an expired timer resends, fails or asks the host, and a
resend counts at the die whose port it takes; a receive, a match and a port can fail; a read request is answered under the RUD rules, one for a local window
from the scratchpad of the cluster with the asker's number (log entry 30). -/
def Obligations.NetworkEvents : Prop :=
  ∀ (s : State) (die i l1 l2 n c k sd : Nat) (m : NeTx) (x : NeRx) (q : QCmd) (daddr len : Nat) (p : Packet) (rv : Recv) (imm : W32) (a : Ack) (rq : ReadReq)
    (port : Fin 18) (up : Bool), die < 3 → sd < 3 →
    let own := s.modid.toNat
    let d := s.dieAt die
    let j := s.jobAt p.job
    let stat (t : State) (off : Nat) := (t.dieAt die).stats.get 0 off
    let key := cntKey p.ck p.job c
    let ack (cum : Nat) (kd : AckKind) : Flight := .ack sd ⟨own, p.mid, cum, 0, kd⟩
    let whole := p.good = true ∧ p.supported = true ∧ p.num = 0 ∧ p.total = 1 ∧ p.off = 0 ∧ p.rod = false ∧ p.src = own ∧ p.mid % 4 = sd ∧
      j.jstate = 2 ∧ j.place.has p.ck = true ∧ d.rx = []
    let failed (code : Nat) (t : State) : Prop := let y := (t.engAt m.ck 5).statOf 0
      SameMem s t ∧ (t.dieAt die).tx = [] ∧ y.tag = BitVec.ofNat 16 (tcwTag q.w0) ∧ y.errcode = BitVec.ofNat 8 code ∧ y.errtag = BitVec.ofNat 16 (tcwTag q.w0)
    let quiet := ∀ k, (s.counterAt k).armed = false ∨ (s.counterAt k).act &&& 1 = 0
    let grew (kind : Nat) (t : State) : Prop := let out := (s.nePort die m kind).2
      ∀ off ∈ [0x00, 0x10], (t.dieAt out).stats.get 0 off = (s.dieAt out).stats.get 0 off + 1
    let mine := quiet ∧ d.tx = [m] ∧ m.mid = i ∧ i % 4 = die ∧ m.waitRoom = false ∧ m.parked = none ∧ m.cmd = some q ∧ m.lcmp = false ∧ m.slot = none ∧ m.err = 0 ∧ m.dmod ≠ own
    (s.flight = [.pkt die p none 0] → p.src = own →
      (p.good = false → Ends (.nePacketArrival die p) s fun t => SameMem s t ∧ t.flight = [] ∧ stat t 0x40 = d.stats.get 0 0x40 + 1 ∧ (t.dieAt die).rx = d.rx) ∧
      (p.good = true → p.num < p.total → p.supported = false → p.body = .write daddr (some c) len → Ends (.nePacketArrival die p) s fun t => SameMem s t ∧
        t.flight = [] ∧ stat t 0x48 = d.stats.get 0 0x48 + 1 ∧ stat t 0x08 = d.stats.get 0 0x08 + 1 ∧ (t.dieAt die).rx = d.rx) ∧
      (whole → s.Calm →
        (p.body = .write daddr (some c) len → c < j.img.allot → (s.counterAt key).armed = false → s.Window p.ck p.job daddr p.data.length l1 →
          Ends (.nePacketArrival die p) s fun t => SameMemBut l1 p.data.length s t ∧ (∀ e b, p.data[e]? = some b → t.byteAt (l1 + e) = b.1) ∧
            (t.counterAt key).count = (s.counterAt key).count + 1 ∧ t.flight = [ack 1 .state] ∧ stat t 0x08 = d.stats.get 0 0x08 + 1) ∧
        (p.body = .send n imm len → (s.clusterAt p.ck).recvs = [] → Ends (.nePacketArrival die p) s fun t => SameMem s t ∧ t.flight = [ack 0 .notReady] ∧
          (t.dieAt die).rx = [] ∧ stat t 0x38 = d.stats.get 0 0x38 + 1) ∧
        (p.body = .send n imm len → (s.clusterAt p.ck).recvs = [rv] → rv.job = p.job → rv.rq = n → len ≤ rv.len → tcwCv rv.cmd.w0 = false →
          s.Window p.ck p.job rv.base p.data.length l1 → s.Window p.ck p.job rv.crec 16 l2 → l1 + p.data.length ≤ l2 → Ends (.nePacketArrival die p) s fun t =>
            (∀ e b, p.data[e]? = some b → t.byteAt (l1 + e) = b.1) ∧ t.dwAt l2 = w64 (imm.toNat * 2 ^ 32 + len) ∧ t.dwAt (l2 + 8) = w64 own ∧
            (∀ e, e < l1 ∨ l1 + p.data.length ≤ e → e < l2 ∨ l2 + 16 ≤ e → t.byteAt e = s.byteAt e) ∧
            (t.clusterAt p.ck).recvs = [] ∧ t.flight = [ack 1 .state] ∧ ((t.engAt p.ck 5).statOf 0).tag = BitVec.ofNat 16 (tcwTag rv.cmd.w0))) ∧
      (p.good = true → p.supported = true → p.num = 0 → p.total = 1 → p.off = 0 → p.rod = false → p.mid % 4 = sd → d.rx = [x] → x.src = own → x.mid = p.mid →
        x.ck = p.ck → x.job = p.job → x.total = 1 → x.got = [0] → x.done = true → x.err = 0 → x.body = p.body → p.body = .write daddr (some c) len → s.Calm →
        s.Window p.ck p.job daddr p.data.length l1 → Ends (.nePacketArrival die p) s fun t => SameMemBut l1 p.data.length s t ∧ t.counters = s.counters ∧
          t.flight = [ack 1 .state] ∧ stat t 0x28 = d.stats.get 0 0x28 + 1) ∧
      (p.good = true → p.supported = true → p.num < p.total → d.rx = [] → j.jstate = 0 → p.mid % 4 = sd → p.body = .write daddr (some c) len →
        Ends (.nePacketArrival die p) s fun t => SameMem s t ∧ t.flight = [ack 0 (.failed 0x14)] ∧ (t.dieAt die).rx = [])) ∧
    (mine → m.isRequest = false → a.src = m.dmod → a.mid = i →
      (a.kind = .state → m.sent = m.total → m.total ≤ a.cum → Ends (.neAckArrival die a) s fun t => SameMem s t ∧ (t.dieAt die).tx = [] ∧
        ((t.engAt m.ck 5).statOf 0).tag = BitVec.ofNat 16 (tcwTag q.w0) ∧ stat t 0x18 = d.stats.get 0 0x18 + 1) ∧
      (a.kind = .notReady → m.notReady = none → Ends (.neAckArrival die a) s fun t => SameMem s t ∧
        (t.dieAt die).tx = [{ m with notReady := some s.time }]) ∧
      (0 < k → a.kind = .failed k → Ends (.neAckArrival die a) s fun t => failed k t ∧ stat t 0x30 = d.stats.get 0 0x30 + (if k = 0x11 then 1 else 0))) ∧
    (mine → m.isRequest = false → m.notReady = none → m.asked = [] → m.missing = [n] → m.timers.get 0 n + 40000 ≤ s.time →
      (s.assisted 7 = true → Ends (.neRetransmitTimer die i n) s fun t => SameMem s t ∧ (t.dieAt die).tx = [{ m with asked := [(s.eseq + 1, n)] }] ∧
        t.evheld = s.evheld ++ [⟨0xD, m.job, die, w64 m.dmod, w64 n, 0, s.eseq + 1⟩]) ∧
      (s.assisted 7 = false → 8 ≤ m.resends.get 0 n → Ends (.neRetransmitTimer die i n) s (failed 0x10)) ∧
      (s.assisted 7 = false → m.resends.get 0 n < 8 → m.copy.isSome = true → n + 1 = m.sent → Ends (.neRetransmitTimer die i n) s fun t => SameMem s t ∧
        grew 1 t ∧ ∃ y, (t.dieAt die).tx = [y] ∧ y.resends.get 0 n = m.resends.get 0 n + 1 ∧ y.timers.get 0 n = s.time)) ∧
    (mine → s.time < m.timers.get 0 n + 40000 → Ends (.neRetransmitTimer die i n) s fun t => t = s) ∧
    (mine → m.isRequest = false → m.notReady = some k → m.copy.isSome = true → m.missing = [n] →
      (k + 10000 ≤ s.time → Ends (.neNotReadyRetry die i) s fun t => SameMem s t ∧ grew 2 t ∧
        ∃ y, (t.dieAt die).tx = [y] ∧ y.notReady = none ∧ y.timers.get 0 n = s.time ∧ y.resends = m.resends) ∧
      (m.started + 100000000 ≤ s.time → Ends (.neMatchTimeout die i) s (failed 0x12))) ∧
    (d.rx = [x] → x.done = false → x.err = 0 → x.body = .write daddr none len → (x.last + 10000000 ≤ s.time → Ends (.neReceiveTimeout die 0) s fun t =>
        SameMem s t ∧ (t.dieAt die).rx = [{ x with done := true, err := 0x10 }]) ∧
      (s.time < x.last + 10000000 → Ends (.neReceiveTimeout die 0) s fun t => t = s)) ∧
    (quiet → d.tx = [m] → m.mid = i → m.waitRoom = true → m.copy = none → m.parked = none → m.cmd = some q → m.grp = i → m.body = .write daddr none m.len → m.len ≤ 65536 →
      s.Calm → s.Window m.ck m.job m.src m.len l1 → m.dmod ≠ own → s.neRoute die m.dmod = true → Ends (.resendStoreCopy die i) s fun t => SameMem s t ∧
        ∃ y, (t.dieAt die).tx = [y] ∧ y.waitRoom = false ∧ y.started = s.time ∧ y.copy = some (s.pbytesAt l1 m.len) ∧ y.lcmp = (m.lcmp || !m.ackl)) ∧
    (s.flight = [.readReq die rq] → rq.src = own → d.tx = [] → (s.jobAt rq.job).jstate = 2 → rq.len ≤ rq.psize → 0 < rq.psize → rq.len ≤ 65536 → s.Calm →
      s.Window rq.ck rq.job rq.daddr rq.len l1 → Ends (.neReadRequestArrival die rq) s fun t => SameMem s t ∧ t.flight =
        [.pkt (rq.ck / 64) ⟨own, 4 * d.txNext + die, rq.ck, rq.job, 0, 1, 0, s.pbytesAt l1 rq.len, true, true, false, none, .readData rq.mid rq.len⟩ none 0]) ∧
    ((∀ e, e < 3 → (s.dieAt e).tx = []) → Ends (.portStateChange port up) s fun t => { t with ports := s.ports } = s ∧
      ∀ b, t.ports.has b = if b = port.val then !up else s.ports.has b) ∧
    (mine → m.isRequest = false → (∀ e, e < 3 → e ≠ die → (s.dieAt e).tx = []) → { s with ports := s.ports.add port }.neRoute die m.dmod = false →
      Ends (.portStateChange port false) s (failed 0x15))

/-- R115, R116, R362, R393: an entry of a fault buffer that is present resolves; a ZF entry at L2 to L4 takes the lowest free frame of its pool, zero-filled,
and any other fails, at every die; the broadcast wakes what is parked on the page, or fails it, and an access that a pre-empted bank is owed waits on it no
more; a page of a draining channel takes a frame of its pool (which frames are passed over, and which mode bits it follows, is log entry 34) and is marked as
migrating, and once no access holds its old leaf it is copied, its entry written, its translations invalidated and what is parked on it resolved; the channel
retires behind its last page. -/
def Obligations.PagesResolvedAndMoved : Prop :=
  ∀ (s u : State) (die i k tgt new lvl pa va lva loc low job src ck : Nat) (m : PageMove) (f : FaultEnt) (pg : PageKey) (p : Posted) (ok : Bool) (un : W32), s.MemWf → s.comm = [] →
    (die < 3 → (s.dieAt die).faults[i]? = some f →
      let n := leafSize f.pg.lvl false
      let j := s.jobAt f.pg.job
      let tells (t : State) (good : Bool) : Prop := t.flight = s.flight ++ [.resolved f.pg good 3] ∧
        (t.dieAt die).faults = (s.dieAt die).faults.filter fun g => g.pg != f.pg
      (fld (s.dwAt f.loc) 0 1 = 1 → Ends (.zfResolution die i) s fun t => SameMem s t ∧ tells t true) ∧
      (fld (s.dwAt f.loc) 0 1 = 0 → f.mode ≠ 1 ∨ f.kind = 2 → Ends (.zfResolution die i) s fun t => t = s) ∧
      (fld (s.dwAt f.loc) 0 1 = 0 → f.mode = 1 → f.kind ≠ 2 →
        (f.kind = 1 → 2 ≤ f.pg.lvl → s.frameFor f.pg.job f.t2 n = some pa → pa + n ≤ 2 ^ 52 → pa + n ≤ f.loc ∨ f.loc + 8 ≤ pa → Ends (.zfResolution die i) s fun t =>
          tells t true ∧ t.dwAt f.loc = w64 (pa + 0xF) ∧ (∀ a, pa ≤ a → a < pa + n → t.byteAt a = 0) ∧
          (∀ a, a < 2 ^ 58 → a < pa ∨ pa + n ≤ a → a < f.loc ∨ f.loc + 8 ≤ a → t.byteAt a = s.byteAt a) ∧ t.jobAt f.pg.job = { j with taken := j.taken ++ [(pa, n)] }) ∧
        (f.kind ≠ 1 ∨ f.pg.lvl < 2 ∨ s.frameFor f.pg.job f.t2 n = none → Ends (.zfResolution die i) s fun t => SameMem s t ∧ tells t false))) ∧
    (s.takeFlight k = some (.resolved pg ok tgt, u) → s.clusters = [] → s.dies = [] →
      (u.flight = [] → Ends (.faultResolved k) s fun t => SameMem s t ∧ t.flight = [] ∧ ∀ bk,
        let b := s.bankAt bk
        let on (w : Wait) : Prop := ∃ d a x y z, w = .parked pg d a x y z ∧ (tgt = 3 ∨ d = tgt)
        (∀ a x y z, b.waitsFor = .parked pg die a x y z → tgt = 3 ∨ die = tgt → ¬ on b.owed →
          (ok = true → t.bankAt bk = { b with st := .running, wait := .none }) ∧
          (ok = false → b.redo = none → t.bankAt bk = b.enterTrap (bankNo bk) 3 (w64 a))) ∧
        (¬ on b.waitsFor → on b.owed → t.bankAt bk = { b with owed := .none }) ∧
        (¬ on b.waitsFor → ¬ on b.owed → t.bankAt bk = b)) ∧
      (s.banks = [] → u.flight = [.atomic src ck p (some pg)] → tgt = 3 ∨ ck / 64 = tgt →
        (ok = true → Ends (.faultResolved k) s fun t => SameMem s t ∧ t.flight = [.atomic src ck p none]) ∧
        (ok = false → Ends (.faultResolved k) s fun t => SameMem s t ∧ t.flight = [] ∧ (t.jobAt p.job).postFault = (s.jobAt p.job).postFault + 1))) ∧
    ((s.unitAt un.toNat).st = .draining → s.assisted (if un.toNat / 2 ^ 28 = 8 then 4 else 3) = false →
      let n := leafSize lvl false
      ((s.leaves 5 0 (s.jobAt job).root 0).find? (fun l => decide (l.2.2.2.1 ≤ va ∧ va < l.2.2.2.1 + leafSize l.1 false)) = some (lvl, false, pa, lva, loc) →
        pageHolds un.toNat pa n = true → (s.unitAt un.toNat).moving = none →
        (s.frameFor job (inT2 pa) n = some new → Ends (.pageMigration un job va) s fun t => SameMemBut loc 8 s t ∧
          t.dwAt loc = w64 (2 + 8 * (inT2 pa).toNat) ∧ (t.jobAt job).taken = (s.jobAt job).taken ++ [(new, n)] ∧
          t.unitAt un.toNat = { s.unitAt un.toNat with migneed := false, moving := some ⟨job, lva / n * n, n, pa, new, [(loc, (s.dwAt loc).toNat % 4096)]⟩ }) ∧
        (s.frameFor job (inT2 pa) n = none → (s.unitAt un.toNat).migneed = false → (s.migrate un.toNat job va).pagesHold un.toNat = true →
          Ends (.pageMigration un job va) s fun t => SameMem s t ∧ (t.unitAt un.toNat).migneed = true ∧
            t.evheld = s.evheld ++ [⟨0xB, job, un.toNat / 2 ^ 26 % 4, w64 un.toNat, if inT2 pa then 2 else 1, 0, s.eseq + 1⟩])) ∧
      ((s.unitAt un.toNat).moving = some m →
        (s.pageBusy m.old m.n = true → Ends (.pageMigration un job va) s fun t => t = s) ∧
        (s.pageBusy m.old m.n = false → (s.migrate un.toNat job va).pagesHold un.toNat = true → m.ents = [(loc, low)] → loc + 8 ≤ 2 ^ 58 →
          m.new + m.n ≤ 2 ^ 52 → m.old + m.n ≤ 2 ^ 52 → m.new + m.n ≤ loc ∨ loc + 8 ≤ m.new → m.new + m.n ≤ m.old ∨ m.old + m.n ≤ m.new →
          m.old + m.n ≤ loc ∨ loc + 8 ≤ m.old → Ends (.pageMigration un job va) s fun t => (∀ a, a < m.n → t.byteAt (m.new + a) = s.byteAt (m.old + a)) ∧
            t.dwAt loc = w64 (low + m.new) ∧ (t.unitAt un.toNat).moving = none ∧
            (∀ a, a < 2 ^ 58 → a < m.new ∨ m.new + m.n ≤ a → a < loc ∨ loc + 8 ≤ a → t.byteAt a = s.byteAt a) ∧
            (∀ e ∈ t.tlb, e.job = m.job → e.idx * leafSize e.lvl e.big < m.va + m.n → (e.idx + 1) * leafSize e.lvl e.big ≤ m.va) ∧
            ∀ d f, d < 3 → f ∈ (s.dieAt d).faults → f.loc = loc → Flight.resolved f.pg true 3 ∈ t.flight)) ∧
      (s.jobs = [] → (s.unitAt un.toNat).moving = none → un.toNat / 2 ^ 28 ∈ [7, 8] → Ends (.pageMigration un job va) s fun t => SameMem s t ∧ (t.unitAt un.toNat).st = .retired ∧
        (s.karmos.recs.length < 4096 → t.karmos.recs.length = s.karmos.recs.length + 1)))

/-- R105, R126, R152, R167, R168, R191, R192, R366, R376, R378: a gang waits, reserves clusters, has relocatable jobs moved out, is stalled, or is configured
on all of its clusters, where none of their banks is in retention; reservations begun in hardware mode go on in it; a job moves back; the marker and the
configuration-complete wave; an entry of the work queue, before INSTALLED too, a bad one posted with the DIE of its own handle (log entry 74); the end of a
removal. -/
def Obligations.PlacementOfJobs : Prop :=
  ∀ (s u : State) (job x ck k seg : Nat) (r : Run) (m : MovedOut),
    let j := s.jobAt job
    let waits := j.gang = true ∧ (j.jstate = 1 ∨ j.jstate = 2) ∧ j.placed = [] ∧ j.marked = []
    let lack := s.lacking job
    let idle := ∀ c, ∀ q ∈ (s.clusterAt c).queue, q.entry = false
    let stall (t : State) : Prop := t.jobAt job = { j with stalled := true } ∧ { t with jobs := s.jobs, evheld := s.evheld, eseq := s.eseq } = s ∧
      t.evheld = s.evheld ++ [⟨4, job, 0, w64 (min ((s.time - j.gangSince) / 1000) 0xFFFFFFFF * 2 ^ 32 + lack.length * 2 ^ 24 + 2 ^ 16 + job), 0, 0, s.eseq + 1⟩]
    let set (c n : Nat) (t : State) : Prop := t.runOf c job = some ⟨job, n, max 1 ((j.img.spad.length + 65535) / 65536)⟩ ∧
      (∀ i b, j.img.spad[i]? = some b → t.byteAt (spadLoc c (n * 65536) + i) = b) ∧
      (∀ i w, j.img.code[i]? = some w → t.code.get 0 ((c * 32768 + job) * 2 ^ 16 + i) = w) ∧
      (∀ p ∈ j.img.presets, (∀ q ∈ j.img.presets, q.id = p.id → q = p) → t.counterAt (cntKey c job p.id) =
        { Counter.init with thresh := p.thresh, armed := true, rearm := p.rearm, act := p.act, hid := p.hid, ttra := p.ttra }) ∧
      (t.jobAt job).marked.has c = true ∧ t.flight = s.flight ++ [.marker c job]
    (¬ waits → ∀ i ∈ [Instr.gangReservation job, .gangstall job, .gangPlacement job], Ends i s fun t => t = s) ∧
    (j.hopeless = true → ∀ i ∈ [Instr.gangReservation job, .gangPlacement job], Ends i s fun t => t = s) ∧
    (waits →
      (s.time < j.gangSince + 2000000 → Ends (.gangReservation job) s fun t => t = s) ∧
      (j.gangSince + 2000000 ≤ s.time → s.assisted 5 = true → j.reserving = false → j.hopeless = false → j.stalled = false → s.ringFull = false →
        Ends (.gangReservation job) s stall) ∧
      (j.gangSince + 2000000 ≤ s.time → s.assisted 5 = false ∨ j.reserving = true → j.hopeless = false → Ends (.gangReservation job) s fun t =>
          (t.jobAt job).reserving = true ∧ (∀ c ∈ lack, (t.jobAt job).reserved.has c = true) ∧ (idle → SameMem s t) ∧
          (idle → lack = [ck] → j.reserved = [] → x ≠ job → (s.jobAt x).reloc = true → (s.jobAt x).placed.has ck = true → s.jobStill ck x = true →
            s.runOf ck x = some r → r.seg + r.n ≤ 64 → (s.clusterAt ck).inret = [] →
            t.runOf ck x = none ∧ (∀ c ∈ (t.clusterAt ck).cnts, c.job ≠ x) ∧ (t.jobAt x).placed.has ck = false ∧ ∃ y ∈ (t.jobAt x).moved, y.ck = ck ∧
              ∀ o, o < r.n * 65536 → FMap.get 0 y.bytes o = s.byteAt (spadLoc ck (r.seg * 65536) + o))) ∧
      (s.assisted 5 = true ∨ s.time < j.gangSince + 100000000 ∨ j.stalled = true → Ends (.gangstall job) s fun t => t = s) ∧
      (s.assisted 5 = false → j.gangSince + 100000000 ≤ s.time → j.stalled = false → s.ringFull = false → Ends (.gangstall job) s stall) ∧
      (lack ≠ [] ∨ (∃ c ∈ j.place, (s.clusterAt c).inret ≠ []) → Ends (.gangPlacement job) s fun t => t = s) ∧
      (lack = [] → j.place ≠ [] → j.hopeless = false → (∀ c ∈ j.place, (s.clusterAt c).inret = []) → Ends (.gangPlacement job) s fun t => (t.jobAt job).reserving = false ∧ (t.jobAt job).reserved = [] ∧
        (∀ c ∈ j.place, (t.jobAt job).marked.has c = true ∧ (t.runOf c job).isSome = true ∧ Flight.marker c job ∈ t.flight) ∧
        (j.place = [ck] → s.runOf ck job = none → (s.clusterAt ck).freeRun j.segments = some seg → set ck seg t))) ∧
    (s.canTake ck job = false ∨ j.place.has ck = false ∨ (s.clusterAt ck).inret ≠ [] → Ends (.jobMoveBack job ck) s fun t => t = s) ∧
    (s.canTake ck job = true → j.place.has ck = true → (s.clusterAt ck).inret = [] → j.jstate = 1 ∨ j.jstate = 2 → ¬ waits → s.runOf ck job = none →
      (s.clusterAt ck).freeRun j.segments = some seg →
      (j.moved.find? (fun y => y.ck == ck) = some m → (∀ e ∈ m.bytes, FMap.get 0 m.bytes e.1 = e.2) → Ends (.jobMoveBack job ck) s fun t =>
        t.runOf ck job = some ⟨job, seg, max 1 ((j.img.spad.length + 65535) / 65536)⟩ ∧ (t.jobAt job).placed.has ck = true ∧
        (t.jobAt job).moved = j.moved.filter (fun y => y.ck != ck) ∧
        ∀ o, o < max 1 ((j.img.spad.length + 65535) / 65536) * 65536 → t.byteAt (spadLoc ck (seg * 65536) + o) = FMap.get 0 m.bytes o) ∧
      (j.moved.find? (fun y => y.ck == ck) = none → j.marked.has ck = false → Ends (.jobMoveBack job ck) s (set ck seg))) ∧
    (s.takeFlight k = some (.marker ck job, u) → Ends (.startMarker k) s fun t => { t with jobs := s.jobs } = u ∧
      t.jobAt job = if j.marked.has ck then { j with placed := j.placed.add ck } else j) ∧
    (j.wave = none → Ends (.configurationCompleteWave job) s fun t => t = s) ∧
    (∀ n, j.wave = some n →
      (∀ c, j.marked.find? (fun c => decide (n ≤ c)) = some c → Ends (.configurationCompleteWave job) s fun t =>
        if j.placed.has c then { t with jobs := s.jobs } = s ∧ t.jobAt job = { j with wave := some (c + 1) } else t = s) ∧
      (j.marked.find? (fun c => decide (n ≤ c)) = none → s.ringFull = false → Ends (.configurationCompleteWave job) s fun t =>
        t.jobAt job = { j with wave := none, jstate := 2 } ∧ t.evheld = s.evheld ++ [⟨1, job, 0, 0, 0, 0, s.eseq + 1⟩])) ∧
    (let loc := j.wq + 512 * j.wqhead.toNat
      let h := s.dwAt loc
      let c := fld h 16 2 * 64 + fld h 18 6
      let bad := fld h 0 16 ≠ s.modid.toNat ∨ fld h 28 15 ≠ job ∨ s.inPlace job (fld h 16 2) (fld h 18 6) = false ∨ fld h 56 1 = 1 ∨ 32 < fld h 57 6 ∨
        (j.handler (fld h 43 12)).isNone = true
      (j.jstate ≠ 1 ∧ j.jstate ≠ 2 ∨ j.wqhead = j.wqtail ∨ s.stalled loc 64 = true → Ends (.wqEntryDelivery job) s fun t => t = s) ∧
      (j.jstate = 1 ∨ j.jstate = 2 → j.wqhead ≠ j.wqtail → s.Calm →
        (bad → s.ringFull = false → Ends (.wqEntryDelivery job) s fun t => SameMem s t ∧ (t.jobAt job).wqhead.toNat = (j.wqhead.toNat + 1) % 2 ^ j.wqm % 2 ^ 64 ∧
          t.evheld = s.evheld ++ [⟨6, job, fld h 16 2, j.wqhead, h, 0, s.eseq + 1⟩] ∧ t.clusters = s.clusters) ∧
        (¬ bad → j.placed.has c = true → j.carafe = [] → s.spaceUsed c job (fld h 55 1 == 1) < (if fld h 55 1 = 1 then 32 else j.depth) →
          (s.unitAt (unitId 9 (c / 64) (c % 64) 0)).st ≠ .retired → Ends (.wqEntryDelivery job) s fun t => SameMem s t ∧
            (t.jobAt job).wqhead.toNat = (j.wqhead.toNat + 1) % 2 ^ j.wqm % 2 ^ 64 ∧ ∃ msg : Msg, msg.h0 = h ∧ msg.h1 = 1#64 <<< 31 ∧
              msg.pay = (List.range (fld h 57 6)).map (fun i => s.dwAt (loc + 16 + 8 * i)) ∧
              (t.clusterAt c).queue = (s.clusterAt c).queue ++ [⟨job, fld h 43 12, fld h 55 1 == 1, if fld h 24 4 = 15 then none else some (fld h 24 4), true, none, msg⟩]))) ∧
    (j.jstate ≠ 3 ∨ s.jobLeft job = true → Ends (.removeComplete job) s fun t => t = s) ∧
    (j.jstate = 3 → s.jobLeft job = false → job < 32768 → s.ringFull = false → Ends (.removeComplete job) s fun t => SameMem s t ∧ (t.jobAt job).jstate = 0 ∧
      (t.jobAt job).late = j.late ∧ (t.jobAt job).taken = [] ∧ (∀ c, t.runOf c job = none ∧ ∀ x ∈ (t.clusterAt c).cnts, x.job ≠ job) ∧ (∀ c i, i < 4096 → t.counterAt (cntKey c job i) = Counter.init) ∧
      (∀ e ∈ t.tlb, e.job ≠ job) ∧ t.evheld = s.evheld ++ [⟨2, job, 0, 0, 0, 0, s.eseq + 1⟩])

/-- R126, R191, R370, R372 to R374: a host write or read of physical memory or of a doubleword of the control space, its refusals, each register of each block
read and written, an offset that nothing names, and a doorbell. That bits 55 to 52 of an address are ignored and EQBASE keeps any value is log entry 37; the
refusal of an unused address and the doorbell of an absent job are log entry 82. -/
def Obligations.HostWindows : Prop :=
  ∀ (s : State) (addr v : W64) (data : List Byte) (n off job ck die : Nat),
    let pa := fld addr 0 52
    let one := fld addr 56 8 = 0xC0 ∧ fld addr 0 3 = 0
    let j := s.jobAt job
    let up := s.ports.has 0 = false ∨ s.ports.has 1 = false
    let o := off % 0x10000
    let unnamed := (off < 0x10000 ∧ off ∉ [0, 8, 0x10, 0x18, 0x20, 0x40, 0x48, 0x50, 0x58, 0x60, 0x100, 0x108]) ∨
      (0x10000 ≤ off ∧ off < 0x40000 ∧ (0 < o ∧ o < 0x1000 ∨ 0x1050 ≤ o ∧ o < 0x2000 ∨ 0x4000 < o ∧ o < 0x8000 ∨ 0xA000 ≤ o)) ∨
      (0x40000 ≤ off ∧ off < 0x100000) ∨ (0x100000 ≤ off ∧ off < 0x1C0000 ∧ off % 0x1000 ≠ 0) ∨ (0x1C0000 ≤ off ∧ off < 0x1000000) ∨ 0x1200000 ≤ off
    let reads (off : Nat) (x : W64) : Prop := fld addr 0 32 = off → Ends (.hostRmaRead addr 8) s fun t => t = { s with rma := some (.bytes (leBytes 8 x.toNat)) }
    let writes (off : Nat) (t : State) : Prop := up → Ends (.controlRegisterWrite off v) s fun u => u = t
    (¬ up → ∀ i ∈ [Instr.hostRmaWrite addr data, .hostRmaRead addr n, .controlRegisterWrite off v, .doorbell job v], Ends i s fun t => t = s) ∧
    (up → fld addr 56 8 = 0 →
      (inTier false pa data.length = true ∨ inTier true pa data.length = true → s.Calm → Ends (.hostRmaWrite addr data) s fun t =>
        SameMemBut pa data.length s t ∧ (∀ k b, data[k]? = some b → t.byteAt (pa + k) = b) ∧ { t with mem := s.mem, pois := s.pois, rma := s.rma } = s) ∧
      (inTier false pa n = true ∨ inTier true pa n = true → s.Calm → Ends (.hostRmaRead addr n) s fun t => t = { s with rma := some (.bytes (s.bytesAt pa n)) }) ∧
      (inTier false pa data.length = false → inTier true pa data.length = false → Ends (.hostRmaWrite addr data) s fun t => t = { s with rma := some (.err 0x14) }) ∧
      (inTier false pa n = false → inTier true pa n = false → Ends (.hostRmaRead addr n) s fun t => t = { s with rma := some (.err 0x14) })) ∧
    (up → one →
      (data.length = 8 → ∀ t, exec (.controlRegisterWrite (fld addr 0 32) (w64 (leNat data))) s = .next t →
        Ends (.hostRmaWrite addr data) s fun u => u = { t with rma := some (.bytes []) }) ∧
      reads 0x20 (w64 (s.hseq.toNat * 2 ^ 32 + s.hreason.toNat * 2 ^ 16 + s.hresult.toNat * 2 ^ 8 + s.hdrop.toNat * 2 + s.hbusy.toNat)) ∧
      reads 0x40 s.eqbase ∧ reads 0x48 s.eqsize ∧ reads 0x50 s.eqhead ∧ reads 0x58 s.eqtail ∧ reads 0x60 s.evlost ∧ reads 0x100 s.dsplit ∧
      reads 0x108 (s.modid.setWidth 64) ∧ reads 0 0 ∧ reads 8 0 ∧ reads 0x10 0 ∧ reads 0x18 0 ∧
      (die < 3 → let b := 0x10000 + 0x10000 * die
        let d := s.dieAt die
        reads b d.misdir ∧ (∀ k, k < 0x50 → reads (b + 0x1000 + k) (d.stats.get 0 k)) ∧ (∀ k, k < 1024 → reads (b + 0x2000 + 8 * k) (d.leases.get 0 k)) ∧
        reads (b + 0x4000) (w64 d.lrnext) ∧ ∀ k, k < 1024 → reads (b + 0x8000 + 8 * k) (d.route.get 0 k)) ∧
      (ck < 192 → let c := s.clusterAt ck
        c.retIdle < 65536 → c.inret.Nodup → (∀ b ∈ c.inret, b < 16) → ∃ x : W64, reads (0x100000 + 0x1000 * ck) x ∧ x.getLsbD 0 = c.retEn ∧
          fld x 16 16 = c.retIdle ∧ fld x 1 15 = 0 ∧ fld x 48 16 = 0 ∧ ∀ b, b < 16 → x.getLsbD (32 + b) = c.inret.has b) ∧
      (unnamed → reads off 0) ∧
      (job < 32768 → let b := 0x1000000 + 0x40 * job
        reads b 0 ∧ reads (b + 8) j.wqhead ∧ reads (b + 16) (w64 j.jstate) ∧ reads (b + 24) j.late ∧ reads (b + 32) j.carDrop ∧ reads (b + 40) j.postFault ∧
        reads (b + 48) j.errDrop ∧ reads (b + 56) j.lostRange)) ∧
    (up → fld addr 56 8 ≠ 0 →
      (¬ one ∨ data.length ≠ 8 → Ends (.hostRmaWrite addr data) s fun t => t = { s with rma := some (.err 0x14) }) ∧
      (¬ one ∨ n ≠ 8 → Ends (.hostRmaRead addr n) s fun t => t = { s with rma := some (.err 0x14) })) ∧
    (s.hbusy = true → off ∈ [0, 8, 16, 24] → writes off { s with hdrop := true }) ∧
    (s.hbusy = false → off ∈ [0, 8, 16] → writes off { s with hcmd := s.hcmd.set 0 (off / 8) v }) ∧
    (s.hbusy = false → let w := FMap.get 0 s.hcmd 0
      (w &&& 0xFFFFFFFF8000FF00 = 0 ∧ 1 ≤ fld w 0 8 ∧ fld w 0 8 ≤ 0xD → writes 24 { s with hcmd := s.hcmd.set 0 3 v, hbusy := true }) ∧
      (w &&& 0xFFFFFFFF8000FF00 ≠ 0 ∨ fld w 0 8 = 0 ∨ 0xD < fld w 0 8 → writes 24 { s with hcmd := s.hcmd.set 0 3 v, hresult := 1, hseq := s.hseq + 1 })) ∧
    writes 0x20 { s with hdrop := s.hdrop && !v.getLsbD 1 } ∧ writes 0x40 { s with eqbase := v } ∧ writes 0x48 { s with eqsize := v &&& 0x1F } ∧
    writes 0x50 { s with eqhead := v } ∧ writes 0x58 s ∧ writes 0x60 s ∧ (unnamed → writes off s) ∧ writes 0x100 { s with dsplit := v &&& 0x1FF } ∧
    ((∀ e ∈ s.jobs, e.2.jstate = 0) → writes 0x108 { s with modid := v.setWidth 16 }) ∧ ((∃ e ∈ s.jobs, e.2.jstate ≠ 0) → writes 0x108 s) ∧
    (die < 3 → off < 1024 → writes (0x10000 * (die + 1) + 0x8000 + 8 * off)
      (s.modDie die fun d => { d with route := d.route.set 0 off (v &&& 0x80000003FFFFFFFF) })) ∧
    (ck < 192 → let c := s.clusterAt ck
      writes (0x100000 + 0x1000 * ck) (s.putCluster ck { c with retEn := v.getLsbD 0, retIdle := if fld v 16 16 = 0 then c.retIdle else fld v 16 16 })) ∧
    (up → ∀ i ∈ [Instr.doorbell job v, .controlRegisterWrite (0x1000000 + 0x40 * job) v], job < 32768 →
      (j.jstate = 1 ∨ j.jstate = 2 → Ends i s fun t => t = s.putJob job { j with wqtail := w64 (v.toNat % 2 ^ j.wqm) }) ∧
      (j.jstate ≠ 1 → j.jstate ≠ 2 → Ends i s fun t => t = s))

/-- R113, R115, R321, R325, R329, R340, R344, R357, R361, R366, R375, R376, R378: the host commands. A malformed one and one for a job in the wrong state
change nothing but their result, nor does one that names no unit (log entry 82). The model's choices: which RETANS and RETIRE are refused and what a returned
unit loses (log entry 36), the refusals of GRPDIS and GRPSET (37), the note of GRPDIS (72), the entry of GRPSET (29); the parser of INSTALL's image is free
(13). -/
def Obligations.HostCommands : Prop :=
  ∀ (s : State) (l : Job) (f : FaultEnt) (h : AbortHold) (m : NeTx) (q : QCmd) (g : Group) (die k n : Nat),
    let job := s.hjob
    let j := s.jobAt job
    let a := s.hdw 1
    let b := s.hdw 2
    let id := a.toNat
    let x := s.unitAt id
    let d := s.dieAt die
    let hi : W64 := 0xFFFFFFFF00000000
    let all : W64 := BitVec.allOnes 64
    let ends (result : Nat) (t : State) : State := { t with hbusy := false, hresult := BitVec.ofNat 8 result, hseq := s.hseq + 1 }
    let done (result : Nat) (t : State) : Prop := t.hbusy = false ∧ t.hresult = BitVec.ofNat 8 result ∧ t.hseq = s.hseq + 1
    let gone (reason : Nat) (t : State) : Prop := (t.unitAt id).st = .retired ∧ (t.unitAt id).reason = reason ∧
      (s.karmos.recs.length < 4096 → t.karmos.recs.length = s.karmos.recs.length + 1)
    let runs (op : Nat) (r1 r2 r3 : W64) : Prop := s.hbusy = true ∧ s.hop = op ∧ a &&& r1 = 0 ∧ b &&& r2 = 0 ∧ s.hdw 3 &&& r3 = 0
    (∀ e ∈ [(Instr.install, 1, false, (0 : W64), all, all), (.remove, 2, true, all, all, all), (.inval, 3, true, 0, ~~~7#64, all), (.faultCmd, 4, true, 0, 0, ~~~1#64),
        (.retans, 5, false, hi, ~~~1#64, all), (.retire, 6, false, hi, all, all), (.lease, 7, false, hi, all, all), (.redlv, 8, false, hi, ~~~1#64, all),
        (.nertx, 9, false, hi, ~~~1#64, all), (.debug, 0xA, true, ~~~1#64, all, all), (.grpdis, 0xB, true, ~~~0xFF#64, all, all),
        (.grpset, 0xC, true, ~~~0xFF0000#64, ~~~0xFF#64, 0), (.carres, 0xD, true, 0, 0, all)],
      (s.hbusy = false ∨ s.hop ≠ e.2.1 → Ends e.1 s fun t => t = s) ∧
      (s.hbusy = true → s.hop = e.2.1 →
        (a &&& e.2.2.2.1 ≠ 0 ∨ b &&& e.2.2.2.2.1 ≠ 0 ∨ s.hdw 3 &&& e.2.2.2.2.2 ≠ 0 → Ends e.1 s fun t => t = ends 1 s) ∧
        (runs e.2.1 e.2.2.2.1 e.2.2.2.2.1 e.2.2.2.2.2 → e.2.2.1 = true → j.jstate ≠ 2 → Ends e.1 s fun t => t = ends 2 s))) ∧
    (runs 1 0 all all →
      (j.jstate ≠ 0 → Ends .install s fun t => t = ends 2 { s with hreason := 1 }) ∧
      (j.jstate = 0 → s.Calm →
        (id % 64 ≠ 0 ∨ inTier false id 128 = false → Ends .install s fun t => t = ends 3 { s with hreason := 2 }) ∧
        (∀ i, s.descOk id job = true → (s.imageBytes (s.descDw id 4).toNat (s.descDw id 5).toNat).bind Config.parseImage = some i → imageOk i = true → s.modid = 0 →
          Ends .install s fun t => t = ends 3 { s with hreason := 3 }) ∧
        (s.installReason id job = (0, some l) → Ends .install s fun t => done 0 t ∧ t.hreason = 0 ∧ (t.jobAt job).jstate = 1 ∧ (t.jobAt job).wave = some 0 ∧
          let y := t.jobAt job
          let w (i : Nat) := s.dwAt (id + 8 * i)
          y.gang = (w 0).getLsbD 15 ∧ y.reloc = (w 0).getLsbD 16 ∧ y.retry = fld (w 0) 17 3 ∧ y.share = fld (w 0) 20 8 ∧ y.depth = fld (w 0) 32 9 ∧
          y.errh = fld (w 0) 44 12 ∧ y.caph = fld (w 1) 0 12 ∧ y.wqm = fld (w 1) 16 5 ∧ y.root = (w 2).toNat ∧ y.wq = (w 3).toNat ∧ y.carPool = (w 9).toNat ∧
          y.carPages = (w 10).toNat ∧ y.pool1 = w 11 ∧ y.pool2 = w 12 ∧ y.late = 0 ∧ y.carDrop = 0 ∧ y.postFault = 0 ∧ y.errDrop = 0 ∧ y.lostRange = 0 ∧
          y.wqhead = 0 ∧ y.taken = []))) ∧
    (runs 2 all all all → j.jstate = 2 → Ends .remove s fun t => done 0 t ∧ (t.jobAt job).jstate = 3 ∧ (t.jobAt job).carafe = [] ∧ (t.jobAt job).holds = [] ∧
      (t.jobAt job).moved = [] ∧ (∀ f ∈ t.flight, f.ofJob job = false) ∧ (∀ c, ∀ r ∈ (t.coreAt c).dq, r.job ≠ job) ∧
      ((∀ e ∈ s.banks, e.2.job ≠ job ∨ e.2.st = .free) → (∀ c, ∀ y ∈ (s.clusterAt c).saved, y.bank.job ≠ job) → j.carafe = [] → j.holds = [] →
        (∀ e, e < 3 → (s.dieAt e).tx = []) → let mine (c : Nat) : List QMsg := (s.clusterAt c).queue.filter fun y => y.job == job
        (t.jobAt job).late = j.late + w64 ((List.range 192).map fun c => (mine c).length).sum ∧ (∀ c, c < 192 → ∀ y ∈ (t.clusterAt c).queue, y.job ≠ job) ∧
        (∀ y ∈ t.flight, y ∈ s.flight) ∧
        ∀ c, c < 192 → ∀ y ∈ mine c, fld y.m.h1 52 1 = 1 → fld y.m.h1 0 16 ≠ s.modid.toNat → ∃ z ∈ (t.dieAt (c / 64)).tx, z.dmod = fld y.m.h1 0 16 ∧
          ∃ h0 h1, z.body = .handler h0 h1 ∧ fld h0 43 12 = 0xFFF ∧ fld h0 57 6 = 0 ∧ fld h1 48 4 = fld y.m.h1 48 4)) ∧
    (runs 3 0 (~~~7#64) all → j.jstate = 2 → let n := [2 ^ 12, 2 ^ 16, 2 ^ 21, 2 ^ 25, 2 ^ 30, 2 ^ 34].getD b.toNat 0
      let covers (e : TlbEnt) : Prop := e.idx * leafSize e.lvl e.big < id / n * n + n ∧ id / n * n < (e.idx + 1) * leafSize e.lvl e.big
      let held := ∃ p ∈ s.pend, p.job = job ∧ translated p.va = true ∧ p.va < id / n * n + n ∧ id / n * n < p.va + p.n
      (6 ≤ b.toNat → Ends .inval s fun t => t = ends 1 s) ∧
      (b.toNat < 6 → held → Ends .inval s fun t => t = s) ∧
      (b.toNat < 6 → ¬ held → Ends .inval s fun t => done 0 t ∧ { ends 0 s with tlb := t.tlb } = t ∧
        ∀ e, e ∈ t.tlb ↔ e ∈ s.tlb ∧ ¬ (e.job = job ∧ covers e))) ∧
    (runs 4 0 0 (~~~1#64) → j.jstate = 2 → die = fld b 15 2 →
      (fld b 0 15 ≠ job ∨ d.faults = [] → Ends .faultCmd s fun t => t = ends 1 s) ∧
      (fld b 0 15 = job → d.faults = [f] → f.mode = 2 → f.pg.job = job → f.va / 4096 % 2 ^ 44 = fld a 12 44 → Ends .faultCmd s fun t => SameMem s t ∧ done 0 t ∧
        (t.dieAt die).faults = [] ∧ t.flight = s.flight ++ [.resolved f.pg ((s.hdw 3).getLsbD 0) die])) ∧
    (unitValid id = false → (runs 5 hi (~~~1#64) all → Ends .retans s fun t => t = ends 1 s) ∧ (runs 6 hi all all → Ends .retire s fun t => t = ends 1 s) ∧
      (runs 7 hi all all → Ends .lease s fun t => t = ends 1 s)) ∧
    (unitValid id = true → s.jobs = [] →
      (runs 5 hi (~~~1#64) all →
        (x.st ≠ .held ∨ x.leaving.isSome = true → Ends .retans s fun t => t = ends 3 s) ∧
        (x.st = .held → x.leaving = none → b = 0 → (id / 2 ^ 28 = 6 → 16 ≤ id % 256) → Ends .retans s fun t => OnlyUnit id (ends 0 s) t ∧
          t.unitAt id = { x with st := .inService, score := 255, reason := 0, askRetire := false, leaving := none, failed := 0, lseq := 0 }) ∧
        (x.st = .held → x.leaving = none → b = 1 → id / 2 ^ 28 ∈ [2, 3, 4] → Ends .retans s fun t => done 0 t ∧ gone x.reason t)) ∧
      (runs 6 hi all all →
        (x.st = .leased → Ends .retire s fun t => OnlyUnit id (ends 0 s) t ∧ t.unitAt id = { x with askRetire := true }) ∧
        (x.st = .held → x.leaving.isSome = true → Ends .retire s fun t => OnlyUnit id (ends 0 s) t ∧ t.unitAt id = { x with leaving := some true }) ∧
        (x.st = .held → x.leaving = none → id / 2 ^ 28 ∈ [2, 3, 4] → Ends .retire s fun t => done 0 t ∧ gone x.reason t) ∧
        (x.st = .inService → id / 2 ^ 28 ∈ [2, 3, 4] → Ends .retire s fun t => done 0 t ∧ gone 8 t) ∧
        (x.st = .draining ∨ x.st = .retired → Ends .retire s fun t => t = ends 3 s)) ∧
      (runs 7 hi all all →
        (s.leaseOk id = true → Ends .lease s fun t => done 0 t ∧ (t.unitAt id).st = .leased ∧ (t.unitAt id).due = none ∧
          ∃ y, (t.unitAt id).run = some y ∧ y.host = true ∧ y.start = s.time) ∧
        (s.leaseOk id = false → s.ringFull = false → Ends .lease s fun t => done 3 t ∧ t.units = s.units ∧
          t.evheld = s.evheld ++ [⟨0xE, 0, id / 2 ^ 26 % 4, w64 id, 0, 0, s.eseq + 1⟩]))) ∧
    (runs 8 hi (~~~1#64) all →
      ((∀ e ∈ s.jobs, e.2.holds = []) → Ends .redlv s fun t => t = ends 1 s) ∧
      (s.jobs = [(k, l)] → l.holds = [h] → h.eseq % 2 ^ 32 = id →
        (b = 1 → fld h.q.m.h1 32 3 < l.retry → Ends .redlv s fun t => done 0 t ∧ (t.jobAt k).holds = [] ∧ ∃ y : QMsg,
          (t.clusterAt h.ck).queue = y :: (s.clusterAt h.ck).queue ∧ y = { h.q with m := { h.q.m with h1 := y.m.h1 } } ∧
          fld y.m.h1 32 3 = (fld h.q.m.h1 32 3 + 1) % 8) ∧
        (b = 0 ∨ l.retry ≤ fld h.q.m.h1 32 3 → h.q.job = k → l.errh = 0xFFF → Ends .redlv s fun t => done 0 t ∧ (t.jobAt k).holds = [] ∧
          (t.jobAt k).errDrop = l.errDrop + 1 ∧ t.clusters = s.clusters) ∧
        (b = 0 ∨ l.retry ≤ fld h.q.m.h1 32 3 → h.q.job = k → l.errh ≠ 0xFFF → h.q.hid ≠ l.errh → l.errh < 4096 → k < 32768 → l.jstate = 2 →
          (s.unitAt (unitOf 9 h.ck 0)).st ≠ .retired → l.placedOn h.ck = true → l.section h.ck h.q.urg.toNat = [] →
          (s.putJob k { l with holds := [] }).spaceUsed h.ck k h.q.urg < spaceDepth l h.q.urg → Ends .redlv s fun t => done 0 t ∧ t.jobAt k = { l with holds := [] } ∧
            ∃ y, (t.clusterAt h.ck).queue = (s.clusterAt h.ck).queue ++ [⟨k, l.errh, h.q.urg, none, true, none, y⟩] ∧ y.h1 = h.q.m.h1 ∧
              y.pay = h.word :: h.tval :: h.q.m.h0 :: h.q.m.pay.take 29 ∧ fld y.h0 43 12 = l.errh))) ∧
    (runs 9 hi (~~~1#64) all →
      ((∀ i, (s.dieAt i).tx = []) → Ends .nertx s fun t => t = ends 1 s) ∧
      (die < 3 → (∀ i, i ≠ die → (s.dieAt i).tx = []) → d.tx = [m] → m.asked = [(id, n)] → m.parked = none → m.cmd = some q → m.lcmp = false → m.slot = none → m.err = 0 →
        m.dmod ≠ s.modid.toNat → m.isRequest = false →
        (b = 0 → Ends .nertx s fun t => let y := (t.engAt m.ck 5).statOf 0
          done 0 t ∧ (t.dieAt die).tx = [] ∧ y.tag = BitVec.ofNat 16 (tcwTag q.w0) ∧ y.errcode = 0x10 ∧ y.errtag = BitVec.ofNat 16 (tcwTag q.w0)) ∧
        (b = 1 → m.acked.has n = false → m.resends.get 0 n < 8 → m.rod = false → m.copy.isSome = true → Ends .nertx s fun t => done 0 t ∧
          (let out := (s.nePort die m 1).2; (t.dieAt out).stats.get 0 0x10 = (s.dieAt out).stats.get 0 0x10 + 1) ∧ ∃ y, (t.dieAt die).tx = [y] ∧ y.asked = [] ∧ y.resends.get 0 n = m.resends.get 0 n + 1))) ∧
    (runs 0xA (~~~1#64) all all → j.jstate = 2 → a = 1 ∨ (∀ e ∈ s.banks, e.2.waitsFor ≠ .debug) → Ends .debug s fun t =>
      t = ends 0 (s.putJob job { j with debug := a.getLsbD 0 })) ∧
    (runs 0xB (~~~0xFF#64) all all → j.jstate = 2 →
      (j.groups.length ≤ id → Ends .grpdis s fun t => t = ends 3 s) ∧
      (j.groups[id]? = some g → Ends .grpdis s fun t => done 0 t ∧ (j.caph = 0xFFF → { ends 0 s with groups := t.groups } = t) ∧
        (j.caph ≠ 0xFFF → j.unacked.length < 4 → let e := Config.groupNote job id
          (t.jobAt job).unacked = j.unacked ++ [⟨e.1, j.lostMark, e.2.1.toNat, e.2.2.1.toNat, e.2.2.2.toNat, (j.capLast + 1) % 2 ^ 32, w64 s.time⟩]) ∧
        (∀ c ∈ g.members, (t.grpAt (grpKey c job id)).dis = true) ∧
        ∀ key y, FMap.get GrpSt.init s.groups key = y → y ≠ GrpSt.init → t.grpAt key =
          if key % 2 ^ 23 = job * 256 + id then { y with dis := true, parts := [], conts := [], next := [], sent := false } else y)) ∧
    (runs 0xC (~~~0xFF0000#64) (~~~0xFF#64) 0 → j.jstate = 2 →
      (fld a 16 2 = 3 → Ends .grpset s fun t => t = ends 1 s) ∧
      (fld a 16 2 < 3 → j.groups.length ≤ b.toNat → Ends .grpset s fun t => t = ends 3 s) ∧
      (fld a 16 2 < 3 → j.groups[b.toNat]? = some g → let c := fld a 16 2 * 64 + fld a 18 6
        let key := grpKey c job b.toNat
        ((s.unitAt (unitOf 9 c 0)).st = .retired → Ends .grpset s fun t => done 0 t ∧ (t.grpAt key).dis = true) ∧
        ((∀ k, (s.unitAt (unitOf 9 k 0)).st ≠ .retired) → Ends .grpset s fun t => done 0 t ∧ (∀ i, i ≠ key → t.grpAt i = s.grpAt i) ∧
          let e := Config.groupEntry (s.hdw 3)
          t.grpAt key = { s.grpAt key with entry := some ⟨e.1.map Fin.val, [0, 1, 2, 3].filter e.2.1.getLsbD, e.2.2.val⟩ }))) ∧
    (runs 0xD 0 0 all → j.jstate = 2 →
      (id % 65536 ≠ 0 ∨ inTier false id (b.toNat * 65536) = false → Ends .carres s fun t => t = ends 1 s) ∧
      (id % 65536 = 0 → inTier false id (b.toNat * 65536) = true → Ends .carres s fun t => t = ends 0 (s.putJob job { j with carRes := j.carRes ++ (List.range b.toNat).map fun k => id + 65536 * k })))

/-- R24, R25, R365, R380: a module reset and power on run the boot chain and set every register to its reset value; T1 and T2 keep their contents unless they
are scrubbed; units named in verified records start retired; where an image has no slot that verifies, and at a thermal trip, the dies are held. The reset values
that the spec does not give are log entry 1, the boot chain in one step is log entry 53, that a trip holds all dies and that power on acts only where Karmos is
off log entry 37. -/
def Obligations.ResetAndBoot : Prop :=
  ∀ (s : State) (scrub gated : Bool) (die ck : Nat) (u : W32),
    let k := s.karmos
    let good (i sl : Nat) : Prop := let f := k.slots.get ⟨0, 0, false, false⟩ (2 * i + sl); f.rsaOk = true ∧ f.slhOk = true
    let starts (i : Nat) : Nat := k.next.get 0 i % 2
    let zeroed (keep : Bool) (t : State) : Prop :=
      { t with agenda := [], freeN := 0, svcCode := [], ports := [], rma := none, units := [], mem := [], pois := [], karmos := Karmos.init } = State.reset ∧
      (∀ a, t.byteAt a = if keep = true ∧ (inT1 a = true ∨ inT2 a = true) then s.byteAt a else 0) ∧ t.karmos.recs = k.recs ∧
      ((∀ r ∈ k.recs, kindOf (fld (r.dws.getD 0 0) 32 32) ≠ 9) → ∀ v, t.unitAt v =
        if ∃ r ∈ k.recs, r.signed = true ∧ r.cleared = false ∧ fld (r.dws.getD 0 0) 32 32 = v then { UnitRec.init with st := .retired } else UnitRec.init)
    (∀ e ∈ [(Instr.moduleReset scrub, !scrub, k.on)] ++ (if k.on then [] else [(.karmosPowerOn, true, true)]),
      (Ends e.1 s fun t => zeroed e.2.1 t ∧ t.karmos.on = e.2.2) ∧
      ((∀ i, i < 3 → good i (starts i) ∨ good i (1 - starts i)) → Ends e.1 s fun t => t.karmos.diesHeld = false ∧ t.karmos.fwOk = true ∧ t.karmos.boots = k.boots + 1 ∧
        t.karmos.side = k.side ∧ ∀ i, i < 3 → (good i (starts i) → t.karmos.cur.get 0 i = starts i) ∧ (¬ good i (starts i) → t.karmos.cur.get 0 i = 1 - starts i)) ∧
      (∀ i, i < 3 → ¬ good i 0 → ¬ good i 1 → Ends e.1 s fun t => t.karmos.diesHeld = true ∧ t.karmos.side = k.side ++ [.bootFailed] ∧ t.karmos.cur.get 0 i = 2 ∧
        (i = 0 → t.karmos.fwOk = false))) ∧
    (k.on = true → Ends .karmosPowerOn s fun t => t = s) ∧
    (Ends (.thermalTrip die) s fun t => zeroed true t ∧ t.karmos = { k with diesHeld := true, tripped := true, side := k.side ++ [.trip die] }) ∧
    (unitValid u.toNat = true → Ends (.junctionLimit u) s fun t => OnlyUnit u.toNat s t ∧ t.unitAt u.toNat = { s.unitAt u.toNat with slowed := true }) ∧
    (unitValid u.toNat = false → Ends (.junctionLimit u) s fun t => t = s) ∧
    (ck < 192 → Ends (.clockGating ck gated) s fun t => { t with clusters := s.clusters } = s ∧ (∀ c, c ≠ ck → t.clusterAt c = s.clusterAt c) ∧
      t.clusterAt ck = { s.clusterAt ck with gated := gated }) ∧
    (192 ≤ ck → Ends (.clockGating ck gated) s fun t => t = s)

/-- R356, R365, R379, R381: what Karmos answers on the side band, where it runs its firmware: telemetry, firmware update, lease policy, retirement records,
and the SPDM requests, each once the exchange has come to it. The codes and bodies of the SPDM answers are the model's choice (log entry 32), as are the layout
and total of the telemetry (14), the fields and results of an image (53), and the signatures and hashes (13). -/
def Obligations.KarmosFunctions : Prop :=
  ∀ (s : State) (img : FwImage) (kind period n slot off len index : Nat) (a b : Bool) (nonce : List Byte) (r : RetRec),
    let k := s.karmos
    let runs := k.on = true ∧ k.fwOk = true
    let makes (i : Instr) (k' : Karmos) : Prop := Ends i s fun t => t = { s with karmos := k' }
    let answers (i : Instr) (step code : Nat) (body : List Byte) : Prop := makes i { k with spdmStep := step, side := k.side ++ [.spdm code body [] []] }
    let signs (i : Instr) (code : Nat) (body : List Byte) : Prop :=
      makes i { k with spdmStep := 3, side := k.side ++ [.spdm code body (Config.rsaSign (nonce ++ body)) (Config.slhSign (nonce ++ body))] }
    let all := (List.range 6).flatMap fun i => s.measure (i + 1)
    (¬ runs → ∀ i ∈ [Instr.telemetry, .firmwareUpdate img, .leasePolicy kind period, .retirementRecordRead n, .retirementRecordClear n a b, .getVersion, .getCapabilities,
      .negotiateAlgorithms, .getDigests, .getCertificate slot off len, .challenge nonce, .getMeasurements index nonce], Ends i s fun t => t = s) ∧
    (runs →
      (Ends .telemetry s fun t => ∃ rs : List Nat, rs.length = 68 ∧ let m := SideMsg.telemetry k.reports (rs ++ [(rs.take 65).sum]) (s.units.map fun e => (e.1, e.2.score, e.2.st.code))
        t = { s with karmos := { k with reports := k.reports + 1, side := k.side ++ [m] } }) ∧
      (img.id < 3 → k.minVer ≤ img.version → Ends (.firmwareUpdate img) s fun t => { t with karmos := k } = s ∧ t.karmos.cur = k.cur ∧
        (∀ i, t.karmos.slots.get ⟨0, 0, false, false⟩ i = if i = 2 * img.id + (1 - k.cur.get 0 img.id % 2) then img else k.slots.get ⟨0, 0, false, false⟩ i) ∧
        (img.rsaOk = true ∧ img.slhOk = true → t.karmos.next.get 0 img.id = 1 - k.cur.get 0 img.id % 2 ∧ t.karmos.side = k.side ++ [.fwResult true]) ∧
        (¬ (img.rsaOk = true ∧ img.slhOk = true) → t.karmos.next = k.next ∧ t.karmos.side = k.side ++ [.fwResult false])) ∧
      (img.version < k.minVer → makes (.firmwareUpdate img) { k with side := k.side ++ [.fwResult false] }) ∧
      (1 ≤ kind → kind ≤ 8 → period = 0 ∨ (60 ≤ period ∧ period ≤ 86400) → makes (.leasePolicy kind period) { k with newPeriod := k.newPeriod.set none kind (some period) }) ∧
      (kind = 0 ∨ 8 < kind ∨ (0 < period ∧ period < 60) ∨ 86400 < period → Ends (.leasePolicy kind period) s fun t => t = s) ∧
      (k.recs[n]? = some r → makes (.retirementRecordRead n) { k with side := k.side ++ [.record n r.dws true] }) ∧
      (k.recs.length ≤ n → makes (.retirementRecordRead n) { k with side := k.side ++ [.record n [] false] }) ∧
      (k.recs[n]? = some r → a = true → b = true → Ends (.retirementRecordClear n a b) s fun t => { t with karmos := k } = s ∧ t.karmos.side = k.side ++ [.cleared n true] ∧
        t.karmos.recs = k.recs.set n { r with cleared := true }) ∧
      (k.recs.length ≤ n ∨ a = false ∨ b = false → makes (.retirementRecordClear n a b) { k with side := k.side ++ [.cleared n false] }) ∧
      answers .getVersion 1 0x04 [0, 1, 0, 0x13] ∧
      (∀ e ∈ [(Instr.getCapabilities, 1), (.negotiateAlgorithms, 2), (.getDigests, 3), (.getCertificate slot off len, 3), (.challenge nonce, 3), (.getMeasurements index nonce, 3)],
        k.spdmStep < e.2 → answers e.1 k.spdmStep 0x7F [4, 0]) ∧
      (1 ≤ k.spdmStep → answers .getCapabilities 2 0x61 [0x16, 0, 0, 0]) ∧
      (2 ≤ k.spdmStep → answers .negotiateAlgorithms 3 0x63 [0x08, 0, 0, 0, 0x02, 0, 0, 0]) ∧
      (3 ≤ k.spdmStep →
        answers .getDigests 3 0x01 (Config.sha384 Config.certChain) ∧ answers (.getCertificate 0 off len) 3 0x02 ((Config.certChain.drop off).take len) ∧
        (slot ≠ 0 → answers (.getCertificate slot off len) 3 0x7F [1, 0]) ∧ signs (.challenge nonce) 0x03 (Config.sha384 Config.certChain ++ Config.sha384 all) ∧
        signs (.getMeasurements 0 nonce) 0x60 [6] ∧ (1 ≤ index → index ≤ 6 → signs (.getMeasurements index nonce) 0x60 (s.measure index)) ∧
        signs (.getMeasurements 0xFF nonce) 0x60 all ∧ (6 < index → index ≠ 0xFF → answers (.getMeasurements index nonce) 3 0x7F [1, 0])))

/-! ## Encodings, the step, invariants -/

/-- R28 to R35: every well-formed instruction with a handler word is decoded from the word that encodes it, with every operand. -/
def Obligations.HandlerWordsRoundTrip : Prop := ∀ (i : Instr) (w : Nat), i.wf = true → encode i = some w → w < 2 ^ 32 ∧ decode w = some i

/-- R36, R239 to R244, R259, R290, R301, R311, R331: every well-formed command is read back from the words of its TCW, with every operand, and word 0 holds
its tag, its counter and the bits CV and ERRC. -/
def Obligations.CommandWordsRoundTrip : Prop :=
  ∀ (i : Instr) (b : TcwBody) (tag ctr : Nat) (cv errc : Bool) (d : Dims), i.wf = true → tcwBody i = some b → tag < 2 ^ 16 → ctr < 2 ^ 12 →
    let w0 := tcwWord0 b tag ctr cv errc
    tcwInstr w0 (w64 b.w1) (w64 b.w2) (w64 b.w3) d = some i ∧ tcwTag w0 = tag ∧ tcwCtr w0 = ctr ∧ tcwCv w0 = cv ∧ tcwErrc w0 = errc

/-- R28 to R35: one word of each kind of format, written out from its fields. -/
def Obligations.WordsDecode : Prop :=
  decode 0x1000817B = some (.vcvt .bf16 .fp32 .rndm 1 2) ∧ decode 0x0D10B357 = some (.vfma 2 2 1 3) ∧
  decode 0x002294D7 = some (.vaddVX 0 20 5 4) ∧ decode 0xA01CC757 = some (.vld 0 3 9 7) ∧ decode 0x0000000B = some .endh ∧
  decode 0x0200000B = some (.aborth 0) ∧ decode 0x00000073 = some .ecall ∧ decode 0x00100073 = some .ebreak ∧ decode 0x10500073 = some .wfi ∧
  decode (19 + 1 * 2 ^ 7 + 0xFFF * 2 ^ 20) = some (.addi 1 0 (-1)) ∧ decode (51 + 1 * 2 ^ 7 + 2 * 2 ^ 15 + 3 * 2 ^ 20 + 32 * 2 ^ 25) = some (.sub 1 2 3) ∧
  decode (35 + 24 * 2 ^ 7 + 3 * 2 ^ 12 + 6 * 2 ^ 15 + 5 * 2 ^ 20 + 127 * 2 ^ 25) = some (.sd 6 5 (-8)) ∧
  decode (47 + 5 * 2 ^ 7 + 3 * 2 ^ 12 + 9 * 2 ^ 15 + 3 * 2 ^ 20 + 1 * 2 ^ 26 + 5 * 2 ^ 27) = some (.acasD 5 9 3 true false) ∧
  decode (43 + 5 * 2 ^ 7 + 1 * 2 ^ 12 + 9 * 2 ^ 15 + 3 * 2 ^ 20 + 4 * 2 ^ 25) = some (.publish 5 9 3) ∧
  decode (91 + 5 * 2 ^ 7 + 1 * 2 ^ 12 + 9 * 2 ^ 15 + 3 * 2 ^ 20 + 3 * 2 ^ 25) = some (.retrd 5 9 3) ∧ decode 0 = none ∧ decode 0xFFFFFFFF = none

/-- R79, R85, R164: where it is the turn of a bank in handler mode that has nothing due before its next word, a step is the instruction that its word encodes,
counted by an open masked window unless it traps (what goes first in such a window is log entry 48), and then what falls due; a word that encodes none is the
reserved encoding, and an instruction that leaves its bank as it was has not issued. A parked access that a context left to reissue goes before the next word
(log entry 49). Bank 4 goes before the normal banks, a bank with an open window before the others, and those take turns. An engine's step and an event likewise.
A step makes the next move of the agenda (log entry 3). -/
def Obligations.StepRunsTheInstruction : Prop :=
  ∀ (s t : State) (bk ck cls n : Nat) (rest : List Move) (w : W32) (i : Instr) (r : RunCmd), s.karmos.diesHeld = false →
    (let u := { s with agenda := rest, cur := bk }
     let b := u.b
     let c := u.coreAt (bk / 5)
     let moves (t : State) : Prop := step s = .next (if u.stays t i then u else t.issued bk).settle
     let free := t.b = (illegal u i).b ∨ u.stays t i = true
     let other (k : Nat) : Nat := bk / 5 * 5 + k
     let place (k : Nat) : Nat := (k + 4 - (c.last + 1) % 4) % 4
     s.agenda = .issue bk :: rest → bk < 15360 → b.st = .running → (s.clusterAt (bk / 80)).gated = false → b.service = false → b.maskDue = 0 → b.redo = none →
        0x100000 ≤ b.pc.toNat → (b.pc.toNat - 0x100000) / 4 < (s.jobAt b.job).img.code.length →
        s.code.get 0 ((bk / 80 * 32768 + b.job) * 2 ^ 16 + (b.pc.toNat - 0x100000) / 4) = w → i = (decode w.toNat).getD (.reservedEncoding w) →
        (b.maskOn = false → b.preempt = none → u.turn bk = true → exec i u = .next t → moves t) ∧
        (b.maskOn = true → s.cycles < b.maskStart + 1024 → u.turn bk = true → exec i u = .next t →
          (free ∨ (0 < b.maskLeft ∧ u.trapped t = true) → moves t) ∧
          (¬ free → 0 < b.maskLeft → u.trapped t = false → ∀ t', exec i (u.modB fun b => { b with maskLeft := b.maskLeft - 1 }) = .next t' → moves t') ∧
          (¬ free → b.maskLeft = 0 → closesWindow i = true → moves t) ∧ (¬ free → b.maskLeft = 0 → closesWindow i = false → moves (u.trap 9 1))) ∧
        (b.maskOn = true ∨ b.preempt = none → s.cycles < b.maskStart + 1024 → u.turn bk = false → step s = .next u.settle) ∧
        (bk % 5 = 4 → c.next ≤ s.cycles → u.ready bk = true → u.turn bk = true) ∧
        (u.turn bk = true → c.next ≤ s.cycles ∧ u.ready bk = true ∧ (bk % 5 ≠ 4 → u.wouldIssue (other 4) = false ∧ ∀ k, k < 4 →
          ((u.bankAt (other k)).maskOn = true → b.maskOn = false → u.wouldIssue (other k) = false) ∧
          ((u.bankAt (other k)).maskOn = b.maskOn → place k < place (bk % 5) → u.wouldIssue (other k) = false)))) ∧
    (∀ y, let u := { s with agenda := rest, cur := bk }
     s.agenda = .issue bk :: rest → bk < 15360 → u.b.st = .running → (s.clusterAt (bk / 80)).gated = false → u.b.service = false → u.b.maskDue = 0 →
        u.b.maskOn = false → u.b.preempt = none → u.turn bk = true → u.b.redo = some y → u.reissue y = .next t →
        step s = .next (if u.stays t .xfence then u else t.issued bk).settle) ∧
    (let u := { s with agenda := rest, cmd := ⟨ck, cls, n % unitsOf cls, n / unitsOf cls⟩ }
     s.agenda = .engine ck cls n :: rest → ck < 192 → cls < 6 → u.engGone ck cls = false → u.engHeld ck cls = false → (s.clusterAt ck).gated = false →
        u.run? = some r → tcwInstr r.cmd.w0 r.cmd.w1 r.cmd.w2 r.cmd.w3 (u.dimsOf ck r.cmd.w0) = some i → exec i u = .next t → step s = .next t.settle) ∧
    (s.agenda = .event i :: rest → isEvent i = true → exec i { s with agenda := rest } = .next t → step s = .next t.settle)

/-- No instruction stops the machine: each has a meaning in every state, and so has every step (R35, R85: what an instruction may not do, it traps on). -/
def Obligations.NothingStops : Prop := (∀ i s, ∃ t, exec i s = .next t) ∧ ∀ s : State, s.Goes

/-- Memory keeps its canonical form through every step. -/
def Obligations.MemoryStaysCanonical : Prop := ∀ s t : State, s.MemWf → step s = .next t → t.MemWf

/-- R19, R25, R68, R126, R159, R192, R355, R356, R366, R372 to R374, R380: the values after reset that the spec gives, of banks, dies, clusters, jobs, counters,
units, lease periods and the module block, and memory in its canonical form. -/
def Obligations.ResetValues : Prop :=
  State.reset.MemWf ∧ (∀ bk, let b := State.reset.bankAt bk
    b.st = .free ∧ b.chki = 0 ∧ b.aflags = 0 ∧ b.rndm = 0 ∧ b.vcfg = 2 ∧ b.lglen = 0 ∧ b.lgact = 0 ∧ b.sqtraps = 0 ∧ b.maskOn = false ∧ b.vstr = 0 ∧
      b.tcause = 0 ∧ b.tval = 0 ∧ b.tepc = 0 ∧ b.tstat = 0 ∧ b.tvec = 0) ∧
  (∀ k, let d := State.reset.dieAt k; d.misdir = 0 ∧ d.lrnext = 0 ∧ (∀ i, d.stats.get 0 i = 0) ∧ (∀ i, d.leases.get 0 i = 0) ∧ ∀ i, d.route.get 0 i = 0) ∧
  (∀ k, (State.reset.clusterAt k).spret = 500 * 2 ^ 16) ∧ (∀ j, State.reset.jobAt j = Job.init ∧ ∀ k, (State.reset.jobAt j).reg k = 0) ∧
  (∀ u, (State.reset.unitAt u).st = .inService ∧ (State.reset.unitAt u).score = 0) ∧ State.reset.hstat = 0 ∧ State.reset.eqbase = 0 ∧ State.reset.eqsize = 0 ∧
  State.reset.eqhead = 0 ∧ State.reset.eqtail = 0 ∧ State.reset.evlost = 0 ∧ State.reset.modid = 0 ∧ (∀ k, State.reset.hdw k = 0) ∧
  State.reset.dsplit = 0x12 ∧ (∀ k, State.reset.assisted k = (k == 1 || k == 4)) ∧
  (∀ kind, 1 ≤ kind → kind ≤ 8 → State.reset.period kind = if kind ≤ 5 then 600 else 3600) ∧
  ∀ k, let c := State.reset.counterAt k; c.count = 0 ∧ c.thresh = 1 ∧ c.armed = false ∧ c.act = 0 ∧ c.fires = 0
end

