-- ==== Sys2Proof/Laws/Memory.lean ====
section
/-! SUPPORT. The laws of sparse maps, sets and memory: what a read gives after a write, and that the canonical form is kept. -/

namespace Sys2Proof

/-! ## Maps -/

theorem FMap.get_erase {α : Type} (d : α) (m : FMap α) (i j : Nat) :
    FMap.get d (FMap.erase m i) j = if j = i then d else FMap.get d m j := by
  induction m with
  | nil => simp [FMap.erase, FMap.get]
  | cons e t ih =>
    obtain ⟨k, v⟩ := e
    simp only [FMap.erase]
    split
    · subst k; rw [ih]; by_cases h : j = i <;> simp [FMap.get, h]
      intro h'; exact absurd h'.symm h
    · by_cases h : k = j <;> simp_all [FMap.get]

theorem FMap.get_insert {α : Type} (d : α) (m : FMap α) (i j : Nat) (v : α) (hi : FMap.get d m i = d) (h : ∀ e ∈ m, e.1 ≠ i) :
    FMap.get d (FMap.insert m i v) j = if j = i then v else FMap.get d m j := by
  induction m with
  | nil => by_cases h : j = i <;> simp [FMap.insert, FMap.get, h]
           intro h'; exact absurd h'.symm h
  | cons e t ih =>
    obtain ⟨k, w⟩ := e
    have hk : k ≠ i := h (k, w) (by simp)
    simp only [FMap.insert]
    split
    · by_cases h : i = j <;> simp [FMap.get, h, eq_comm]
    · have : FMap.get d t i = d := by simpa [FMap.get, hk] using hi
      by_cases hj : k = j
      · subst hj; simp [FMap.get, hk]
      · simp only [FMap.get, hj, if_false]; exact ih this fun e he => h e (by simp [he])

theorem FMap.erase_ne {α : Type} (m : FMap α) (i : Nat) : ∀ e ∈ FMap.erase m i, e.1 ≠ i := by
  induction m with
  | nil => simp [FMap.erase]
  | cons e t ih =>
    obtain ⟨k, v⟩ := e
    simp only [FMap.erase]
    split
    · exact ih
    · rename_i h
      intro e he
      rcases List.mem_cons.mp he with rfl | he
      · exact h
      · exact ih e he

/-- What a map reads as after a key is set. -/
theorem FMap.get_set {α : Type} [DecidableEq α] (d : α) (m : FMap α) (i j : Nat) (v : α) :
    FMap.get d (FMap.set d m i v) j = if j = i then v else FMap.get d m j := by
  unfold FMap.set
  split
  · rw [FMap.get_erase]; simp_all
  · rw [FMap.get_insert _ _ _ _ _ (by simp [FMap.get_erase]) (FMap.erase_ne m i), FMap.get_erase]
    by_cases h : j = i <;> simp [h]

@[simp] theorem FMap.get_set_same {α : Type} [DecidableEq α] (d : α) (m : FMap α) (i : Nat) (v : α) : FMap.get d (FMap.set d m i v) i = v := by
  simp [FMap.get_set]

theorem FMap.get_set_ne {α : Type} [DecidableEq α] (d : α) (m : FMap α) {i j : Nat} (v : α) (h : j ≠ i) :
    FMap.get d (FMap.set d m i v) j = FMap.get d m j := by simp [FMap.get_set, h]

theorem FMap.erase_erase {α : Type} (m : FMap α) (i : Nat) : FMap.erase (FMap.erase m i) i = FMap.erase m i := by
  induction m with
  | nil => rfl
  | cons e t ih =>
    obtain ⟨k, v⟩ := e
    by_cases h : k = i <;> simp [FMap.erase, h, ih]

theorem FMap.erase_insert {α : Type} (m : FMap α) (i : Nat) (v : α) : FMap.erase (FMap.insert m i v) i = FMap.erase m i := by
  induction m with
  | nil => simp [FMap.insert, FMap.erase]
  | cons e t ih =>
    obtain ⟨k, w⟩ := e
    simp only [FMap.insert]
    split
    · simp [FMap.erase]
    · by_cases h : k = i <;> simp [FMap.erase, h, ih]

/-- Of two values set at one key the later stands. -/
theorem FMap.set_set {α : Type} [DecidableEq α] (d : α) (m : FMap α) (i : Nat) (v w : α) : FMap.set d (FMap.set d m i v) i w = FMap.set d m i w := by
  have h : FMap.erase (FMap.set d m i v) i = FMap.erase m i := by
    unfold FMap.set; split <;> simp [FMap.erase_insert, FMap.erase_erase]
  unfold FMap.set at h ⊢
  split <;> rw [h]

theorem FMap.wfFrom_mono {α : Type} [DecidableEq α] (d : α) (m : FMap α) {a b : Nat} (h : a ≤ b) (hb : FMap.wfFrom d b m = true) : FMap.wfFrom d a m = true := by
  cases m with
  | nil => rfl
  | cons e t => obtain ⟨k, v⟩ := e; simp_all [FMap.wfFrom]; omega

theorem FMap.wfFrom_erase {α : Type} [DecidableEq α] (d : α) (m : FMap α) (i lo : Nat) (h : FMap.wfFrom d lo m = true) :
    FMap.wfFrom d lo (FMap.erase m i) = true := by
  induction m generalizing lo with
  | nil => rfl
  | cons e t ih =>
    obtain ⟨k, v⟩ := e
    simp only [FMap.wfFrom, Bool.and_eq_true, decide_eq_true_eq] at h
    simp only [FMap.erase]
    split
    · exact FMap.wfFrom_mono d _ (by omega) (ih (k + 1) h.2)
    · simp [FMap.wfFrom, h.1.1, h.1.2, ih (k + 1) h.2]

theorem FMap.wfFrom_insert {α : Type} [DecidableEq α] (d : α) (m : FMap α) (i lo : Nat) (v : α) (hv : v ≠ d) (hlo : lo ≤ i)
    (hne : ∀ e ∈ m, e.1 ≠ i) (h : FMap.wfFrom d lo m = true) : FMap.wfFrom d lo (FMap.insert m i v) = true := by
  induction m generalizing lo with
  | nil => simp [FMap.insert, FMap.wfFrom, hlo, hv]
  | cons e t ih =>
    obtain ⟨k, w⟩ := e
    have hk : k ≠ i := hne (k, w) (by simp)
    simp only [FMap.wfFrom, Bool.and_eq_true, decide_eq_true_eq] at h
    simp only [FMap.insert]
    split
    · simp [FMap.wfFrom, hlo, hv, h.1.2, h.2]; omega
    · simp only [FMap.wfFrom, Bool.and_eq_true, decide_eq_true_eq]
      exact ⟨h.1, ih (k + 1) (by omega) (fun e he => hne e (by simp [he])) h.2⟩

/-- Setting a key keeps the canonical form. -/
theorem FMap.wf_set {α : Type} [DecidableEq α] (d : α) (m : FMap α) (i : Nat) (v : α) (h : FMap.wf d m = true) : FMap.wf d (FMap.set d m i v) = true := by
  unfold FMap.set FMap.wf
  split
  · exact FMap.wfFrom_erase d m i 0 h
  · rename_i hv
    exact FMap.wfFrom_insert d _ i 0 v hv (Nat.zero_le _) (FMap.erase_ne m i) (FMap.wfFrom_erase d m i 0 h)

theorem FMap.wfFrom_filter {α : Type} [DecidableEq α] (d : α) (m : FMap α) (p : Nat × α → Bool) (lo : Nat) (h : FMap.wfFrom d lo m = true) :
    FMap.wfFrom d lo (m.filter p) = true := by
  induction m generalizing lo with
  | nil => rfl
  | cons e t ih =>
    obtain ⟨k, v⟩ := e
    simp only [FMap.wfFrom, Bool.and_eq_true, decide_eq_true_eq] at h
    cases hp : p (k, v) with
    | true => rw [List.filter_cons_of_pos hp]; simp [FMap.wfFrom, h.1.1, h.1.2, ih (k + 1) h.2]
    | false => rw [List.filter_cons_of_neg (by simp [hp])]; exact FMap.wfFrom_mono d _ (by omega) (ih (k + 1) h.2)

/-- Leaving entries out keeps the canonical form. -/
theorem FMap.wf_filter {α : Type} [DecidableEq α] (d : α) (m : FMap α) (p : Nat × α → Bool) (h : FMap.wf d m = true) : FMap.wf d (m.filter p) = true :=
  FMap.wfFrom_filter d m p 0 h

/-! ## Sets -/

theorem NSet.has_del (m : NSet) (i j : Nat) : NSet.has (NSet.del m i) j = (decide (j ≠ i) && NSet.has m j) := by
  induction m with
  | nil => simp [NSet.del, NSet.has]
  | cons k t ih =>
    simp only [NSet.del]
    by_cases h : k = i <;> by_cases h' : j = i <;> by_cases hk : k = j <;> simp_all [NSet.has]

theorem NSet.has_insert (m : NSet) (i j : Nat) : NSet.has (NSet.insert m i) j = (decide (i = j) || NSet.has m j) := by
  induction m with
  | nil => simp [NSet.insert, NSet.has]
  | cons k t ih =>
    simp only [NSet.insert]
    split
    · simp [NSet.has]
    · simp only [NSet.has, ih]; cases decide (k = j) <;> cases decide (i = j) <;> simp

theorem NSet.has_add (m : NSet) (i j : Nat) : NSet.has (NSet.add m i) j = (decide (j = i) || NSet.has m j) := by
  rw [NSet.add, NSet.has_insert, NSet.has_del]
  by_cases h : j = i
  · simp [h]
  · have h' : i ≠ j := fun e => h e.symm
    simp [h, h']

namespace Machine

/-! ## Bytes -/

theorem leBytes_length (n v : Nat) : (leBytes n v).length = n := by
  induction n generalizing v with
  | zero => rfl
  | succ n ih => simp [leBytes, ih]

theorem leNat_leBytes (n v : Nat) : leNat (leBytes n v) = v % 256 ^ n := by
  induction n generalizing v with
  | zero => simp [leBytes, leNat, Nat.mod_one]
  | succ n ih =>
    simp only [leBytes, leNat, ih, BitVec.toNat_ofNat]
    rw [show 256 ^ (n + 1) = 256 * 256 ^ n by rw [Nat.pow_succ, Nat.mul_comm], Nat.mod_mul]

/-! ### One byte (R120, R124, R125) -/

/-- A sum without some of its terms, from another start. -/
theorem foldl_xor_start (f : Nat → Byte) (p : Nat → Bool) (l : List Nat) (i d : Byte) :
    l.foldl (fun x b => if p b then x else x ^^^ f b) (i ^^^ d) = l.foldl (fun x b => if p b then x else x ^^^ f b) i ^^^ d := by
  induction l generalizing i with
  | nil => rfl
  | cons k t ih =>
    simp only [List.foldl_cons]
    by_cases h : p k
    · simp only [h, if_true]; exact ih i
    · simp only [h, if_false]
      rw [show i ^^^ d ^^^ f k = (i ^^^ f k) ^^^ d by rw [BitVec.xor_assoc, BitVec.xor_comm d, ← BitVec.xor_assoc]]
      exact ih _

/-- A sum without some of its terms, of terms that are the same. -/
theorem foldl_xor_congr (f g : Nat → Byte) (p : Nat → Bool) (l : List Nat) (i : Byte) (h : ∀ b ∈ l, p b = false → f b = g b) :
    l.foldl (fun x b => if p b then x else x ^^^ f b) i = l.foldl (fun x b => if p b then x else x ^^^ g b) i := by
  induction l generalizing i with
  | nil => rfl
  | cons k t ih =>
    simp only [List.foldl_cons]
    by_cases hk : p k
    · simp only [hk, if_true]; exact ih i fun b hb => h b (by simp [hb])
    · simp only [hk, if_false, h k (by simp) (by simpa using hk)]; exact ih _ fun b hb => h b (by simp [hb])

/-- A sum without some of its terms, of terms that differ at one that is in it. -/
theorem foldl_xor_one (f g : Nat → Byte) (p : Nat → Bool) (k : Nat) (l : List Nat) (i : Byte) (hl : l.Nodup) (hk : k ∈ l) (hc : p k = false)
    (h : ∀ b ∈ l, b ≠ k → f b = g b) :
    l.foldl (fun x b => if p b then x else x ^^^ g b) i = l.foldl (fun x b => if p b then x else x ^^^ f b) i ^^^ (f k ^^^ g k) := by
  induction l generalizing i with
  | nil => simp at hk
  | cons a t ih =>
    rw [List.nodup_cons] at hl
    simp only [List.foldl_cons]
    by_cases hak : a = k
    · subst hak
      simp only [hc, Bool.false_eq_true, if_false]
      rw [← foldl_xor_start, foldl_xor_congr g f p t _ fun b hb _ => (h b (by simp [hb]) fun e => hl.1 (e ▸ hb)).symm]
      congr 1
      rw [BitVec.xor_assoc, ← BitVec.xor_assoc (f a), BitVec.xor_self, BitVec.zero_xor]
    · have ht : k ∈ t := by simpa [Ne.symm hak] using hk
      by_cases hac : p a
      · simp only [hac, if_true]; exact ih i hl.2 ht fun b hb => h b (by simp [hb])
      · simp only [hac, if_false, h a (by simp) hak]; exact ih _ hl.2 ht fun b hb => h b (by simp [hb])

/-! ### GF(2⁸) (R124) -/

theorem byte_xor_zero (x : Byte) : x ^^^ (0 : Byte) = x := BitVec.xor_zero
theorem gfDouble_xor (x y : Byte) : gfDouble (x ^^^ y) = gfDouble x ^^^ gfDouble y := by
  unfold gfDouble
  rw [BitVec.shiftLeft_xor_distrib, BitVec.msb_xor]
  generalize x <<< 1 = u; generalize y <<< 1 = v
  cases x.msb <;> cases y.msb <;>
    simp only [Bool.xor_false, Bool.xor_true, Bool.not_false, Bool.not_true, if_true, if_false, Bool.false_eq_true, byte_xor_zero]
  · ac_rfl
  · ac_rfl
  · rw [show u ^^^ 29 ^^^ (v ^^^ 29) = u ^^^ v ^^^ (29 ^^^ 29) by ac_rfl, BitVec.xor_self]; exact (byte_xor_zero _).symm
theorem gfMul_xor (b : Nat) (x y : Byte) : gfMul b (x ^^^ y) = gfMul b x ^^^ gfMul b y := by
  induction b generalizing x y with
  | zero => rfl
  | succ b ih => simp only [gfMul, gfDouble_xor, ih]
theorem gfMul_zero (b : Nat) : gfMul b 0 = 0 := by have := gfMul_xor b 0 0; simpa using this
theorem gfMul_add (a k : Nat) (x : Byte) : gfMul (a + k) x = gfMul a (gfMul k x) := by
  induction k generalizing x with
  | zero => rfl
  | succ k ih => exact ih (gfDouble x)
theorem gfDouble_zero : ∀ x : Byte, gfDouble x = 0 → x = 0 := by decide
theorem gfMul_inj (a : Nat) : ∀ x : Byte, gfMul a x = 0 → x = 0 := by
  induction a with
  | zero => exact fun _ h => h
  | succ a ih => exact fun x h => gfDouble_zero x (ih _ h)
/-- No byte but zero is αᵏ times itself, 0 < k < 16. -/
theorem gfMul_fix : ∀ k : Fin 15, ∀ x : Byte, x ^^^ gfMul (k + 1) x = 0 → x = 0 := by decide
/-- Two erasures are told apart (R124). -/
theorem gfMul_apart {a b : Nat} (h : a < b) (hb : b < 16) (x : Byte) (e : gfMul a x ^^^ gfMul b x = 0) : x = 0 := by
  obtain ⟨k, rfl⟩ : ∃ k, b = a + (k + 1) := ⟨b - a - 1, by omega⟩
  rw [gfMul_add, ← gfMul_xor] at e
  exact gfMul_fix ⟨k, by omega⟩ x (gfMul_inj a _ e)

/-- A list without repeats inside one no longer is all of it. -/
theorem subset_of_nodup {l m : List Byte} (hl : l.Nodup) (h : ∀ x ∈ l, x ∈ m) (hn : m.length ≤ l.length) : ∀ x ∈ m, x ∈ l := by
  induction l generalizing m with
  | nil => intro x hx; have : m = [] := List.eq_nil_of_length_eq_zero (by simpa using hn); simp [this] at hx
  | cons a t ih =>
    rw [List.nodup_cons] at hl
    have hm : a ∈ m := h a (by simp)
    intro x hx
    by_cases hxa : x = a
    · simp [hxa]
    · refine List.mem_cons_of_mem _ (ih (m := m.erase a) hl.2 (fun y hy => ?_) ?_ x ((List.mem_erase_of_ne hxa).mpr hx))
      · exact (List.mem_erase_of_ne fun e : y = a => hl.1 (e ▸ hy)).mpr (h y (by simp [hy]))
      · rw [List.length_erase_of_mem hm]; simp at hn; omega

/-- All bytes. -/
theorem bytes_all (x : Byte) : x ∈ (List.range 256).map fun k => BitVec.ofNat 8 k :=
  List.mem_map.mpr ⟨x.toNat, by simpa using x.isLt, by simp⟩
theorem bytes_nodup : ((List.range 256).map fun k => BitVec.ofNat 8 k).Nodup := by
  refine List.Pairwise.map _ ?_ (List.Pairwise.and_mem.mp List.nodup_range)
  rintro i j ⟨hi, hj, hij⟩ e
  have := congrArg BitVec.toNat e
  simp at hi hj this; omega

/-- The byte of the higher of two erasures is the one that P and Q allow (R124). -/
theorem solveB_eq {a b : Nat} (h : a < b) (hb : b < 16) (p q x : Byte) : solveB a b p q = x ↔ gfMul a (p ^^^ x) ^^^ gfMul b x = q := by
  let f : Byte → Byte := fun x => gfMul a (p ^^^ x) ^^^ gfMul b x
  have inj : Function.Injective f := fun x y e => by
    have e : gfMul a (p ^^^ x) ^^^ gfMul b x = gfMul a (p ^^^ y) ^^^ gfMul b y := e
    have z : gfMul a (x ^^^ y) ^^^ gfMul b (x ^^^ y) = 0 := by
      simp only [gfMul_xor] at e ⊢
      have : gfMul a x ^^^ gfMul b x = gfMul a y ^^^ gfMul b y := by
        have := congrArg (gfMul a p ^^^ ·) e
        simpa [← BitVec.xor_assoc] using this
      calc gfMul a x ^^^ gfMul a y ^^^ (gfMul b x ^^^ gfMul b y)
          = (gfMul a x ^^^ gfMul b x) ^^^ (gfMul a y ^^^ gfMul b y) := by ac_rfl
        _ = 0 := by rw [this, BitVec.xor_self]; rfl
    have := gfMul_apart h hb _ z
    exact BitVec.xor_eq_zero_iff.mp this
  have hq := subset_of_nodup (l := ((List.range 256).map fun k => BitVec.ofNat 8 k).map f) (List.Pairwise.map f (fun _ _ hn e => hn (inj e)) bytes_nodup)
    (fun x _ => bytes_all x) (by simp) q (bytes_all q)
  obtain ⟨y, -, hy⟩ := List.mem_map.mp hq
  have fnd : solveB a b p q = y := by
    unfold solveB
    cases hf : ((List.range 256).map fun k => BitVec.ofNat 8 k).find? (fun x => gfMul a (p ^^^ x) ^^^ gfMul b x == q) with
    | none => rw [List.find?_eq_none] at hf; exact absurd (by simpa using hy) (hf y (bytes_all y))
    | some z => exact inj ((by simpa using List.find?_some hf : f z = q).trans hy.symm)
  rw [fnd]
  exact ⟨fun e => e ▸ hy, fun e => inj (hy.trans e.symm)⟩

theorem rowByte_same {a b : Nat} (h : b < 16) : rowByte a b / 1024 = a / 1024 ∧ rowByte a b % 64 = a % 64 ∧ spadBank (rowByte a b) = b := by
  unfold rowByte spadBank; omega
theorem rowByte_back {a loc : Nat} (h : loc / 1024 = a / 1024) (h' : loc % 64 = a % 64) : rowByte a (spadBank loc) = loc := by
  unfold rowByte spadBank; omega
theorem isSpad_row {a b : Nat} (h : a / 1024 = b / 1024) : isSpad a = isSpad b := by unfold isSpad; congr 1; ext; omega
theorem spadCk_row {a b : Nat} (h : a / 1024 = b / 1024) : spadCk a = spadCk b := by unfold spadCk; omega

theorem State.erased_putByte (s : State) (loc a : Nat) (x : Byte) : (s.putByte loc x).erased a = s.erased a := rfl

/-- The check bytes after a write (R124). -/
theorem get_addCheck (c : FMap Byte) (loc a : Nat) (d : Byte) :
    FMap.get 0 (addCheck c loc d) (checkKey a) = if checkKey a = checkKey loc then FMap.get 0 c (checkKey loc) ^^^ d else FMap.get 0 c (checkKey a) := by
  unfold addCheck
  simp only [FMap.get_set]
  have : checkKey a ≠ checkKey loc + 1 := by unfold checkKey; omega
  rw [if_neg this]
theorem get_addCheckQ (c : FMap Byte) (loc a : Nat) (d : Byte) :
    FMap.get 0 (addCheck c loc d) (checkKey a + 1) =
      if checkKey a = checkKey loc then FMap.get 0 c (checkKey loc + 1) ^^^ gfMul (spadBank loc) d else FMap.get 0 c (checkKey a + 1) := by
  unfold addCheck
  have : checkKey a + 1 ≠ checkKey loc := by unfold checkKey; omega
  simp only [FMap.get_set, if_neg this]
  by_cases h : checkKey a = checkKey loc
  · simp [h, FMap.get_set]
  · simp [h]

theorem State.rawAt_putByte (s : State) (loc a : Nat) (x : Byte) :
    (s.putByte loc x).rawAt a = if a = loc ∧ s.erased loc = false then x else s.rawAt a := by
  unfold State.rawAt State.putByte
  cases h : s.erased loc
  · simp [FMap.get_set]
  · simp

/-- The erasures of a cluster are none, one, or two in rising order. -/
theorem State.erasures_form (s : State) (ck : Nat) :
    s.erasures ck = [] ∨ (∃ a, s.erasures ck = [a]) ∨ ∃ a b, a < b ∧ b < 16 ∧ s.erasures ck = [a, b] := by
  unfold State.erasures
  split
  · rename_i h
    have hs : ((List.range 16).filter fun b => s.bankOut ck b).Pairwise (· < ·) := List.Pairwise.filter _ List.pairwise_lt_range
    have hm : ∀ b ∈ (List.range 16).filter fun b => s.bankOut ck b, b < 16 := fun b hb => by simpa using (List.mem_filter.mp hb).1
    have hl : ((List.range 16).filter fun b => s.bankOut ck b).length ≤ 2 := by
      refine Nat.le_trans ?_ h
      unfold State.banksOut
      rw [show List.range 18 = List.range 16 ++ [16, 17] from rfl]
      simp only [List.filter_append, List.length_append]; omega
    generalize ((List.range 16).filter fun b => s.bankOut ck b) = l at hs hm hl
    match l, hl with
    | [], _ => exact .inl rfl
    | [a], _ => exact .inr (.inl ⟨a, rfl⟩)
    | [a, b], _ => exact .inr (.inr ⟨a, b, by simpa using hs, hm b (by simp), rfl⟩)
    | _ :: _ :: _ :: _, hl => simp at hl
  · exact .inl rfl

theorem State.erased_row (s : State) {loc a : Nat} (h : loc / 1024 = a / 1024) (ha : isSpad a = true) :
    s.erased loc = (s.erasures (spadCk a)).contains (spadBank loc) := by
  unfold State.erased; rw [isSpad_row h, ha, spadCk_row h]; rfl

/-- What the check bytes leave for erasures after a byte is written: the same for another row or a byte that is no erasure, its change else (R124). -/
theorem State.left_putByte (s : State) (loc a : Nat) (x : Byte) (ha : isSpad a = true) :
    let gone := s.erasures (spadCk a)
    let d := if loc / 1024 = a / 1024 ∧ loc % 64 = a % 64 ∧ s.erased loc = true then s.byteAt loc ^^^ x else 0
    (s.putByte loc x).leftP gone a = s.leftP gone a ^^^ d ∧ (s.putByte loc x).leftQ gone a = s.leftQ gone a ^^^ gfMul (spadBank loc) d := by
  intro gone d
  by_cases hrow : loc / 1024 = a / 1024 ∧ loc % 64 = a % 64
  · have hl : isSpad loc = true := (isSpad_row hrow.1).trans ha
    have hk : checkKey a = checkKey loc := by unfold checkKey; omega
    have hc : FMap.get 0 (s.putByte loc x).check (checkKey a) = FMap.get 0 s.check (checkKey a) ^^^ (s.byteAt loc ^^^ x) := by
      show FMap.get 0 (if isSpad loc then _ else _) _ = _
      rw [hl, if_pos rfl, get_addCheck, if_pos hk, hk]
    have hq : FMap.get 0 (s.putByte loc x).check (checkKey a + 1) = FMap.get 0 s.check (checkKey a + 1) ^^^ gfMul (spadBank loc) (s.byteAt loc ^^^ x) := by
      show FMap.get 0 (if isSpad loc then _ else _) _ = _
      rw [hl, if_pos rfl, get_addCheckQ, if_pos hk, hk]
    unfold State.leftP State.leftQ sumBut
    rw [hc, hq, foldl_xor_start, foldl_xor_start]
    by_cases he : s.erased loc = true
    · have hd : d = s.byteAt loc ^^^ x := if_pos ⟨hrow.1, hrow.2, he⟩
      have raw : ∀ b, (s.putByte loc x).rawAt (rowByte a b) = s.rawAt (rowByte a b) := fun b => by rw [State.rawAt_putByte, if_neg (by simp [he])]
      simp only [hd, raw, and_self]
    · have hd : d = 0 := if_neg fun h => he h.2.2
      have hg : gone.contains (spadBank loc) = false := by rw [← s.erased_row hrow.1 ha]; simpa using he
      have hm : spadBank loc ∈ List.range 16 := by unfold spadBank; simp; omega
      have hr : ∀ b ∈ List.range 16, b ≠ spadBank loc → s.rawAt (rowByte a b) = (s.putByte loc x).rawAt (rowByte a b) := fun b hm hb => by
        rw [State.rawAt_putByte, if_neg]; rintro ⟨h, -⟩; exact hb (by rw [← h]; exact (rowByte_same (by simpa using hm)).2.2.symm)
      have hw : (s.putByte loc x).rawAt (rowByte a (spadBank loc)) = x := by
        rw [State.rawAt_putByte, rowByte_back hrow.1 hrow.2, if_pos ⟨rfl, by simpa using he⟩]
      have ho : s.byteAt loc = s.rawAt (rowByte a (spadBank loc)) := by
        unfold State.byteAt; rw [rowByte_back hrow.1 hrow.2, if_neg he]
      rw [foldl_xor_one (fun b => s.rawAt (rowByte a b)) (fun b => (s.putByte loc x).rawAt (rowByte a b)) _ _ _ _ List.nodup_range hm hg hr,
        foldl_xor_one (fun b => gfMul b (s.rawAt (rowByte a b))) (fun b => gfMul b ((s.putByte loc x).rawAt (rowByte a b))) _ _ _ _ List.nodup_range hm hg
          fun b hm hb => congrArg (gfMul b) (hr b hm hb)]
      have e : s.byteAt loc ^^^ (x ^^^ (s.byteAt loc ^^^ x)) = 0 := by rw [← BitVec.xor_assoc]; exact BitVec.xor_self
      simp only [hw, ← ho, hd, gfMul_zero, byte_xor_zero, ← gfMul_xor, BitVec.xor_assoc, e, and_self]
  · have hd : d = 0 := if_neg fun h => hrow ⟨h.1, h.2.1⟩
    have hk : checkKey a ≠ checkKey loc := by unfold checkKey; omega
    have hc : FMap.get 0 (s.putByte loc x).check (checkKey a) = FMap.get 0 s.check (checkKey a) := by
      show FMap.get 0 (if isSpad loc then _ else _) _ = _
      split
      · rw [get_addCheck, if_neg hk]
      · rfl
    have hq : FMap.get 0 (s.putByte loc x).check (checkKey a + 1) = FMap.get 0 s.check (checkKey a + 1) := by
      show FMap.get 0 (if isSpad loc then _ else _) _ = _
      split
      · rw [get_addCheckQ, if_neg hk]
      · rfl
    have hr : ∀ b ∈ List.range 16, (s.putByte loc x).rawAt (rowByte a b) = s.rawAt (rowByte a b) := fun b hm => by
      rw [State.rawAt_putByte, if_neg]
      rintro ⟨h, -⟩
      have := rowByte_same (a := a) (b := b) (by simpa using hm)
      exact hrow (by rw [← h]; exact ⟨this.1, this.2.1⟩)
    unfold State.leftP State.leftQ sumBut
    rw [hc, hq, hd, gfMul_zero, byte_xor_zero, byte_xor_zero]
    exact ⟨foldl_xor_congr _ _ _ _ _ fun b hm _ => hr b hm, foldl_xor_congr _ _ _ _ _ fun b hm _ => congrArg (gfMul b) (hr b hm)⟩

/-- What a byte that is an erasure is rebuilt to after another byte is written, or it itself (R125). -/
theorem State.rebuilt_putByte (s : State) (loc a : Nat) (x : Byte) (ha : s.erased a = true) :
    (s.putByte loc x).rebuilt a = if a = loc then x else s.rebuilt a := by
  have hs : isSpad a = true := by unfold State.erased at ha; simp at ha; exact ha.1
  have hga : (s.erasures (spadCk a)).contains (spadBank a) = true := by rw [← s.erased_row rfl hs]; exact ha
  have hb : a = loc → s.byteAt loc = s.rebuilt a := fun h => by subst h; unfold State.byteAt; rw [if_pos ha]
  have hrow : loc / 1024 = a / 1024 → loc % 64 = a % 64 → spadBank loc = spadBank a → a = loc := fun h1 h2 h3 => by unfold spadBank at h3; omega
  have hel : ∀ h : loc / 1024 = a / 1024, s.erased loc = (s.erasures (spadCk a)).contains (spadBank loc) := fun h => s.erased_row h hs
  obtain ⟨hp, hq⟩ := s.left_putByte loc a x hs
  have hg' : (s.putByte loc x).erasures (spadCk a) = s.erasures (spadCk a) := rfl
  rcases s.erasures_form (spadCk a) with hg | ⟨g, hg⟩ | ⟨g, h, hgh, hh, hg⟩
  · simp [hg] at hga
  · simp only [hg, List.contains_cons, List.contains_nil, Bool.or_false, beq_iff_eq] at hga hel hp
    simp only [State.rebuilt, hg', hg] at hb ⊢
    rw [hp]
    by_cases hal : a = loc
    · rw [if_pos hal, if_pos ⟨by rw [hal], by rw [hal], by rw [← hal]; exact ha⟩, hb hal, ← BitVec.xor_assoc, BitVec.xor_self, BitVec.zero_xor]
    · rw [if_neg hal, if_neg, byte_xor_zero]
      rintro ⟨h1, h2, h3⟩
      rw [hel h1, beq_iff_eq] at h3
      exact hal (hrow h1 h2 (h3.trans hga.symm))
  · simp only [hg, List.contains_cons, List.contains_nil, Bool.or_false, Bool.or_eq_true, beq_iff_eq] at hga hel hp hq
    simp only [State.rebuilt, hg', hg] at hb ⊢
    rw [hp, hq]
    obtain ⟨P, eP⟩ : ∃ P, s.leftP [g, h] a = P := ⟨_, rfl⟩
    obtain ⟨Q, eQ⟩ : ∃ Q, s.leftQ [g, h] a = Q := ⟨_, rfl⟩
    rw [eP, eQ] at hb ⊢
    obtain ⟨B, hB⟩ : ∃ B, solveB g h P Q = B := ⟨_, rfl⟩
    have eB := (solveB_eq hgh hh P Q B).mp hB
    rw [hB] at hb ⊢
    by_cases he : loc / 1024 = a / 1024 ∧ loc % 64 = a % 64 ∧ s.erased loc = true
    · simp only [if_pos he]
      have hl : spadBank loc = g ∨ spadBank loc = h := by have := he.2.2; rw [hel he.1] at this; simpa using this
      have old : s.byteAt loc = if spadBank loc = h then B else P ^^^ B := by
        have hl' : (s.erasures (spadCk loc)) = [g, h] := by rw [spadCk_row he.1]; exact hg
        have hP : s.leftP [g, h] loc = s.leftP [g, h] a := by
          unfold State.leftP rowByte checkKey; rw [he.1, he.2.1]
        have hQ : s.leftQ [g, h] loc = s.leftQ [g, h] a := by
          unfold State.leftQ rowByte checkKey; rw [he.1, he.2.1]
        have h' : (s.erasures (spadCk loc)) = [g, h] ∧ s.leftP [g, h] loc = P ∧ s.leftQ [g, h] loc = Q := ⟨hl', hP.trans eP, hQ.trans eQ⟩
        unfold State.byteAt
        rw [if_pos he.2.2]
        simp only [State.rebuilt, h'.1, h'.2.1, h'.2.2, hB]
      by_cases hlh : spadBank loc = h
      · rw [if_pos hlh] at old
        have new : solveB g h (P ^^^ (s.byteAt loc ^^^ x)) (Q ^^^ gfMul (spadBank loc) (s.byteAt loc ^^^ x)) = x := by
          rw [solveB_eq hgh hh, old, hlh, ← eB, gfMul_xor h B x, show P ^^^ (B ^^^ x) ^^^ x = P ^^^ B ^^^ (x ^^^ x) by ac_rfl, BitVec.xor_self,
            show gfMul g (P ^^^ B) ^^^ gfMul h B ^^^ (gfMul h B ^^^ gfMul h x) = gfMul g (P ^^^ B) ^^^ gfMul h x ^^^ (gfMul h B ^^^ gfMul h B) by ac_rfl,
            BitVec.xor_self]
          exact (congrArg (gfMul g · ^^^ _) (byte_xor_zero _)).trans (byte_xor_zero _).symm
        rw [new]
        rcases hga with ha' | ha'
        · rw [if_neg (by omega), if_neg fun e : a = loc => by rw [e] at ha'; omega, if_neg (by omega), old, show P ^^^ (B ^^^ x) ^^^ x = P ^^^ B ^^^ (x ^^^ x) by ac_rfl, BitVec.xor_self]
          exact byte_xor_zero _
        · rw [if_pos ha', if_pos (hrow he.1 he.2.1 (hlh.trans ha'.symm))]
      · have hlg : spadBank loc = g := hl.resolve_right hlh
        rw [if_neg hlh] at old
        have new : solveB g h (P ^^^ (s.byteAt loc ^^^ x)) (Q ^^^ gfMul (spadBank loc) (s.byteAt loc ^^^ x)) = B := by
          rw [solveB_eq hgh hh, hlg, ← eB, show P ^^^ (s.byteAt loc ^^^ x) ^^^ B = P ^^^ B ^^^ (s.byteAt loc ^^^ x) by ac_rfl, gfMul_xor g (P ^^^ B)]
          ac_rfl
        rw [new]
        rcases hga with ha' | ha'
        · rw [if_neg (by omega), if_pos (hrow he.1 he.2.1 (hlg.trans ha'.symm)), old,
            show P ^^^ (P ^^^ B ^^^ x) ^^^ B = x ^^^ (P ^^^ P) ^^^ (B ^^^ B) by ac_rfl, BitVec.xor_self, BitVec.xor_self]
          exact (byte_xor_zero _).trans (byte_xor_zero _)
        · rw [if_pos ha', if_neg fun e : a = loc => by rw [e] at ha'; omega, if_pos ha']
    · have hal : a ≠ loc := by rintro rfl; exact he ⟨rfl, rfl, ha⟩
      simp only [if_neg he, gfMul_zero, byte_xor_zero, hB, if_neg hal]

/-- A byte after another is written, an erasure among them (R120, R125). -/
theorem State.byteAt_putByte (s : State) (loc a : Nat) (x : Byte) : (s.putByte loc x).byteAt a = if a = loc then x else s.byteAt a := by
  unfold State.byteAt
  rw [State.erased_putByte]
  cases h : s.erased a
  · simp only [Bool.false_eq_true, if_false, State.rawAt_putByte]
    by_cases hal : a = loc
    · subst hal; simp [h]
    · simp [hal]
  · simp only [if_true, State.rebuilt_putByte s loc a x h]

/-- What a byte reads as after bytes are written at a place. -/
theorem State.byteAt_putBytes (s : State) (loc a : Nat) (bs : List Byte) :
    (s.putBytes loc bs).byteAt a = if loc ≤ a ∧ a < loc + bs.length then bs.getD (a - loc) 0 else s.byteAt a := by
  induction bs generalizing s loc with
  | nil => rw [if_neg (by simp only [List.length_nil]; omega)]; rfl
  | cons x t ih =>
    rw [State.putBytes, ih, State.byteAt_putByte]
    by_cases h : a = loc
    · subst h
      rw [if_neg (by omega), if_pos rfl, if_pos (by simp)]; simp
    · by_cases h' : loc + 1 ≤ a ∧ a < loc + 1 + t.length
      · rw [if_pos h', if_pos (by simp; omega)]
        obtain ⟨k, rfl⟩ : ∃ k, a = loc + 1 + k := ⟨a - (loc + 1), by omega⟩
        rw [show loc + 1 + k - loc = k + 1 by omega, show loc + 1 + k - (loc + 1) = k by omega]; rfl
      · rw [if_neg h', if_neg h, if_neg (by simp; omega)]

theorem State.mem_wf_putByte (s : State) (loc : Nat) (x : Byte) (h : FMap.wf 0#8 s.mem = true) : FMap.wf 0#8 (s.putByte loc x).mem = true := by
  show FMap.wf 0#8 (if s.erased loc then s.mem else _) = true
  split
  · exact h
  · exact FMap.wf_set _ _ _ _ h

theorem State.mem_wf_putBytes (s : State) (loc : Nat) (bs : List Byte) (h : FMap.wf 0#8 s.mem = true) : FMap.wf 0#8 (s.putBytes loc bs).mem = true := by
  induction bs generalizing s loc with
  | nil => exact h
  | cons x t ih => exact ih _ _ (State.mem_wf_putByte s loc x h)

/-- A byte after a write at its storage. -/
theorem State.byteAt_poke (s : State) (loc a : Nat) (bs : List Byte) (p : Bool) :
    (s.poke loc bs p).byteAt a = if loc ≤ a ∧ a < loc + bs.length then bs.getD (a - loc) 0 else s.byteAt a := s.byteAt_putBytes loc a bs

/-- A byte outside a write reads as before. -/
theorem State.byteAt_poke_out (s : State) (loc a : Nat) (bs : List Byte) (p : Bool) (h : a < loc ∨ loc + bs.length ≤ a) :
    (s.poke loc bs p).byteAt a = s.byteAt a := by
  rw [State.byteAt_poke, if_neg (by omega)]

/-- A write at its storage keeps memory canonical. -/
theorem State.mem_wf_poke (s : State) (loc : Nat) (bs : List Byte) (p : Bool) (h : FMap.wf 0#8 s.mem = true) : FMap.wf 0#8 (s.poke loc bs p).mem = true :=
  s.mem_wf_putBytes loc bs h

/-- The merge of a line keeps memory canonical. -/
theorem State.mem_wf_mergeLine (s : State) (loc : Nat) (h : FMap.wf 0#8 s.mem = true) : FMap.wf 0#8 (s.mergeLine loc).mem = true := by
  unfold State.mergeLine
  split
  · exact h
  · exact State.mem_wf_poke _ _ _ _ h

/-- A line that is in no commutative state is not changed by a merge. -/
theorem State.mergeLine_none (s : State) (loc : Nat) (h : s.comm.find? (fun c => c.loc == lineOf loc) = none) : s.mergeLine loc = s := by
  simp [State.mergeLine, h]

end Machine
end Sys2Proof
end

