-- ==== Sys2Proof/Laws/PerInstr.lean ====
section
/-! SUPPORT. Statements made of every instruction, one lemma for each constructor (LAWS.json, family Kinds). -/

namespace Sys2Proof.Laws.Kinds

/-- Every instruction is of exactly one kind: it has a word of a handler core, a TCW, or it is an event; a reserved encoding is a word that
names none. -/
def Statement (i : Instr) : Prop :=
  (encode i).isSome.toNat + (Machine.tcwBody i).isSome.toNat + (Machine.isEvent i).toNat = (match i with | .reservedEncoding _ => 0 | _ => 1)

theorem lui : ∀ a0 a1, Statement (.lui a0 a1) := fun _ _ => rfl
theorem auipc : ∀ a0 a1, Statement (.auipc a0 a1) := fun _ _ => rfl
theorem jal : ∀ a0 a1, Statement (.jal a0 a1) := fun _ _ => rfl
theorem jalr : ∀ a0 a1 a2, Statement (.jalr a0 a1 a2) := fun _ _ _ => rfl
theorem beq : ∀ a0 a1 a2, Statement (.beq a0 a1 a2) := fun _ _ _ => rfl
theorem bne : ∀ a0 a1 a2, Statement (.bne a0 a1 a2) := fun _ _ _ => rfl
theorem blt : ∀ a0 a1 a2, Statement (.blt a0 a1 a2) := fun _ _ _ => rfl
theorem bge : ∀ a0 a1 a2, Statement (.bge a0 a1 a2) := fun _ _ _ => rfl
theorem bltu : ∀ a0 a1 a2, Statement (.bltu a0 a1 a2) := fun _ _ _ => rfl
theorem bgeu : ∀ a0 a1 a2, Statement (.bgeu a0 a1 a2) := fun _ _ _ => rfl
theorem lb : ∀ a0 a1 a2, Statement (.lb a0 a1 a2) := fun _ _ _ => rfl
theorem lh : ∀ a0 a1 a2, Statement (.lh a0 a1 a2) := fun _ _ _ => rfl
theorem lw : ∀ a0 a1 a2, Statement (.lw a0 a1 a2) := fun _ _ _ => rfl
theorem ld : ∀ a0 a1 a2, Statement (.ld a0 a1 a2) := fun _ _ _ => rfl
theorem lbu : ∀ a0 a1 a2, Statement (.lbu a0 a1 a2) := fun _ _ _ => rfl
theorem lhu : ∀ a0 a1 a2, Statement (.lhu a0 a1 a2) := fun _ _ _ => rfl
theorem lwu : ∀ a0 a1 a2, Statement (.lwu a0 a1 a2) := fun _ _ _ => rfl
theorem sb : ∀ a0 a1 a2, Statement (.sb a0 a1 a2) := fun _ _ _ => rfl
theorem sh : ∀ a0 a1 a2, Statement (.sh a0 a1 a2) := fun _ _ _ => rfl
theorem sw : ∀ a0 a1 a2, Statement (.sw a0 a1 a2) := fun _ _ _ => rfl
theorem sd : ∀ a0 a1 a2, Statement (.sd a0 a1 a2) := fun _ _ _ => rfl
theorem addi : ∀ a0 a1 a2, Statement (.addi a0 a1 a2) := fun _ _ _ => rfl
theorem slti : ∀ a0 a1 a2, Statement (.slti a0 a1 a2) := fun _ _ _ => rfl
theorem sltiu : ∀ a0 a1 a2, Statement (.sltiu a0 a1 a2) := fun _ _ _ => rfl
theorem xori : ∀ a0 a1 a2, Statement (.xori a0 a1 a2) := fun _ _ _ => rfl
theorem ori : ∀ a0 a1 a2, Statement (.ori a0 a1 a2) := fun _ _ _ => rfl
theorem andi : ∀ a0 a1 a2, Statement (.andi a0 a1 a2) := fun _ _ _ => rfl
theorem slli : ∀ a0 a1 a2, Statement (.slli a0 a1 a2) := fun _ _ _ => rfl
theorem srli : ∀ a0 a1 a2, Statement (.srli a0 a1 a2) := fun _ _ _ => rfl
theorem srai : ∀ a0 a1 a2, Statement (.srai a0 a1 a2) := fun _ _ _ => rfl
theorem add : ∀ a0 a1 a2, Statement (.add a0 a1 a2) := fun _ _ _ => rfl
theorem sub : ∀ a0 a1 a2, Statement (.sub a0 a1 a2) := fun _ _ _ => rfl
theorem sll : ∀ a0 a1 a2, Statement (.sll a0 a1 a2) := fun _ _ _ => rfl
theorem slt : ∀ a0 a1 a2, Statement (.slt a0 a1 a2) := fun _ _ _ => rfl
theorem sltu : ∀ a0 a1 a2, Statement (.sltu a0 a1 a2) := fun _ _ _ => rfl
theorem xor : ∀ a0 a1 a2, Statement (.xor a0 a1 a2) := fun _ _ _ => rfl
theorem srl : ∀ a0 a1 a2, Statement (.srl a0 a1 a2) := fun _ _ _ => rfl
theorem sra : ∀ a0 a1 a2, Statement (.sra a0 a1 a2) := fun _ _ _ => rfl
theorem or_ : ∀ a0 a1 a2, Statement (.or_ a0 a1 a2) := fun _ _ _ => rfl
theorem and_ : ∀ a0 a1 a2, Statement (.and_ a0 a1 a2) := fun _ _ _ => rfl
theorem mul : ∀ a0 a1 a2, Statement (.mul a0 a1 a2) := fun _ _ _ => rfl
theorem mulh : ∀ a0 a1 a2, Statement (.mulh a0 a1 a2) := fun _ _ _ => rfl
theorem mulhsu : ∀ a0 a1 a2, Statement (.mulhsu a0 a1 a2) := fun _ _ _ => rfl
theorem mulhu : ∀ a0 a1 a2, Statement (.mulhu a0 a1 a2) := fun _ _ _ => rfl
theorem div : ∀ a0 a1 a2, Statement (.div a0 a1 a2) := fun _ _ _ => rfl
theorem divu : ∀ a0 a1 a2, Statement (.divu a0 a1 a2) := fun _ _ _ => rfl
theorem rem : ∀ a0 a1 a2, Statement (.rem a0 a1 a2) := fun _ _ _ => rfl
theorem remu : ∀ a0 a1 a2, Statement (.remu a0 a1 a2) := fun _ _ _ => rfl
theorem addiw : ∀ a0 a1 a2, Statement (.addiw a0 a1 a2) := fun _ _ _ => rfl
theorem slliw : ∀ a0 a1 a2, Statement (.slliw a0 a1 a2) := fun _ _ _ => rfl
theorem srliw : ∀ a0 a1 a2, Statement (.srliw a0 a1 a2) := fun _ _ _ => rfl
theorem sraiw : ∀ a0 a1 a2, Statement (.sraiw a0 a1 a2) := fun _ _ _ => rfl
theorem addw : ∀ a0 a1 a2, Statement (.addw a0 a1 a2) := fun _ _ _ => rfl
theorem subw : ∀ a0 a1 a2, Statement (.subw a0 a1 a2) := fun _ _ _ => rfl
theorem sllw : ∀ a0 a1 a2, Statement (.sllw a0 a1 a2) := fun _ _ _ => rfl
theorem srlw : ∀ a0 a1 a2, Statement (.srlw a0 a1 a2) := fun _ _ _ => rfl
theorem sraw : ∀ a0 a1 a2, Statement (.sraw a0 a1 a2) := fun _ _ _ => rfl
theorem mulw : ∀ a0 a1 a2, Statement (.mulw a0 a1 a2) := fun _ _ _ => rfl
theorem divw : ∀ a0 a1 a2, Statement (.divw a0 a1 a2) := fun _ _ _ => rfl
theorem divuw : ∀ a0 a1 a2, Statement (.divuw a0 a1 a2) := fun _ _ _ => rfl
theorem remw : ∀ a0 a1 a2, Statement (.remw a0 a1 a2) := fun _ _ _ => rfl
theorem remuw : ∀ a0 a1 a2, Statement (.remuw a0 a1 a2) := fun _ _ _ => rfl
theorem fence : ∀ a0, Statement (.fence a0) := fun _ => rfl
theorem ecall : Statement (.ecall) := rfl
theorem ebreak : Statement (.ebreak) := rfl
theorem wfi : Statement (.wfi) := rfl
theorem csrrw : ∀ a0 a1 a2, Statement (.csrrw a0 a1 a2) := fun _ _ _ => rfl
theorem csrrs : ∀ a0 a1 a2, Statement (.csrrs a0 a1 a2) := fun _ _ _ => rfl
theorem csrrc : ∀ a0 a1 a2, Statement (.csrrc a0 a1 a2) := fun _ _ _ => rfl
theorem csrrwi : ∀ a0 a1 a2, Statement (.csrrwi a0 a1 a2) := fun _ _ _ => rfl
theorem csrrsi : ∀ a0 a1 a2, Statement (.csrrsi a0 a1 a2) := fun _ _ _ => rfl
theorem csrrci : ∀ a0 a1 a2, Statement (.csrrci a0 a1 a2) := fun _ _ _ => rfl
theorem aaddW : ∀ a0 a1 a2 a3 a4, Statement (.aaddW a0 a1 a2 a3 a4) := fun _ _ _ _ _ => rfl
theorem aaddD : ∀ a0 a1 a2 a3 a4, Statement (.aaddD a0 a1 a2 a3 a4) := fun _ _ _ _ _ => rfl
theorem aswapW : ∀ a0 a1 a2 a3 a4, Statement (.aswapW a0 a1 a2 a3 a4) := fun _ _ _ _ _ => rfl
theorem aswapD : ∀ a0 a1 a2 a3 a4, Statement (.aswapD a0 a1 a2 a3 a4) := fun _ _ _ _ _ => rfl
theorem axorW : ∀ a0 a1 a2 a3 a4, Statement (.axorW a0 a1 a2 a3 a4) := fun _ _ _ _ _ => rfl
theorem axorD : ∀ a0 a1 a2 a3 a4, Statement (.axorD a0 a1 a2 a3 a4) := fun _ _ _ _ _ => rfl
theorem acasW : ∀ a0 a1 a2 a3 a4, Statement (.acasW a0 a1 a2 a3 a4) := fun _ _ _ _ _ => rfl
theorem acasD : ∀ a0 a1 a2 a3 a4, Statement (.acasD a0 a1 a2 a3 a4) := fun _ _ _ _ _ => rfl
theorem afaddW : ∀ a0 a1 a2 a3 a4, Statement (.afaddW a0 a1 a2 a3 a4) := fun _ _ _ _ _ => rfl
theorem aorW : ∀ a0 a1 a2 a3 a4, Statement (.aorW a0 a1 a2 a3 a4) := fun _ _ _ _ _ => rfl
theorem aorD : ∀ a0 a1 a2 a3 a4, Statement (.aorD a0 a1 a2 a3 a4) := fun _ _ _ _ _ => rfl
theorem aandW : ∀ a0 a1 a2 a3 a4, Statement (.aandW a0 a1 a2 a3 a4) := fun _ _ _ _ _ => rfl
theorem aandD : ∀ a0 a1 a2 a3 a4, Statement (.aandD a0 a1 a2 a3 a4) := fun _ _ _ _ _ => rfl
theorem aminW : ∀ a0 a1 a2 a3 a4, Statement (.aminW a0 a1 a2 a3 a4) := fun _ _ _ _ _ => rfl
theorem aminD : ∀ a0 a1 a2 a3 a4, Statement (.aminD a0 a1 a2 a3 a4) := fun _ _ _ _ _ => rfl
theorem amaxW : ∀ a0 a1 a2 a3 a4, Statement (.amaxW a0 a1 a2 a3 a4) := fun _ _ _ _ _ => rfl
theorem amaxD : ∀ a0 a1 a2 a3 a4, Statement (.amaxD a0 a1 a2 a3 a4) := fun _ _ _ _ _ => rfl
theorem aminuW : ∀ a0 a1 a2 a3 a4, Statement (.aminuW a0 a1 a2 a3 a4) := fun _ _ _ _ _ => rfl
theorem aminuD : ∀ a0 a1 a2 a3 a4, Statement (.aminuD a0 a1 a2 a3 a4) := fun _ _ _ _ _ => rfl
theorem amaxuW : ∀ a0 a1 a2 a3 a4, Statement (.amaxuW a0 a1 a2 a3 a4) := fun _ _ _ _ _ => rfl
theorem amaxuD : ∀ a0 a1 a2 a3 a4, Statement (.amaxuD a0 a1 a2 a3 a4) := fun _ _ _ _ _ => rfl
theorem endh : Statement (.endh) := rfl
theorem aborth : ∀ a0, Statement (.aborth a0) := fun _ => rfl
theorem masku : Statement (.masku) := rfl
theorem unmasku : Statement (.unmasku) := rfl
theorem yield : Statement (.yield) := rfl
theorem waitc : ∀ a0 a1 a2, Statement (.waitc a0 a1 a2) := fun _ _ _ => rfl
theorem sleep : ∀ a0, Statement (.sleep a0) := fun _ => rfl
theorem dqpush : ∀ a0 a1 a2, Statement (.dqpush a0 a1 a2) := fun _ _ _ => rfl
theorem dqpop : ∀ a0, Statement (.dqpop a0) := fun _ => rfl
theorem dqsplit : ∀ a0, Statement (.dqsplit a0) := fun _ => rfl
theorem dqsteal : ∀ a0 a1, Statement (.dqsteal a0 a1) := fun _ _ => rfl
theorem dqlen : ∀ a0, Statement (.dqlen a0) := fun _ => rfl
theorem send : ∀ a0 a1 a2, Statement (.send a0 a1 a2) := fun _ _ _ => rfl
theorem sendu : ∀ a0 a1 a2, Statement (.sendu a0 a1 a2) := fun _ _ _ => rfl
theorem reply : ∀ a0 a1, Statement (.reply a0 a1) := fun _ _ => rfl
theorem sendv : ∀ a0 a1 a2, Statement (.sendv a0 a1 a2) := fun _ _ _ => rfl
theorem cntadd : ∀ a0 a1, Statement (.cntadd a0 a1) := fun _ _ => rfl
theorem cntset : ∀ a0 a1, Statement (.cntset a0 a1) := fun _ _ => rfl
theorem cntarm : ∀ a0 a1, Statement (.cntarm a0 a1) := fun _ _ => rfl
theorem cntrd : ∀ a0 a1, Statement (.cntrd a0 a1) := fun _ _ => rfl
theorem shape : ∀ a0 a1, Statement (.shape a0 a1) := fun _ _ => rfl
theorem ldg : ∀ a0 a1 a2, Statement (.ldg a0 a1 a2) := fun _ _ _ => rfl
theorem stg : ∀ a0 a1 a2, Statement (.stg a0 a1 a2) := fun _ _ _ => rfl
theorem lda : ∀ a0 a1 a2 a3, Statement (.lda a0 a1 a2 a3) := fun _ _ _ _ => rfl
theorem stl : ∀ a0 a1 a2 a3, Statement (.stl a0 a1 a2 a3) := fun _ _ _ _ => rfl
theorem fenceS : ∀ a0, Statement (.fenceS a0) := fun _ => rfl
theorem xfence : Statement (.xfence) := rfl
theorem publish : ∀ a0 a1 a2, Statement (.publish a0 a1 a2) := fun _ _ _ => rfl
theorem pubwait : ∀ a0 a1 a2, Statement (.pubwait a0 a1 a2) := fun _ _ _ => rfl
theorem cuadd : ∀ a0 a1, Statement (.cuadd a0 a1) := fun _ _ => rfl
theorem cuaddi : ∀ a0 a1, Statement (.cuaddi a0 a1) := fun _ _ => rfl
theorem engq : ∀ a0 a1, Statement (.engq a0 a1) := fun _ _ => rfl
theorem tpost : ∀ a0 a1, Statement (.tpost a0 a1) := fun _ _ => rfl
theorem engst : ∀ a0 a1, Statement (.engst a0 a1) := fun _ _ => rfl
theorem grpst : ∀ a0 a1, Statement (.grpst a0 a1) := fun _ _ => rfl
theorem grpld : ∀ a0 a1, Statement (.grpld a0 a1) := fun _ _ => rfl
theorem trap : ∀ a0, Statement (.trap a0) := fun _ => rfl
theorem tret : Statement (.tret) := rfl
theorem chkerr : ∀ a0 a1, Statement (.chkerr a0 a1) := fun _ _ => rfl
theorem ctxsv : ∀ a0, Statement (.ctxsv a0) := fun _ => rfl
theorem ctxld : ∀ a0, Statement (.ctxld a0) := fun _ => rfl
theorem leaseq : ∀ a0 a1, Statement (.leaseq a0 a1) := fun _ _ => rfl
theorem capack : ∀ a0, Statement (.capack a0) := fun _ => rfl
theorem suspr : ∀ a0 a1 a2, Statement (.suspr a0 a1 a2) := fun _ _ _ => rfl
theorem retrd : ∀ a0 a1 a2, Statement (.retrd a0 a1 a2) := fun _ _ _ => rfl
theorem vcvt : ∀ a0 a1 a2 a3 a4, Statement (.vcvt a0 a1 a2 a3 a4) := fun _ _ _ _ _ => rfl
theorem vqsx : ∀ a0 a1 a2 a3, Statement (.vqsx a0 a1 a2 a3) := fun _ _ _ _ => rfl
theorem vdqsx : ∀ a0 a1 a2 a3, Statement (.vdqsx a0 a1 a2 a3) := fun _ _ _ _ => rfl
theorem vqrow : ∀ a0 a1 a2 a3, Statement (.vqrow a0 a1 a2 a3) := fun _ _ _ _ => rfl
theorem vdqrow : ∀ a0 a1 a2 a3, Statement (.vdqrow a0 a1 a2 a3) := fun _ _ _ _ => rfl
theorem vcvtsr : ∀ a0 a1 a2 a3 a4, Statement (.vcvtsr a0 a1 a2 a3 a4) := fun _ _ _ _ _ => rfl
theorem vaddVV : ∀ a0 a1 a2 a3, Statement (.vaddVV a0 a1 a2 a3) := fun _ _ _ _ => rfl
theorem vaddVX : ∀ a0 a1 a2 a3, Statement (.vaddVX a0 a1 a2 a3) := fun _ _ _ _ => rfl
theorem vaddVI : ∀ a0 a1 a2 a3, Statement (.vaddVI a0 a1 a2 a3) := fun _ _ _ _ => rfl
theorem vsubVV : ∀ a0 a1 a2 a3, Statement (.vsubVV a0 a1 a2 a3) := fun _ _ _ _ => rfl
theorem vsubVX : ∀ a0 a1 a2 a3, Statement (.vsubVX a0 a1 a2 a3) := fun _ _ _ _ => rfl
theorem vsubVI : ∀ a0 a1 a2 a3, Statement (.vsubVI a0 a1 a2 a3) := fun _ _ _ _ => rfl
theorem vmulVV : ∀ a0 a1 a2 a3, Statement (.vmulVV a0 a1 a2 a3) := fun _ _ _ _ => rfl
theorem vmulVX : ∀ a0 a1 a2 a3, Statement (.vmulVX a0 a1 a2 a3) := fun _ _ _ _ => rfl
theorem vmulVI : ∀ a0 a1 a2 a3, Statement (.vmulVI a0 a1 a2 a3) := fun _ _ _ _ => rfl
theorem vfma : ∀ a0 a1 a2 a3, Statement (.vfma a0 a1 a2 a3) := fun _ _ _ _ => rfl
theorem vfms : ∀ a0 a1 a2 a3, Statement (.vfms a0 a1 a2 a3) := fun _ _ _ _ => rfl
theorem vminVV : ∀ a0 a1 a2 a3, Statement (.vminVV a0 a1 a2 a3) := fun _ _ _ _ => rfl
theorem vminVX : ∀ a0 a1 a2 a3, Statement (.vminVX a0 a1 a2 a3) := fun _ _ _ _ => rfl
theorem vminVI : ∀ a0 a1 a2 a3, Statement (.vminVI a0 a1 a2 a3) := fun _ _ _ _ => rfl
theorem vmaxVV : ∀ a0 a1 a2 a3, Statement (.vmaxVV a0 a1 a2 a3) := fun _ _ _ _ => rfl
theorem vmaxVX : ∀ a0 a1 a2 a3, Statement (.vmaxVX a0 a1 a2 a3) := fun _ _ _ _ => rfl
theorem vmaxVI : ∀ a0 a1 a2 a3, Statement (.vmaxVI a0 a1 a2 a3) := fun _ _ _ _ => rfl
theorem vabs : ∀ a0 a1 a2, Statement (.vabs a0 a1 a2) := fun _ _ _ => rfl
theorem vneg : ∀ a0 a1 a2, Statement (.vneg a0 a1 a2) := fun _ _ _ => rfl
theorem vandVV : ∀ a0 a1 a2 a3, Statement (.vandVV a0 a1 a2 a3) := fun _ _ _ _ => rfl
theorem vandVX : ∀ a0 a1 a2 a3, Statement (.vandVX a0 a1 a2 a3) := fun _ _ _ _ => rfl
theorem vandVI : ∀ a0 a1 a2 a3, Statement (.vandVI a0 a1 a2 a3) := fun _ _ _ _ => rfl
theorem vorVV : ∀ a0 a1 a2 a3, Statement (.vorVV a0 a1 a2 a3) := fun _ _ _ _ => rfl
theorem vorVX : ∀ a0 a1 a2 a3, Statement (.vorVX a0 a1 a2 a3) := fun _ _ _ _ => rfl
theorem vorVI : ∀ a0 a1 a2 a3, Statement (.vorVI a0 a1 a2 a3) := fun _ _ _ _ => rfl
theorem vxorVV : ∀ a0 a1 a2 a3, Statement (.vxorVV a0 a1 a2 a3) := fun _ _ _ _ => rfl
theorem vxorVX : ∀ a0 a1 a2 a3, Statement (.vxorVX a0 a1 a2 a3) := fun _ _ _ _ => rfl
theorem vxorVI : ∀ a0 a1 a2 a3, Statement (.vxorVI a0 a1 a2 a3) := fun _ _ _ _ => rfl
theorem vshlVV : ∀ a0 a1 a2 a3, Statement (.vshlVV a0 a1 a2 a3) := fun _ _ _ _ => rfl
theorem vshlVX : ∀ a0 a1 a2 a3, Statement (.vshlVX a0 a1 a2 a3) := fun _ _ _ _ => rfl
theorem vshlVI : ∀ a0 a1 a2 a3, Statement (.vshlVI a0 a1 a2 a3) := fun _ _ _ _ => rfl
theorem vshrVV : ∀ a0 a1 a2 a3, Statement (.vshrVV a0 a1 a2 a3) := fun _ _ _ _ => rfl
theorem vshrVX : ∀ a0 a1 a2 a3, Statement (.vshrVX a0 a1 a2 a3) := fun _ _ _ _ => rfl
theorem vshrVI : ∀ a0 a1 a2 a3, Statement (.vshrVI a0 a1 a2 a3) := fun _ _ _ _ => rfl
theorem vsraVV : ∀ a0 a1 a2 a3, Statement (.vsraVV a0 a1 a2 a3) := fun _ _ _ _ => rfl
theorem vsraVX : ∀ a0 a1 a2 a3, Statement (.vsraVX a0 a1 a2 a3) := fun _ _ _ _ => rfl
theorem vsraVI : ∀ a0 a1 a2 a3, Statement (.vsraVI a0 a1 a2 a3) := fun _ _ _ _ => rfl
theorem vcmpVV : ∀ a0 a1 a2 a3, Statement (.vcmpVV a0 a1 a2 a3) := fun _ _ _ _ => rfl
theorem vcmpVX : ∀ a0 a1 a2 a3, Statement (.vcmpVX a0 a1 a2 a3) := fun _ _ _ _ => rfl
theorem vcmpVI : ∀ a0 a1 a2 a3, Statement (.vcmpVI a0 a1 a2 a3) := fun _ _ _ _ => rfl
theorem vsel : ∀ a0 a1 a2 a3, Statement (.vsel a0 a1 a2 a3) := fun _ _ _ _ => rfl
theorem vperm : ∀ a0 a1 a2 a3, Statement (.vperm a0 a1 a2 a3) := fun _ _ _ _ => rfl
theorem vbcastX : ∀ a0 a1 a2, Statement (.vbcastX a0 a1 a2) := fun _ _ _ => rfl
theorem vbcastI : ∀ a0 a1 a2, Statement (.vbcastI a0 a1 a2) := fun _ _ _ => rfl
theorem vmovx : ∀ a0 a1 a2, Statement (.vmovx a0 a1 a2) := fun _ _ _ => rfl
theorem vredadd : ∀ a0 a1 a2, Statement (.vredadd a0 a1 a2) := fun _ _ _ => rfl
theorem vredmax : ∀ a0 a1 a2, Statement (.vredmax a0 a1 a2) := fun _ _ _ => rfl
theorem vredmin : ∀ a0 a1 a2, Statement (.vredmin a0 a1 a2) := fun _ _ _ => rfl
theorem vexp2 : ∀ a0 a1 a2, Statement (.vexp2 a0 a1 a2) := fun _ _ _ => rfl
theorem vlog2 : ∀ a0 a1 a2, Statement (.vlog2 a0 a1 a2) := fun _ _ _ => rfl
theorem vexp : ∀ a0 a1 a2, Statement (.vexp a0 a1 a2) := fun _ _ _ => rfl
theorem vlog : ∀ a0 a1 a2, Statement (.vlog a0 a1 a2) := fun _ _ _ => rfl
theorem vsin : ∀ a0 a1 a2, Statement (.vsin a0 a1 a2) := fun _ _ _ => rfl
theorem vcos : ∀ a0 a1 a2, Statement (.vcos a0 a1 a2) := fun _ _ _ => rfl
theorem vrcp : ∀ a0 a1 a2, Statement (.vrcp a0 a1 a2) := fun _ _ _ => rfl
theorem vrsqrt : ∀ a0 a1 a2, Statement (.vrsqrt a0 a1 a2) := fun _ _ _ => rfl
theorem vsig : ∀ a0 a1 a2, Statement (.vsig a0 a1 a2) := fun _ _ _ => rfl
theorem vtanh : ∀ a0 a1 a2, Statement (.vtanh a0 a1 a2) := fun _ _ _ => rfl
theorem vtopk : ∀ a0 a1 a2 a3, Statement (.vtopk a0 a1 a2 a3) := fun _ _ _ _ => rfl
theorem vrefill : ∀ a0 a1 a2, Statement (.vrefill a0 a1 a2) := fun _ _ _ => rfl
theorem vld : ∀ a0 a1 a2 a3, Statement (.vld a0 a1 a2 a3) := fun _ _ _ _ => rfl
theorem vst : ∀ a0 a1 a2 a3, Statement (.vst a0 a1 a2 a3) := fun _ _ _ _ => rfl
theorem vlds : ∀ a0 a1 a2 a3, Statement (.vlds a0 a1 a2 a3) := fun _ _ _ _ => rfl
theorem vsts : ∀ a0 a1 a2 a3, Statement (.vsts a0 a1 a2 a3) := fun _ _ _ _ => rfl
theorem vldi : ∀ a0 a1 a2 a3, Statement (.vldi a0 a1 a2 a3) := fun _ _ _ _ => rfl
theorem mma : ∀ a0 a1 a2 a3 a4 a5, Statement (.mma a0 a1 a2 a3 a4 a5) := fun _ _ _ _ _ _ => rfl
theorem cellp : ∀ a0 a1 a2 a3 a4, Statement (.cellp a0 a1 a2 a3 a4) := fun _ _ _ _ _ => rfl
theorem aczero : ∀ a0 a1 a2, Statement (.aczero a0 a1 a2) := fun _ _ _ => rfl
theorem acdrain : ∀ a0 a1 a2 a3 a4 a5, Statement (.acdrain a0 a1 a2 a3 a4 a5) := fun _ _ _ _ _ _ => rfl
theorem acload : ∀ a0 a1 a2 a3, Statement (.acload a0 a1 a2 a3) := fun _ _ _ _ => rfl
theorem accfg : ∀ a0 a1 a2 a3 a4 a5, Statement (.accfg a0 a1 a2 a3 a4 a5) := fun _ _ _ _ _ _ => rfl
theorem acstat : ∀ a0 a1, Statement (.acstat a0 a1) := fun _ _ => rfl
theorem rotCfg : ∀ a0 a1 a2 a3 a4 a5, Statement (.rotCfg a0 a1 a2 a3 a4 a5) := fun _ _ _ _ _ _ => rfl
theorem rotTriStream : ∀ a0, Statement (.rotTriStream a0) := fun _ => rfl
theorem rotTriAuto : ∀ a0 a1 a2, Statement (.rotTriAuto a0 a1 a2) := fun _ _ _ => rfl
theorem rotTriLoad : ∀ a0 a1, Statement (.rotTriLoad a0 a1) := fun _ _ => rfl
theorem rotApply : ∀ a0 a1 a2 a3 a4, Statement (.rotApply a0 a1 a2 a3 a4) := fun _ _ _ _ _ => rfl
theorem rotSolve : ∀ a0 a1, Statement (.rotSolve a0 a1) := fun _ _ => rfl
theorem rotReadFp32 : ∀ a0 a1 a2, Statement (.rotReadFp32 a0 a1 a2) := fun _ _ _ => rfl
theorem rotReadRaw : ∀ a0 a1, Statement (.rotReadRaw a0 a1) := fun _ _ => rfl
theorem rotReadStat : ∀ a0, Statement (.rotReadStat a0) := fun _ => rfl
theorem rotGain : ∀ a0 a1, Statement (.rotGain a0 a1) := fun _ _ => rfl
theorem rotAngToSig32 : ∀ a0 a1 a2, Statement (.rotAngToSig32 a0 a1 a2) := fun _ _ _ => rfl
theorem rotAngToBam32 : ∀ a0 a1 a2, Statement (.rotAngToBam32 a0 a1 a2) := fun _ _ _ => rfl
theorem fload : ∀ a0 a1, Statement (.fload a0 a1) := fun _ _ => rfl
theorem fsel : ∀ a0 a1, Statement (.fsel a0 a1) := fun _ _ => rfl
theorem farg : ∀ a0 a1 a2, Statement (.farg a0 a1 a2) := fun _ _ _ => rfl
theorem fseed : ∀ a0 a1 a2, Statement (.fseed a0 a1 a2) := fun _ _ _ => rfl
theorem fdrain : ∀ a0 a1 a2, Statement (.fdrain a0 a1 a2) := fun _ _ _ => rfl
theorem fstat : ∀ a0 a1, Statement (.fstat a0 a1) := fun _ _ => rfl
theorem pePass : ∀ a0 a1, Statement (.pePass a0 a1) := fun _ _ => rfl
theorem peAdd : ∀ a0 a1, Statement (.peAdd a0 a1) := fun _ _ => rfl
theorem peSub : ∀ a0 a1, Statement (.peSub a0 a1) := fun _ _ => rfl
theorem peMul : ∀ a0 a1, Statement (.peMul a0 a1) := fun _ _ => rfl
theorem peFma : ∀ a0 a1, Statement (.peFma a0 a1) := fun _ _ => rfl
theorem peFms : ∀ a0 a1, Statement (.peFms a0 a1) := fun _ _ => rfl
theorem peMax : ∀ a0 a1, Statement (.peMax a0 a1) := fun _ _ => rfl
theorem peMin : ∀ a0 a1, Statement (.peMin a0 a1) := fun _ _ => rfl
theorem peAbs : ∀ a0 a1, Statement (.peAbs a0 a1) := fun _ _ => rfl
theorem peNeg : ∀ a0 a1, Statement (.peNeg a0 a1) := fun _ _ => rfl
theorem peScale : ∀ a0 a1, Statement (.peScale a0 a1) := fun _ _ => rfl
theorem peRint : ∀ a0 a1, Statement (.peRint a0 a1) := fun _ _ => rfl
theorem peCmp : ∀ a0 a1, Statement (.peCmp a0 a1) := fun _ _ => rfl
theorem peSel : ∀ a0 a1, Statement (.peSel a0 a1) := fun _ _ => rfl
theorem peCvt : ∀ a0 a1, Statement (.peCvt a0 a1) := fun _ _ => rfl
theorem peSteer : ∀ a0 a1, Statement (.peSteer a0 a1) := fun _ _ => rfl
theorem peExp2 : ∀ a0 a1, Statement (.peExp2 a0 a1) := fun _ _ => rfl
theorem peExp : ∀ a0 a1, Statement (.peExp a0 a1) := fun _ _ => rfl
theorem peLog2 : ∀ a0 a1, Statement (.peLog2 a0 a1) := fun _ _ => rfl
theorem peLog : ∀ a0 a1, Statement (.peLog a0 a1) := fun _ _ => rfl
theorem peRcp : ∀ a0 a1, Statement (.peRcp a0 a1) := fun _ _ => rfl
theorem peRsqrt : ∀ a0 a1, Statement (.peRsqrt a0 a1) := fun _ _ => rfl
theorem peSkip : ∀ a0 a1, Statement (.peSkip a0 a1) := fun _ _ => rfl
theorem peDiv : ∀ a0 a1, Statement (.peDiv a0 a1) := fun _ _ => rfl
theorem aguLoadToken : ∀ a0 a1, Statement (.aguLoadToken a0 a1) := fun _ _ => rfl
theorem aguStoreToken : ∀ a0 a1, Statement (.aguStoreToken a0 a1) := fun _ _ => rfl
theorem streamConnect : ∀ a0 a1, Statement (.streamConnect a0 a1) := fun _ _ => rfl
theorem streamSendToken : ∀ a0 a1, Statement (.streamSendToken a0 a1) := fun _ _ => rfl
theorem streamTokenArrival : ∀ a0, Statement (.streamTokenArrival a0) := fun _ => rfl
theorem streamCreditArrival : ∀ a0, Statement (.streamCreditArrival a0) := fun _ => rfl
theorem generatorEmit : ∀ a0 a1, Statement (.generatorEmit a0 a1) := fun _ _ => rfl
theorem folioTrigger : ∀ a0, Statement (.folioTrigger a0) := fun _ => rfl
theorem quiescenceTimeout : ∀ a0, Statement (.quiescenceTimeout a0) := fun _ => rfl
theorem folioCompletion : ∀ a0, Statement (.folioCompletion a0) := fun _ => rfl
theorem cpGet : ∀ a0 a1 a2 a3 a4 a5 a6, Statement (.cpGet a0 a1 a2 a3 a4 a5 a6) := fun _ _ _ _ _ _ _ => rfl
theorem cpPut : ∀ a0 a1 a2 a3 a4 a5 a6, Statement (.cpPut a0 a1 a2 a3 a4 a5 a6) := fun _ _ _ _ _ _ _ => rfl
theorem cpMc : ∀ a0 a1 a2 a3 a4, Statement (.cpMc a0 a1 a2 a3 a4) := fun _ _ _ _ _ => rfl
theorem cpWmArm : ∀ a0 a1 a2, Statement (.cpWmArm a0 a1 a2) := fun _ _ _ => rfl
theorem cpWmDisarm : ∀ a0, Statement (.cpWmDisarm a0) := fun _ => rfl
theorem cpWmRead : ∀ a0 a1, Statement (.cpWmRead a0 a1) := fun _ _ => rfl
theorem cpShd : ∀ a0 a1 a2 a3 a4 a5, Statement (.cpShd a0 a1 a2 a3 a4 a5) := fun _ _ _ _ _ _ => rfl
theorem gRows : ∀ a0 a1 a2 a3, Statement (.gRows a0 a1 a2 a3) := fun _ _ _ _ => rfl
theorem gEmb : ∀ a0 a1 a2 a3 a4, Statement (.gEmb a0 a1 a2 a3 a4) := fun _ _ _ _ _ => rfl
theorem gScatFadd : ∀ a0 a1, Statement (.gScatFadd a0 a1) := fun _ _ => rfl
theorem gScatIadd : ∀ a0 a1, Statement (.gScatIadd a0 a1) := fun _ _ => rfl
theorem gScatOverwrite : ∀ a0 a1, Statement (.gScatOverwrite a0 a1) := fun _ _ => rfl
theorem gKern : ∀ a0 a1 a2, Statement (.gKern a0 a1 a2) := fun _ _ _ => rfl
theorem pfuIndexLine : ∀ a0 a1, Statement (.pfuIndexLine a0 a1) := fun _ _ => rfl
theorem filterPartialEvict : ∀ a0 a1, Statement (.filterPartialEvict a0 a1) := fun _ _ => rfl
theorem neSend : ∀ a0 a1 a2 a3 a4 a5, Statement (.neSend a0 a1 a2 a3 a4 a5) := fun _ _ _ _ _ _ => rfl
theorem nePost : ∀ a0 a1 a2 a3, Statement (.nePost a0 a1 a2 a3) := fun _ _ _ _ => rfl
theorem neWrite : ∀ a0 a1 a2 a3 a4 a5, Statement (.neWrite a0 a1 a2 a3 a4 a5) := fun _ _ _ _ _ _ => rfl
theorem neRead : ∀ a0 a1 a2 a3 a4, Statement (.neRead a0 a1 a2 a3 a4) := fun _ _ _ _ _ => rfl
theorem neXsend : ∀ a0 a1 a2 a3, Statement (.neXsend a0 a1 a2 a3) := fun _ _ _ _ => rfl
theorem resendStoreCopy : ∀ a0 a1, Statement (.resendStoreCopy a0 a1) := fun _ _ => rfl
theorem nePacketArrival : ∀ a0 a1, Statement (.nePacketArrival a0 a1) := fun _ _ => rfl
theorem neAckArrival : ∀ a0 a1, Statement (.neAckArrival a0 a1) := fun _ _ => rfl
theorem neRetransmitTimer : ∀ a0 a1 a2, Statement (.neRetransmitTimer a0 a1 a2) := fun _ _ _ => rfl
theorem neReceiveTimeout : ∀ a0 a1, Statement (.neReceiveTimeout a0 a1) := fun _ _ => rfl
theorem neNotReadyRetry : ∀ a0 a1, Statement (.neNotReadyRetry a0 a1) := fun _ _ => rfl
theorem neMatchTimeout : ∀ a0 a1, Statement (.neMatchTimeout a0 a1) := fun _ _ => rfl
theorem neReadRequestArrival : ∀ a0 a1, Statement (.neReadRequestArrival a0 a1) := fun _ _ => rfl
theorem portStateChange : ∀ a0 a1, Statement (.portStateChange a0 a1) := fun _ _ => rfl
theorem messageArrival : ∀ a0, Statement (.messageArrival a0) := fun _ => rfl
theorem carafeRefill : ∀ a0 a1 a2, Statement (.carafeRefill a0 a1 a2) := fun _ _ _ => rfl
theorem dispatch : ∀ a0, Statement (.dispatch a0) := fun _ => rfl
theorem resume : ∀ a0, Statement (.resume a0) := fun _ => rfl
theorem longWaitRelease : ∀ a0, Statement (.longWaitRelease a0) := fun _ => rfl
theorem replyArrival : ∀ a0, Statement (.replyArrival a0) := fun _ => rfl
theorem stealRequestArrival : ∀ a0, Statement (.stealRequestArrival a0) := fun _ => rfl
theorem stealAnswerArrival : ∀ a0, Statement (.stealAnswerArrival a0) := fun _ => rfl
theorem waitcWake : ∀ a0, Statement (.waitcWake a0) := fun _ => rfl
theorem sleepExpiry : ∀ a0, Statement (.sleepExpiry a0) := fun _ => rfl
theorem pubwaitWake : ∀ a0, Statement (.pubwaitWake a0) := fun _ => rfl
theorem fenceComplete : ∀ a0, Statement (.fenceComplete a0) := fun _ => rfl
theorem loadReturn : ∀ a0, Statement (.loadReturn a0) := fun _ => rfl
theorem preemptionRequest : ∀ a0 a1, Statement (.preemptionRequest a0 a1) := fun _ _ => rfl
theorem maskoverTimeout : ∀ a0, Statement (.maskoverTimeout a0) := fun _ => rfl
theorem counterUpdate : ∀ a0, Statement (.counterUpdate a0) := fun _ => rfl
theorem postedAtomicPerform : ∀ a0, Statement (.postedAtomicPerform a0) := fun _ => rfl
theorem clusterPartialEvict : ∀ a0 a1, Statement (.clusterPartialEvict a0 a1) := fun _ _ => rfl
theorem diePartialEvict : ∀ a0 a1, Statement (.diePartialEvict a0 a1) := fun _ _ => rfl
theorem zfResolution : ∀ a0 a1, Statement (.zfResolution a0 a1) := fun _ _ => rfl
theorem faultResolved : ∀ a0, Statement (.faultResolved a0) := fun _ => rfl
theorem pageMigration : ∀ a0 a1 a2, Statement (.pageMigration a0 a1 a2) := fun _ _ _ => rfl
theorem retentionEntry : ∀ a0 a1, Statement (.retentionEntry a0 a1) := fun _ _ => rfl
theorem retentionExit : ∀ a0 a1, Statement (.retentionExit a0 a1) := fun _ _ => rfl
theorem leafTurn : ∀ a0 a1, Statement (.leafTurn a0 a1) := fun _ _ => rfl
theorem ttsRecordArrival : ∀ a0, Statement (.ttsRecordArrival a0) := fun _ => rfl
theorem ttsRecordIssue : ∀ a0, Statement (.ttsRecordIssue a0) := fun _ => rfl
theorem ttsRefill : ∀ a0, Statement (.ttsRefill a0) := fun _ => rfl
theorem groupContributionArrival : ∀ a0, Statement (.groupContributionArrival a0) := fun _ => rfl
theorem groupPartialArrival : ∀ a0, Statement (.groupPartialArrival a0) := fun _ => rfl
theorem groupResultArrival : ∀ a0, Statement (.groupResultArrival a0) := fun _ => rfl
theorem periodicLeaseDue : ∀ a0, Statement (.periodicLeaseDue a0) := fun _ => rfl
theorem leaseStart : ∀ a0, Statement (.leaseStart a0) := fun _ => rfl
theorem cuppingEnd : ∀ a0 a1, Statement (.cuppingEnd a0 a1) := fun _ _ => rfl
theorem retireAnswerTimeout : ∀ a0, Statement (.retireAnswerTimeout a0) := fun _ => rfl
theorem scoreHalving : ∀ a0, Statement (.scoreHalving a0) := fun _ => rfl
theorem gangReservation : ∀ a0, Statement (.gangReservation a0) := fun _ => rfl
theorem gangstall : ∀ a0, Statement (.gangstall a0) := fun _ => rfl
theorem gangPlacement : ∀ a0, Statement (.gangPlacement a0) := fun _ => rfl
theorem jobMoveBack : ∀ a0 a1, Statement (.jobMoveBack a0 a1) := fun _ _ => rfl
theorem startMarker : ∀ a0, Statement (.startMarker a0) := fun _ => rfl
theorem configurationCompleteWave : ∀ a0, Statement (.configurationCompleteWave a0) := fun _ => rfl
theorem removeComplete : ∀ a0, Statement (.removeComplete a0) := fun _ => rfl
theorem wqEntryDelivery : ∀ a0, Statement (.wqEntryDelivery a0) := fun _ => rfl
theorem hostRmaWrite : ∀ a0 a1, Statement (.hostRmaWrite a0 a1) := fun _ _ => rfl
theorem hostRmaRead : ∀ a0 a1, Statement (.hostRmaRead a0 a1) := fun _ _ => rfl
theorem doorbell : ∀ a0 a1, Statement (.doorbell a0 a1) := fun _ _ => rfl
theorem controlRegisterWrite : ∀ a0 a1, Statement (.controlRegisterWrite a0 a1) := fun _ _ => rfl
theorem install : Statement (.install) := rfl
theorem remove : Statement (.remove) := rfl
theorem inval : Statement (.inval) := rfl
theorem faultCmd : Statement (.faultCmd) := rfl
theorem retans : Statement (.retans) := rfl
theorem retire : Statement (.retire) := rfl
theorem lease : Statement (.lease) := rfl
theorem redlv : Statement (.redlv) := rfl
theorem nertx : Statement (.nertx) := rfl
theorem debug : Statement (.debug) := rfl
theorem grpdis : Statement (.grpdis) := rfl
theorem grpset : Statement (.grpset) := rfl
theorem carres : Statement (.carres) := rfl
theorem moduleReset : ∀ a0, Statement (.moduleReset a0) := fun _ => rfl
theorem telemetry : Statement (.telemetry) := rfl
theorem firmwareUpdate : ∀ a0, Statement (.firmwareUpdate a0) := fun _ => rfl
theorem leasePolicy : ∀ a0 a1, Statement (.leasePolicy a0 a1) := fun _ _ => rfl
theorem retirementRecordRead : ∀ a0, Statement (.retirementRecordRead a0) := fun _ => rfl
theorem retirementRecordClear : ∀ a0 a1 a2, Statement (.retirementRecordClear a0 a1 a2) := fun _ _ _ => rfl
theorem getVersion : Statement (.getVersion) := rfl
theorem getCapabilities : Statement (.getCapabilities) := rfl
theorem negotiateAlgorithms : Statement (.negotiateAlgorithms) := rfl
theorem getDigests : Statement (.getDigests) := rfl
theorem getCertificate : ∀ a0 a1 a2, Statement (.getCertificate a0 a1 a2) := fun _ _ _ => rfl
theorem challenge : ∀ a0, Statement (.challenge a0) := fun _ => rfl
theorem getMeasurements : ∀ a0 a1, Statement (.getMeasurements a0 a1) := fun _ _ => rfl
theorem thermalTrip : ∀ a0, Statement (.thermalTrip a0) := fun _ => rfl
theorem junctionLimit : ∀ a0, Statement (.junctionLimit a0) := fun _ => rfl
theorem reservedEncoding : ∀ a0, Statement (.reservedEncoding a0) := fun _ => rfl
theorem clockGating : ∀ a0 a1, Statement (.clockGating a0 a1) := fun _ _ => rfl
theorem karmosPowerOn : Statement (.karmosPowerOn) := rfl

end Sys2Proof.Laws.Kinds
end

