-- ==== Sys2Proof/Laws/State.lean ====
section
/-! SUPPORT. Fields after updates: for each named update of the state and of a bank, each field that it leaves or sets, true by unfolding. -/

namespace Sys2Proof.Machine

/-! ## `putBank` -/

@[simp] theorem State.putBank_agenda (s : State) (bk : Nat) (b : Bank) : (s.putBank bk b).agenda = s.agenda := rfl
@[simp] theorem State.putBank_freeN (s : State) (bk : Nat) (b : Bank) : (s.putBank bk b).freeN = s.freeN := rfl
@[simp] theorem State.putBank_cur (s : State) (bk : Nat) (b : Bank) : (s.putBank bk b).cur = s.cur := rfl
@[simp] theorem State.putBank_cmd (s : State) (bk : Nat) (b : Bank) : (s.putBank bk b).cmd = s.cmd := rfl
@[simp] theorem State.putBank_mishap (s : State) (bk : Nat) (b : Bank) : (s.putBank bk b).mishap = s.mishap := rfl
@[simp] theorem State.putBank_svcCode (s : State) (bk : Nat) (b : Bank) : (s.putBank bk b).svcCode = s.svcCode := rfl
@[simp] theorem State.putBank_cycles (s : State) (bk : Nat) (b : Bank) : (s.putBank bk b).cycles = s.cycles := rfl
@[simp] theorem State.putBank_mem (s : State) (bk : Nat) (b : Bank) : (s.putBank bk b).mem = s.mem := rfl
@[simp] theorem State.putBank_check (s : State) (bk : Nat) (b : Bank) : (s.putBank bk b).check = s.check := rfl
@[simp] theorem State.putBank_pois (s : State) (bk : Nat) (b : Bank) : (s.putBank bk b).pois = s.pois := rfl
@[simp] theorem State.putBank_tlb (s : State) (bk : Nat) (b : Bank) : (s.putBank bk b).tlb = s.tlb := rfl
@[simp] theorem State.putBank_comm (s : State) (bk : Nat) (b : Bank) : (s.putBank bk b).comm = s.comm := rfl
@[simp] theorem State.putBank_pend (s : State) (bk : Nat) (b : Bank) : (s.putBank bk b).pend = s.pend := rfl
@[simp] theorem State.putBank_stale (s : State) (bk : Nat) (b : Bank) : (s.putBank bk b).stale = s.stale := rfl
@[simp] theorem State.putBank_code (s : State) (bk : Nat) (b : Bank) : (s.putBank bk b).code = s.code := rfl
@[simp] theorem State.putBank_cores (s : State) (bk : Nat) (b : Bank) : (s.putBank bk b).cores = s.cores := rfl
@[simp] theorem State.putBank_counters (s : State) (bk : Nat) (b : Bank) : (s.putBank bk b).counters = s.counters := rfl
@[simp] theorem State.putBank_clusters (s : State) (bk : Nat) (b : Bank) : (s.putBank bk b).clusters = s.clusters := rfl
@[simp] theorem State.putBank_groups (s : State) (bk : Nat) (b : Bank) : (s.putBank bk b).groups = s.groups := rfl
@[simp] theorem State.putBank_dies (s : State) (bk : Nat) (b : Bank) : (s.putBank bk b).dies = s.dies := rfl
@[simp] theorem State.putBank_units (s : State) (bk : Nat) (b : Bank) : (s.putBank bk b).units = s.units := rfl
@[simp] theorem State.putBank_jobs (s : State) (bk : Nat) (b : Bank) : (s.putBank bk b).jobs = s.jobs := rfl
@[simp] theorem State.putBank_flight (s : State) (bk : Nat) (b : Bank) : (s.putBank bk b).flight = s.flight := rfl
@[simp] theorem State.putBank_ports (s : State) (bk : Nat) (b : Bank) : (s.putBank bk b).ports = s.ports := rfl
@[simp] theorem State.putBank_hcmd (s : State) (bk : Nat) (b : Bank) : (s.putBank bk b).hcmd = s.hcmd := rfl
@[simp] theorem State.putBank_hseq (s : State) (bk : Nat) (b : Bank) : (s.putBank bk b).hseq = s.hseq := rfl
@[simp] theorem State.putBank_hreason (s : State) (bk : Nat) (b : Bank) : (s.putBank bk b).hreason = s.hreason := rfl
@[simp] theorem State.putBank_hresult (s : State) (bk : Nat) (b : Bank) : (s.putBank bk b).hresult = s.hresult := rfl
@[simp] theorem State.putBank_hdrop (s : State) (bk : Nat) (b : Bank) : (s.putBank bk b).hdrop = s.hdrop := rfl
@[simp] theorem State.putBank_hbusy (s : State) (bk : Nat) (b : Bank) : (s.putBank bk b).hbusy = s.hbusy := rfl
@[simp] theorem State.putBank_eqbase (s : State) (bk : Nat) (b : Bank) : (s.putBank bk b).eqbase = s.eqbase := rfl
@[simp] theorem State.putBank_eqsize (s : State) (bk : Nat) (b : Bank) : (s.putBank bk b).eqsize = s.eqsize := rfl
@[simp] theorem State.putBank_eqhead (s : State) (bk : Nat) (b : Bank) : (s.putBank bk b).eqhead = s.eqhead := rfl
@[simp] theorem State.putBank_eqtail (s : State) (bk : Nat) (b : Bank) : (s.putBank bk b).eqtail = s.eqtail := rfl
@[simp] theorem State.putBank_evlost (s : State) (bk : Nat) (b : Bank) : (s.putBank bk b).evlost = s.evlost := rfl
@[simp] theorem State.putBank_dsplit (s : State) (bk : Nat) (b : Bank) : (s.putBank bk b).dsplit = s.dsplit := rfl
@[simp] theorem State.putBank_modid (s : State) (bk : Nat) (b : Bank) : (s.putBank bk b).modid = s.modid := rfl
@[simp] theorem State.putBank_eseq (s : State) (bk : Nat) (b : Bank) : (s.putBank bk b).eseq = s.eseq := rfl
@[simp] theorem State.putBank_evheld (s : State) (bk : Nat) (b : Bank) : (s.putBank bk b).evheld = s.evheld := rfl
@[simp] theorem State.putBank_evover (s : State) (bk : Nat) (b : Bank) : (s.putBank bk b).evover = s.evover := rfl
@[simp] theorem State.putBank_rma (s : State) (bk : Nat) (b : Bank) : (s.putBank bk b).rma = s.rma := rfl
@[simp] theorem State.putBank_karmos (s : State) (bk : Nat) (b : Bank) : (s.putBank bk b).karmos = s.karmos := rfl

/-! ## `putCore` -/

@[simp] theorem State.putCore_agenda (s : State) (k : Nat) (c : Core) : (s.putCore k c).agenda = s.agenda := rfl
@[simp] theorem State.putCore_freeN (s : State) (k : Nat) (c : Core) : (s.putCore k c).freeN = s.freeN := rfl
@[simp] theorem State.putCore_cur (s : State) (k : Nat) (c : Core) : (s.putCore k c).cur = s.cur := rfl
@[simp] theorem State.putCore_cmd (s : State) (k : Nat) (c : Core) : (s.putCore k c).cmd = s.cmd := rfl
@[simp] theorem State.putCore_mishap (s : State) (k : Nat) (c : Core) : (s.putCore k c).mishap = s.mishap := rfl
@[simp] theorem State.putCore_svcCode (s : State) (k : Nat) (c : Core) : (s.putCore k c).svcCode = s.svcCode := rfl
@[simp] theorem State.putCore_cycles (s : State) (k : Nat) (c : Core) : (s.putCore k c).cycles = s.cycles := rfl
@[simp] theorem State.putCore_mem (s : State) (k : Nat) (c : Core) : (s.putCore k c).mem = s.mem := rfl
@[simp] theorem State.putCore_check (s : State) (k : Nat) (c : Core) : (s.putCore k c).check = s.check := rfl
@[simp] theorem State.putCore_pois (s : State) (k : Nat) (c : Core) : (s.putCore k c).pois = s.pois := rfl
@[simp] theorem State.putCore_tlb (s : State) (k : Nat) (c : Core) : (s.putCore k c).tlb = s.tlb := rfl
@[simp] theorem State.putCore_comm (s : State) (k : Nat) (c : Core) : (s.putCore k c).comm = s.comm := rfl
@[simp] theorem State.putCore_pend (s : State) (k : Nat) (c : Core) : (s.putCore k c).pend = s.pend := rfl
@[simp] theorem State.putCore_stale (s : State) (k : Nat) (c : Core) : (s.putCore k c).stale = s.stale := rfl
@[simp] theorem State.putCore_code (s : State) (k : Nat) (c : Core) : (s.putCore k c).code = s.code := rfl
@[simp] theorem State.putCore_banks (s : State) (k : Nat) (c : Core) : (s.putCore k c).banks = s.banks := rfl
@[simp] theorem State.putCore_counters (s : State) (k : Nat) (c : Core) : (s.putCore k c).counters = s.counters := rfl
@[simp] theorem State.putCore_clusters (s : State) (k : Nat) (c : Core) : (s.putCore k c).clusters = s.clusters := rfl
@[simp] theorem State.putCore_groups (s : State) (k : Nat) (c : Core) : (s.putCore k c).groups = s.groups := rfl
@[simp] theorem State.putCore_dies (s : State) (k : Nat) (c : Core) : (s.putCore k c).dies = s.dies := rfl
@[simp] theorem State.putCore_units (s : State) (k : Nat) (c : Core) : (s.putCore k c).units = s.units := rfl
@[simp] theorem State.putCore_jobs (s : State) (k : Nat) (c : Core) : (s.putCore k c).jobs = s.jobs := rfl
@[simp] theorem State.putCore_flight (s : State) (k : Nat) (c : Core) : (s.putCore k c).flight = s.flight := rfl
@[simp] theorem State.putCore_ports (s : State) (k : Nat) (c : Core) : (s.putCore k c).ports = s.ports := rfl
@[simp] theorem State.putCore_hcmd (s : State) (k : Nat) (c : Core) : (s.putCore k c).hcmd = s.hcmd := rfl
@[simp] theorem State.putCore_hseq (s : State) (k : Nat) (c : Core) : (s.putCore k c).hseq = s.hseq := rfl
@[simp] theorem State.putCore_hreason (s : State) (k : Nat) (c : Core) : (s.putCore k c).hreason = s.hreason := rfl
@[simp] theorem State.putCore_hresult (s : State) (k : Nat) (c : Core) : (s.putCore k c).hresult = s.hresult := rfl
@[simp] theorem State.putCore_hdrop (s : State) (k : Nat) (c : Core) : (s.putCore k c).hdrop = s.hdrop := rfl
@[simp] theorem State.putCore_hbusy (s : State) (k : Nat) (c : Core) : (s.putCore k c).hbusy = s.hbusy := rfl
@[simp] theorem State.putCore_eqbase (s : State) (k : Nat) (c : Core) : (s.putCore k c).eqbase = s.eqbase := rfl
@[simp] theorem State.putCore_eqsize (s : State) (k : Nat) (c : Core) : (s.putCore k c).eqsize = s.eqsize := rfl
@[simp] theorem State.putCore_eqhead (s : State) (k : Nat) (c : Core) : (s.putCore k c).eqhead = s.eqhead := rfl
@[simp] theorem State.putCore_eqtail (s : State) (k : Nat) (c : Core) : (s.putCore k c).eqtail = s.eqtail := rfl
@[simp] theorem State.putCore_evlost (s : State) (k : Nat) (c : Core) : (s.putCore k c).evlost = s.evlost := rfl
@[simp] theorem State.putCore_dsplit (s : State) (k : Nat) (c : Core) : (s.putCore k c).dsplit = s.dsplit := rfl
@[simp] theorem State.putCore_modid (s : State) (k : Nat) (c : Core) : (s.putCore k c).modid = s.modid := rfl
@[simp] theorem State.putCore_eseq (s : State) (k : Nat) (c : Core) : (s.putCore k c).eseq = s.eseq := rfl
@[simp] theorem State.putCore_evheld (s : State) (k : Nat) (c : Core) : (s.putCore k c).evheld = s.evheld := rfl
@[simp] theorem State.putCore_evover (s : State) (k : Nat) (c : Core) : (s.putCore k c).evover = s.evover := rfl
@[simp] theorem State.putCore_rma (s : State) (k : Nat) (c : Core) : (s.putCore k c).rma = s.rma := rfl
@[simp] theorem State.putCore_karmos (s : State) (k : Nat) (c : Core) : (s.putCore k c).karmos = s.karmos := rfl

/-! ## `putCluster` -/

@[simp] theorem State.putCluster_agenda (s : State) (ck : Nat) (c : Cluster) : (s.putCluster ck c).agenda = s.agenda := rfl
@[simp] theorem State.putCluster_freeN (s : State) (ck : Nat) (c : Cluster) : (s.putCluster ck c).freeN = s.freeN := rfl
@[simp] theorem State.putCluster_cur (s : State) (ck : Nat) (c : Cluster) : (s.putCluster ck c).cur = s.cur := rfl
@[simp] theorem State.putCluster_cmd (s : State) (ck : Nat) (c : Cluster) : (s.putCluster ck c).cmd = s.cmd := rfl
@[simp] theorem State.putCluster_mishap (s : State) (ck : Nat) (c : Cluster) : (s.putCluster ck c).mishap = s.mishap := rfl
@[simp] theorem State.putCluster_svcCode (s : State) (ck : Nat) (c : Cluster) : (s.putCluster ck c).svcCode = s.svcCode := rfl
@[simp] theorem State.putCluster_cycles (s : State) (ck : Nat) (c : Cluster) : (s.putCluster ck c).cycles = s.cycles := rfl
@[simp] theorem State.putCluster_mem (s : State) (ck : Nat) (c : Cluster) : (s.putCluster ck c).mem = s.mem := rfl
@[simp] theorem State.putCluster_check (s : State) (ck : Nat) (c : Cluster) : (s.putCluster ck c).check = s.check := rfl
@[simp] theorem State.putCluster_pois (s : State) (ck : Nat) (c : Cluster) : (s.putCluster ck c).pois = s.pois := rfl
@[simp] theorem State.putCluster_tlb (s : State) (ck : Nat) (c : Cluster) : (s.putCluster ck c).tlb = s.tlb := rfl
@[simp] theorem State.putCluster_comm (s : State) (ck : Nat) (c : Cluster) : (s.putCluster ck c).comm = s.comm := rfl
@[simp] theorem State.putCluster_pend (s : State) (ck : Nat) (c : Cluster) : (s.putCluster ck c).pend = s.pend := rfl
@[simp] theorem State.putCluster_stale (s : State) (ck : Nat) (c : Cluster) : (s.putCluster ck c).stale = s.stale := rfl
@[simp] theorem State.putCluster_code (s : State) (ck : Nat) (c : Cluster) : (s.putCluster ck c).code = s.code := rfl
@[simp] theorem State.putCluster_banks (s : State) (ck : Nat) (c : Cluster) : (s.putCluster ck c).banks = s.banks := rfl
@[simp] theorem State.putCluster_cores (s : State) (ck : Nat) (c : Cluster) : (s.putCluster ck c).cores = s.cores := rfl
@[simp] theorem State.putCluster_counters (s : State) (ck : Nat) (c : Cluster) : (s.putCluster ck c).counters = s.counters := rfl
@[simp] theorem State.putCluster_groups (s : State) (ck : Nat) (c : Cluster) : (s.putCluster ck c).groups = s.groups := rfl
@[simp] theorem State.putCluster_dies (s : State) (ck : Nat) (c : Cluster) : (s.putCluster ck c).dies = s.dies := rfl
@[simp] theorem State.putCluster_units (s : State) (ck : Nat) (c : Cluster) : (s.putCluster ck c).units = s.units := rfl
@[simp] theorem State.putCluster_jobs (s : State) (ck : Nat) (c : Cluster) : (s.putCluster ck c).jobs = s.jobs := rfl
@[simp] theorem State.putCluster_flight (s : State) (ck : Nat) (c : Cluster) : (s.putCluster ck c).flight = s.flight := rfl
@[simp] theorem State.putCluster_ports (s : State) (ck : Nat) (c : Cluster) : (s.putCluster ck c).ports = s.ports := rfl
@[simp] theorem State.putCluster_hcmd (s : State) (ck : Nat) (c : Cluster) : (s.putCluster ck c).hcmd = s.hcmd := rfl
@[simp] theorem State.putCluster_hseq (s : State) (ck : Nat) (c : Cluster) : (s.putCluster ck c).hseq = s.hseq := rfl
@[simp] theorem State.putCluster_hreason (s : State) (ck : Nat) (c : Cluster) : (s.putCluster ck c).hreason = s.hreason := rfl
@[simp] theorem State.putCluster_hresult (s : State) (ck : Nat) (c : Cluster) : (s.putCluster ck c).hresult = s.hresult := rfl
@[simp] theorem State.putCluster_hdrop (s : State) (ck : Nat) (c : Cluster) : (s.putCluster ck c).hdrop = s.hdrop := rfl
@[simp] theorem State.putCluster_hbusy (s : State) (ck : Nat) (c : Cluster) : (s.putCluster ck c).hbusy = s.hbusy := rfl
@[simp] theorem State.putCluster_eqbase (s : State) (ck : Nat) (c : Cluster) : (s.putCluster ck c).eqbase = s.eqbase := rfl
@[simp] theorem State.putCluster_eqsize (s : State) (ck : Nat) (c : Cluster) : (s.putCluster ck c).eqsize = s.eqsize := rfl
@[simp] theorem State.putCluster_eqhead (s : State) (ck : Nat) (c : Cluster) : (s.putCluster ck c).eqhead = s.eqhead := rfl
@[simp] theorem State.putCluster_eqtail (s : State) (ck : Nat) (c : Cluster) : (s.putCluster ck c).eqtail = s.eqtail := rfl
@[simp] theorem State.putCluster_evlost (s : State) (ck : Nat) (c : Cluster) : (s.putCluster ck c).evlost = s.evlost := rfl
@[simp] theorem State.putCluster_dsplit (s : State) (ck : Nat) (c : Cluster) : (s.putCluster ck c).dsplit = s.dsplit := rfl
@[simp] theorem State.putCluster_modid (s : State) (ck : Nat) (c : Cluster) : (s.putCluster ck c).modid = s.modid := rfl
@[simp] theorem State.putCluster_eseq (s : State) (ck : Nat) (c : Cluster) : (s.putCluster ck c).eseq = s.eseq := rfl
@[simp] theorem State.putCluster_evheld (s : State) (ck : Nat) (c : Cluster) : (s.putCluster ck c).evheld = s.evheld := rfl
@[simp] theorem State.putCluster_evover (s : State) (ck : Nat) (c : Cluster) : (s.putCluster ck c).evover = s.evover := rfl
@[simp] theorem State.putCluster_rma (s : State) (ck : Nat) (c : Cluster) : (s.putCluster ck c).rma = s.rma := rfl
@[simp] theorem State.putCluster_karmos (s : State) (ck : Nat) (c : Cluster) : (s.putCluster ck c).karmos = s.karmos := rfl

/-! ## `putJob` -/

@[simp] theorem State.putJob_agenda (s : State) (j : Nat) (x : Job) : (s.putJob j x).agenda = s.agenda := rfl
@[simp] theorem State.putJob_freeN (s : State) (j : Nat) (x : Job) : (s.putJob j x).freeN = s.freeN := rfl
@[simp] theorem State.putJob_cur (s : State) (j : Nat) (x : Job) : (s.putJob j x).cur = s.cur := rfl
@[simp] theorem State.putJob_cmd (s : State) (j : Nat) (x : Job) : (s.putJob j x).cmd = s.cmd := rfl
@[simp] theorem State.putJob_mishap (s : State) (j : Nat) (x : Job) : (s.putJob j x).mishap = s.mishap := rfl
@[simp] theorem State.putJob_svcCode (s : State) (j : Nat) (x : Job) : (s.putJob j x).svcCode = s.svcCode := rfl
@[simp] theorem State.putJob_cycles (s : State) (j : Nat) (x : Job) : (s.putJob j x).cycles = s.cycles := rfl
@[simp] theorem State.putJob_mem (s : State) (j : Nat) (x : Job) : (s.putJob j x).mem = s.mem := rfl
@[simp] theorem State.putJob_check (s : State) (j : Nat) (x : Job) : (s.putJob j x).check = s.check := rfl
@[simp] theorem State.putJob_pois (s : State) (j : Nat) (x : Job) : (s.putJob j x).pois = s.pois := rfl
@[simp] theorem State.putJob_tlb (s : State) (j : Nat) (x : Job) : (s.putJob j x).tlb = s.tlb := rfl
@[simp] theorem State.putJob_comm (s : State) (j : Nat) (x : Job) : (s.putJob j x).comm = s.comm := rfl
@[simp] theorem State.putJob_pend (s : State) (j : Nat) (x : Job) : (s.putJob j x).pend = s.pend := rfl
@[simp] theorem State.putJob_stale (s : State) (j : Nat) (x : Job) : (s.putJob j x).stale = s.stale := rfl
@[simp] theorem State.putJob_code (s : State) (j : Nat) (x : Job) : (s.putJob j x).code = s.code := rfl
@[simp] theorem State.putJob_banks (s : State) (j : Nat) (x : Job) : (s.putJob j x).banks = s.banks := rfl
@[simp] theorem State.putJob_cores (s : State) (j : Nat) (x : Job) : (s.putJob j x).cores = s.cores := rfl
@[simp] theorem State.putJob_counters (s : State) (j : Nat) (x : Job) : (s.putJob j x).counters = s.counters := rfl
@[simp] theorem State.putJob_clusters (s : State) (j : Nat) (x : Job) : (s.putJob j x).clusters = s.clusters := rfl
@[simp] theorem State.putJob_groups (s : State) (j : Nat) (x : Job) : (s.putJob j x).groups = s.groups := rfl
@[simp] theorem State.putJob_dies (s : State) (j : Nat) (x : Job) : (s.putJob j x).dies = s.dies := rfl
@[simp] theorem State.putJob_units (s : State) (j : Nat) (x : Job) : (s.putJob j x).units = s.units := rfl
@[simp] theorem State.putJob_flight (s : State) (j : Nat) (x : Job) : (s.putJob j x).flight = s.flight := rfl
@[simp] theorem State.putJob_ports (s : State) (j : Nat) (x : Job) : (s.putJob j x).ports = s.ports := rfl
@[simp] theorem State.putJob_hcmd (s : State) (j : Nat) (x : Job) : (s.putJob j x).hcmd = s.hcmd := rfl
@[simp] theorem State.putJob_hseq (s : State) (j : Nat) (x : Job) : (s.putJob j x).hseq = s.hseq := rfl
@[simp] theorem State.putJob_hreason (s : State) (j : Nat) (x : Job) : (s.putJob j x).hreason = s.hreason := rfl
@[simp] theorem State.putJob_hresult (s : State) (j : Nat) (x : Job) : (s.putJob j x).hresult = s.hresult := rfl
@[simp] theorem State.putJob_hdrop (s : State) (j : Nat) (x : Job) : (s.putJob j x).hdrop = s.hdrop := rfl
@[simp] theorem State.putJob_hbusy (s : State) (j : Nat) (x : Job) : (s.putJob j x).hbusy = s.hbusy := rfl
@[simp] theorem State.putJob_eqbase (s : State) (j : Nat) (x : Job) : (s.putJob j x).eqbase = s.eqbase := rfl
@[simp] theorem State.putJob_eqsize (s : State) (j : Nat) (x : Job) : (s.putJob j x).eqsize = s.eqsize := rfl
@[simp] theorem State.putJob_eqhead (s : State) (j : Nat) (x : Job) : (s.putJob j x).eqhead = s.eqhead := rfl
@[simp] theorem State.putJob_eqtail (s : State) (j : Nat) (x : Job) : (s.putJob j x).eqtail = s.eqtail := rfl
@[simp] theorem State.putJob_evlost (s : State) (j : Nat) (x : Job) : (s.putJob j x).evlost = s.evlost := rfl
@[simp] theorem State.putJob_dsplit (s : State) (j : Nat) (x : Job) : (s.putJob j x).dsplit = s.dsplit := rfl
@[simp] theorem State.putJob_modid (s : State) (j : Nat) (x : Job) : (s.putJob j x).modid = s.modid := rfl
@[simp] theorem State.putJob_eseq (s : State) (j : Nat) (x : Job) : (s.putJob j x).eseq = s.eseq := rfl
@[simp] theorem State.putJob_evheld (s : State) (j : Nat) (x : Job) : (s.putJob j x).evheld = s.evheld := rfl
@[simp] theorem State.putJob_evover (s : State) (j : Nat) (x : Job) : (s.putJob j x).evover = s.evover := rfl
@[simp] theorem State.putJob_rma (s : State) (j : Nat) (x : Job) : (s.putJob j x).rma = s.rma := rfl
@[simp] theorem State.putJob_karmos (s : State) (j : Nat) (x : Job) : (s.putJob j x).karmos = s.karmos := rfl

/-! ## `putDie` -/

@[simp] theorem State.putDie_agenda (s : State) (d : Nat) (x : Die) : (s.putDie d x).agenda = s.agenda := rfl
@[simp] theorem State.putDie_freeN (s : State) (d : Nat) (x : Die) : (s.putDie d x).freeN = s.freeN := rfl
@[simp] theorem State.putDie_cur (s : State) (d : Nat) (x : Die) : (s.putDie d x).cur = s.cur := rfl
@[simp] theorem State.putDie_cmd (s : State) (d : Nat) (x : Die) : (s.putDie d x).cmd = s.cmd := rfl
@[simp] theorem State.putDie_mishap (s : State) (d : Nat) (x : Die) : (s.putDie d x).mishap = s.mishap := rfl
@[simp] theorem State.putDie_svcCode (s : State) (d : Nat) (x : Die) : (s.putDie d x).svcCode = s.svcCode := rfl
@[simp] theorem State.putDie_cycles (s : State) (d : Nat) (x : Die) : (s.putDie d x).cycles = s.cycles := rfl
@[simp] theorem State.putDie_mem (s : State) (d : Nat) (x : Die) : (s.putDie d x).mem = s.mem := rfl
@[simp] theorem State.putDie_check (s : State) (d : Nat) (x : Die) : (s.putDie d x).check = s.check := rfl
@[simp] theorem State.putDie_pois (s : State) (d : Nat) (x : Die) : (s.putDie d x).pois = s.pois := rfl
@[simp] theorem State.putDie_tlb (s : State) (d : Nat) (x : Die) : (s.putDie d x).tlb = s.tlb := rfl
@[simp] theorem State.putDie_comm (s : State) (d : Nat) (x : Die) : (s.putDie d x).comm = s.comm := rfl
@[simp] theorem State.putDie_pend (s : State) (d : Nat) (x : Die) : (s.putDie d x).pend = s.pend := rfl
@[simp] theorem State.putDie_stale (s : State) (d : Nat) (x : Die) : (s.putDie d x).stale = s.stale := rfl
@[simp] theorem State.putDie_code (s : State) (d : Nat) (x : Die) : (s.putDie d x).code = s.code := rfl
@[simp] theorem State.putDie_banks (s : State) (d : Nat) (x : Die) : (s.putDie d x).banks = s.banks := rfl
@[simp] theorem State.putDie_cores (s : State) (d : Nat) (x : Die) : (s.putDie d x).cores = s.cores := rfl
@[simp] theorem State.putDie_counters (s : State) (d : Nat) (x : Die) : (s.putDie d x).counters = s.counters := rfl
@[simp] theorem State.putDie_clusters (s : State) (d : Nat) (x : Die) : (s.putDie d x).clusters = s.clusters := rfl
@[simp] theorem State.putDie_groups (s : State) (d : Nat) (x : Die) : (s.putDie d x).groups = s.groups := rfl
@[simp] theorem State.putDie_units (s : State) (d : Nat) (x : Die) : (s.putDie d x).units = s.units := rfl
@[simp] theorem State.putDie_jobs (s : State) (d : Nat) (x : Die) : (s.putDie d x).jobs = s.jobs := rfl
@[simp] theorem State.putDie_flight (s : State) (d : Nat) (x : Die) : (s.putDie d x).flight = s.flight := rfl
@[simp] theorem State.putDie_ports (s : State) (d : Nat) (x : Die) : (s.putDie d x).ports = s.ports := rfl
@[simp] theorem State.putDie_hcmd (s : State) (d : Nat) (x : Die) : (s.putDie d x).hcmd = s.hcmd := rfl
@[simp] theorem State.putDie_hseq (s : State) (d : Nat) (x : Die) : (s.putDie d x).hseq = s.hseq := rfl
@[simp] theorem State.putDie_hreason (s : State) (d : Nat) (x : Die) : (s.putDie d x).hreason = s.hreason := rfl
@[simp] theorem State.putDie_hresult (s : State) (d : Nat) (x : Die) : (s.putDie d x).hresult = s.hresult := rfl
@[simp] theorem State.putDie_hdrop (s : State) (d : Nat) (x : Die) : (s.putDie d x).hdrop = s.hdrop := rfl
@[simp] theorem State.putDie_hbusy (s : State) (d : Nat) (x : Die) : (s.putDie d x).hbusy = s.hbusy := rfl
@[simp] theorem State.putDie_eqbase (s : State) (d : Nat) (x : Die) : (s.putDie d x).eqbase = s.eqbase := rfl
@[simp] theorem State.putDie_eqsize (s : State) (d : Nat) (x : Die) : (s.putDie d x).eqsize = s.eqsize := rfl
@[simp] theorem State.putDie_eqhead (s : State) (d : Nat) (x : Die) : (s.putDie d x).eqhead = s.eqhead := rfl
@[simp] theorem State.putDie_eqtail (s : State) (d : Nat) (x : Die) : (s.putDie d x).eqtail = s.eqtail := rfl
@[simp] theorem State.putDie_evlost (s : State) (d : Nat) (x : Die) : (s.putDie d x).evlost = s.evlost := rfl
@[simp] theorem State.putDie_dsplit (s : State) (d : Nat) (x : Die) : (s.putDie d x).dsplit = s.dsplit := rfl
@[simp] theorem State.putDie_modid (s : State) (d : Nat) (x : Die) : (s.putDie d x).modid = s.modid := rfl
@[simp] theorem State.putDie_eseq (s : State) (d : Nat) (x : Die) : (s.putDie d x).eseq = s.eseq := rfl
@[simp] theorem State.putDie_evheld (s : State) (d : Nat) (x : Die) : (s.putDie d x).evheld = s.evheld := rfl
@[simp] theorem State.putDie_evover (s : State) (d : Nat) (x : Die) : (s.putDie d x).evover = s.evover := rfl
@[simp] theorem State.putDie_rma (s : State) (d : Nat) (x : Die) : (s.putDie d x).rma = s.rma := rfl
@[simp] theorem State.putDie_karmos (s : State) (d : Nat) (x : Die) : (s.putDie d x).karmos = s.karmos := rfl

/-! ## `putUnit` -/

@[simp] theorem State.putUnit_agenda (s : State) (u : Nat) (x : UnitRec) : (s.putUnit u x).agenda = s.agenda := rfl
@[simp] theorem State.putUnit_freeN (s : State) (u : Nat) (x : UnitRec) : (s.putUnit u x).freeN = s.freeN := rfl
@[simp] theorem State.putUnit_cur (s : State) (u : Nat) (x : UnitRec) : (s.putUnit u x).cur = s.cur := rfl
@[simp] theorem State.putUnit_cmd (s : State) (u : Nat) (x : UnitRec) : (s.putUnit u x).cmd = s.cmd := rfl
@[simp] theorem State.putUnit_mishap (s : State) (u : Nat) (x : UnitRec) : (s.putUnit u x).mishap = s.mishap := rfl
@[simp] theorem State.putUnit_svcCode (s : State) (u : Nat) (x : UnitRec) : (s.putUnit u x).svcCode = s.svcCode := rfl
@[simp] theorem State.putUnit_cycles (s : State) (u : Nat) (x : UnitRec) : (s.putUnit u x).cycles = s.cycles := rfl
@[simp] theorem State.putUnit_mem (s : State) (u : Nat) (x : UnitRec) : (s.putUnit u x).mem = s.mem := rfl
@[simp] theorem State.putUnit_check (s : State) (u : Nat) (x : UnitRec) : (s.putUnit u x).check = s.check := rfl
@[simp] theorem State.putUnit_pois (s : State) (u : Nat) (x : UnitRec) : (s.putUnit u x).pois = s.pois := rfl
@[simp] theorem State.putUnit_tlb (s : State) (u : Nat) (x : UnitRec) : (s.putUnit u x).tlb = s.tlb := rfl
@[simp] theorem State.putUnit_comm (s : State) (u : Nat) (x : UnitRec) : (s.putUnit u x).comm = s.comm := rfl
@[simp] theorem State.putUnit_pend (s : State) (u : Nat) (x : UnitRec) : (s.putUnit u x).pend = s.pend := rfl
@[simp] theorem State.putUnit_stale (s : State) (u : Nat) (x : UnitRec) : (s.putUnit u x).stale = s.stale := rfl
@[simp] theorem State.putUnit_code (s : State) (u : Nat) (x : UnitRec) : (s.putUnit u x).code = s.code := rfl
@[simp] theorem State.putUnit_banks (s : State) (u : Nat) (x : UnitRec) : (s.putUnit u x).banks = s.banks := rfl
@[simp] theorem State.putUnit_cores (s : State) (u : Nat) (x : UnitRec) : (s.putUnit u x).cores = s.cores := rfl
@[simp] theorem State.putUnit_counters (s : State) (u : Nat) (x : UnitRec) : (s.putUnit u x).counters = s.counters := rfl
@[simp] theorem State.putUnit_clusters (s : State) (u : Nat) (x : UnitRec) : (s.putUnit u x).clusters = s.clusters := rfl
@[simp] theorem State.putUnit_groups (s : State) (u : Nat) (x : UnitRec) : (s.putUnit u x).groups = s.groups := rfl
@[simp] theorem State.putUnit_dies (s : State) (u : Nat) (x : UnitRec) : (s.putUnit u x).dies = s.dies := rfl
@[simp] theorem State.putUnit_jobs (s : State) (u : Nat) (x : UnitRec) : (s.putUnit u x).jobs = s.jobs := rfl
@[simp] theorem State.putUnit_flight (s : State) (u : Nat) (x : UnitRec) : (s.putUnit u x).flight = s.flight := rfl
@[simp] theorem State.putUnit_ports (s : State) (u : Nat) (x : UnitRec) : (s.putUnit u x).ports = s.ports := rfl
@[simp] theorem State.putUnit_hcmd (s : State) (u : Nat) (x : UnitRec) : (s.putUnit u x).hcmd = s.hcmd := rfl
@[simp] theorem State.putUnit_hseq (s : State) (u : Nat) (x : UnitRec) : (s.putUnit u x).hseq = s.hseq := rfl
@[simp] theorem State.putUnit_hreason (s : State) (u : Nat) (x : UnitRec) : (s.putUnit u x).hreason = s.hreason := rfl
@[simp] theorem State.putUnit_hresult (s : State) (u : Nat) (x : UnitRec) : (s.putUnit u x).hresult = s.hresult := rfl
@[simp] theorem State.putUnit_hdrop (s : State) (u : Nat) (x : UnitRec) : (s.putUnit u x).hdrop = s.hdrop := rfl
@[simp] theorem State.putUnit_hbusy (s : State) (u : Nat) (x : UnitRec) : (s.putUnit u x).hbusy = s.hbusy := rfl
@[simp] theorem State.putUnit_eqbase (s : State) (u : Nat) (x : UnitRec) : (s.putUnit u x).eqbase = s.eqbase := rfl
@[simp] theorem State.putUnit_eqsize (s : State) (u : Nat) (x : UnitRec) : (s.putUnit u x).eqsize = s.eqsize := rfl
@[simp] theorem State.putUnit_eqhead (s : State) (u : Nat) (x : UnitRec) : (s.putUnit u x).eqhead = s.eqhead := rfl
@[simp] theorem State.putUnit_eqtail (s : State) (u : Nat) (x : UnitRec) : (s.putUnit u x).eqtail = s.eqtail := rfl
@[simp] theorem State.putUnit_evlost (s : State) (u : Nat) (x : UnitRec) : (s.putUnit u x).evlost = s.evlost := rfl
@[simp] theorem State.putUnit_dsplit (s : State) (u : Nat) (x : UnitRec) : (s.putUnit u x).dsplit = s.dsplit := rfl
@[simp] theorem State.putUnit_modid (s : State) (u : Nat) (x : UnitRec) : (s.putUnit u x).modid = s.modid := rfl
@[simp] theorem State.putUnit_eseq (s : State) (u : Nat) (x : UnitRec) : (s.putUnit u x).eseq = s.eseq := rfl
@[simp] theorem State.putUnit_evheld (s : State) (u : Nat) (x : UnitRec) : (s.putUnit u x).evheld = s.evheld := rfl
@[simp] theorem State.putUnit_evover (s : State) (u : Nat) (x : UnitRec) : (s.putUnit u x).evover = s.evover := rfl
@[simp] theorem State.putUnit_rma (s : State) (u : Nat) (x : UnitRec) : (s.putUnit u x).rma = s.rma := rfl
@[simp] theorem State.putUnit_karmos (s : State) (u : Nat) (x : UnitRec) : (s.putUnit u x).karmos = s.karmos := rfl

/-! ## `modBank` -/

@[simp] theorem State.modBank_agenda (s : State) (bk : Nat) (f : Bank → Bank) : (s.modBank bk f).agenda = s.agenda := rfl
@[simp] theorem State.modBank_freeN (s : State) (bk : Nat) (f : Bank → Bank) : (s.modBank bk f).freeN = s.freeN := rfl
@[simp] theorem State.modBank_cur (s : State) (bk : Nat) (f : Bank → Bank) : (s.modBank bk f).cur = s.cur := rfl
@[simp] theorem State.modBank_cmd (s : State) (bk : Nat) (f : Bank → Bank) : (s.modBank bk f).cmd = s.cmd := rfl
@[simp] theorem State.modBank_mishap (s : State) (bk : Nat) (f : Bank → Bank) : (s.modBank bk f).mishap = s.mishap := rfl
@[simp] theorem State.modBank_svcCode (s : State) (bk : Nat) (f : Bank → Bank) : (s.modBank bk f).svcCode = s.svcCode := rfl
@[simp] theorem State.modBank_cycles (s : State) (bk : Nat) (f : Bank → Bank) : (s.modBank bk f).cycles = s.cycles := rfl
@[simp] theorem State.modBank_mem (s : State) (bk : Nat) (f : Bank → Bank) : (s.modBank bk f).mem = s.mem := rfl
@[simp] theorem State.modBank_check (s : State) (bk : Nat) (f : Bank → Bank) : (s.modBank bk f).check = s.check := rfl
@[simp] theorem State.modBank_pois (s : State) (bk : Nat) (f : Bank → Bank) : (s.modBank bk f).pois = s.pois := rfl
@[simp] theorem State.modBank_tlb (s : State) (bk : Nat) (f : Bank → Bank) : (s.modBank bk f).tlb = s.tlb := rfl
@[simp] theorem State.modBank_comm (s : State) (bk : Nat) (f : Bank → Bank) : (s.modBank bk f).comm = s.comm := rfl
@[simp] theorem State.modBank_pend (s : State) (bk : Nat) (f : Bank → Bank) : (s.modBank bk f).pend = s.pend := rfl
@[simp] theorem State.modBank_stale (s : State) (bk : Nat) (f : Bank → Bank) : (s.modBank bk f).stale = s.stale := rfl
@[simp] theorem State.modBank_code (s : State) (bk : Nat) (f : Bank → Bank) : (s.modBank bk f).code = s.code := rfl
@[simp] theorem State.modBank_cores (s : State) (bk : Nat) (f : Bank → Bank) : (s.modBank bk f).cores = s.cores := rfl
@[simp] theorem State.modBank_counters (s : State) (bk : Nat) (f : Bank → Bank) : (s.modBank bk f).counters = s.counters := rfl
@[simp] theorem State.modBank_clusters (s : State) (bk : Nat) (f : Bank → Bank) : (s.modBank bk f).clusters = s.clusters := rfl
@[simp] theorem State.modBank_groups (s : State) (bk : Nat) (f : Bank → Bank) : (s.modBank bk f).groups = s.groups := rfl
@[simp] theorem State.modBank_dies (s : State) (bk : Nat) (f : Bank → Bank) : (s.modBank bk f).dies = s.dies := rfl
@[simp] theorem State.modBank_units (s : State) (bk : Nat) (f : Bank → Bank) : (s.modBank bk f).units = s.units := rfl
@[simp] theorem State.modBank_jobs (s : State) (bk : Nat) (f : Bank → Bank) : (s.modBank bk f).jobs = s.jobs := rfl
@[simp] theorem State.modBank_flight (s : State) (bk : Nat) (f : Bank → Bank) : (s.modBank bk f).flight = s.flight := rfl
@[simp] theorem State.modBank_ports (s : State) (bk : Nat) (f : Bank → Bank) : (s.modBank bk f).ports = s.ports := rfl
@[simp] theorem State.modBank_hcmd (s : State) (bk : Nat) (f : Bank → Bank) : (s.modBank bk f).hcmd = s.hcmd := rfl
@[simp] theorem State.modBank_hseq (s : State) (bk : Nat) (f : Bank → Bank) : (s.modBank bk f).hseq = s.hseq := rfl
@[simp] theorem State.modBank_hreason (s : State) (bk : Nat) (f : Bank → Bank) : (s.modBank bk f).hreason = s.hreason := rfl
@[simp] theorem State.modBank_hresult (s : State) (bk : Nat) (f : Bank → Bank) : (s.modBank bk f).hresult = s.hresult := rfl
@[simp] theorem State.modBank_hdrop (s : State) (bk : Nat) (f : Bank → Bank) : (s.modBank bk f).hdrop = s.hdrop := rfl
@[simp] theorem State.modBank_hbusy (s : State) (bk : Nat) (f : Bank → Bank) : (s.modBank bk f).hbusy = s.hbusy := rfl
@[simp] theorem State.modBank_eqbase (s : State) (bk : Nat) (f : Bank → Bank) : (s.modBank bk f).eqbase = s.eqbase := rfl
@[simp] theorem State.modBank_eqsize (s : State) (bk : Nat) (f : Bank → Bank) : (s.modBank bk f).eqsize = s.eqsize := rfl
@[simp] theorem State.modBank_eqhead (s : State) (bk : Nat) (f : Bank → Bank) : (s.modBank bk f).eqhead = s.eqhead := rfl
@[simp] theorem State.modBank_eqtail (s : State) (bk : Nat) (f : Bank → Bank) : (s.modBank bk f).eqtail = s.eqtail := rfl
@[simp] theorem State.modBank_evlost (s : State) (bk : Nat) (f : Bank → Bank) : (s.modBank bk f).evlost = s.evlost := rfl
@[simp] theorem State.modBank_dsplit (s : State) (bk : Nat) (f : Bank → Bank) : (s.modBank bk f).dsplit = s.dsplit := rfl
@[simp] theorem State.modBank_modid (s : State) (bk : Nat) (f : Bank → Bank) : (s.modBank bk f).modid = s.modid := rfl
@[simp] theorem State.modBank_eseq (s : State) (bk : Nat) (f : Bank → Bank) : (s.modBank bk f).eseq = s.eseq := rfl
@[simp] theorem State.modBank_evheld (s : State) (bk : Nat) (f : Bank → Bank) : (s.modBank bk f).evheld = s.evheld := rfl
@[simp] theorem State.modBank_evover (s : State) (bk : Nat) (f : Bank → Bank) : (s.modBank bk f).evover = s.evover := rfl
@[simp] theorem State.modBank_rma (s : State) (bk : Nat) (f : Bank → Bank) : (s.modBank bk f).rma = s.rma := rfl
@[simp] theorem State.modBank_karmos (s : State) (bk : Nat) (f : Bank → Bank) : (s.modBank bk f).karmos = s.karmos := rfl

/-! ## `modB` -/

@[simp] theorem State.modB_agenda (s : State) (f : Bank → Bank) : (s.modB f).agenda = s.agenda := rfl
@[simp] theorem State.modB_freeN (s : State) (f : Bank → Bank) : (s.modB f).freeN = s.freeN := rfl
@[simp] theorem State.modB_cur (s : State) (f : Bank → Bank) : (s.modB f).cur = s.cur := rfl
@[simp] theorem State.modB_cmd (s : State) (f : Bank → Bank) : (s.modB f).cmd = s.cmd := rfl
@[simp] theorem State.modB_mishap (s : State) (f : Bank → Bank) : (s.modB f).mishap = s.mishap := rfl
@[simp] theorem State.modB_svcCode (s : State) (f : Bank → Bank) : (s.modB f).svcCode = s.svcCode := rfl
@[simp] theorem State.modB_cycles (s : State) (f : Bank → Bank) : (s.modB f).cycles = s.cycles := rfl
@[simp] theorem State.modB_mem (s : State) (f : Bank → Bank) : (s.modB f).mem = s.mem := rfl
@[simp] theorem State.modB_check (s : State) (f : Bank → Bank) : (s.modB f).check = s.check := rfl
@[simp] theorem State.modB_pois (s : State) (f : Bank → Bank) : (s.modB f).pois = s.pois := rfl
@[simp] theorem State.modB_tlb (s : State) (f : Bank → Bank) : (s.modB f).tlb = s.tlb := rfl
@[simp] theorem State.modB_comm (s : State) (f : Bank → Bank) : (s.modB f).comm = s.comm := rfl
@[simp] theorem State.modB_pend (s : State) (f : Bank → Bank) : (s.modB f).pend = s.pend := rfl
@[simp] theorem State.modB_stale (s : State) (f : Bank → Bank) : (s.modB f).stale = s.stale := rfl
@[simp] theorem State.modB_code (s : State) (f : Bank → Bank) : (s.modB f).code = s.code := rfl
@[simp] theorem State.modB_cores (s : State) (f : Bank → Bank) : (s.modB f).cores = s.cores := rfl
@[simp] theorem State.modB_counters (s : State) (f : Bank → Bank) : (s.modB f).counters = s.counters := rfl
@[simp] theorem State.modB_clusters (s : State) (f : Bank → Bank) : (s.modB f).clusters = s.clusters := rfl
@[simp] theorem State.modB_groups (s : State) (f : Bank → Bank) : (s.modB f).groups = s.groups := rfl
@[simp] theorem State.modB_dies (s : State) (f : Bank → Bank) : (s.modB f).dies = s.dies := rfl
@[simp] theorem State.modB_units (s : State) (f : Bank → Bank) : (s.modB f).units = s.units := rfl
@[simp] theorem State.modB_jobs (s : State) (f : Bank → Bank) : (s.modB f).jobs = s.jobs := rfl
@[simp] theorem State.modB_flight (s : State) (f : Bank → Bank) : (s.modB f).flight = s.flight := rfl
@[simp] theorem State.modB_ports (s : State) (f : Bank → Bank) : (s.modB f).ports = s.ports := rfl
@[simp] theorem State.modB_hcmd (s : State) (f : Bank → Bank) : (s.modB f).hcmd = s.hcmd := rfl
@[simp] theorem State.modB_hseq (s : State) (f : Bank → Bank) : (s.modB f).hseq = s.hseq := rfl
@[simp] theorem State.modB_hreason (s : State) (f : Bank → Bank) : (s.modB f).hreason = s.hreason := rfl
@[simp] theorem State.modB_hresult (s : State) (f : Bank → Bank) : (s.modB f).hresult = s.hresult := rfl
@[simp] theorem State.modB_hdrop (s : State) (f : Bank → Bank) : (s.modB f).hdrop = s.hdrop := rfl
@[simp] theorem State.modB_hbusy (s : State) (f : Bank → Bank) : (s.modB f).hbusy = s.hbusy := rfl
@[simp] theorem State.modB_eqbase (s : State) (f : Bank → Bank) : (s.modB f).eqbase = s.eqbase := rfl
@[simp] theorem State.modB_eqsize (s : State) (f : Bank → Bank) : (s.modB f).eqsize = s.eqsize := rfl
@[simp] theorem State.modB_eqhead (s : State) (f : Bank → Bank) : (s.modB f).eqhead = s.eqhead := rfl
@[simp] theorem State.modB_eqtail (s : State) (f : Bank → Bank) : (s.modB f).eqtail = s.eqtail := rfl
@[simp] theorem State.modB_evlost (s : State) (f : Bank → Bank) : (s.modB f).evlost = s.evlost := rfl
@[simp] theorem State.modB_dsplit (s : State) (f : Bank → Bank) : (s.modB f).dsplit = s.dsplit := rfl
@[simp] theorem State.modB_modid (s : State) (f : Bank → Bank) : (s.modB f).modid = s.modid := rfl
@[simp] theorem State.modB_eseq (s : State) (f : Bank → Bank) : (s.modB f).eseq = s.eseq := rfl
@[simp] theorem State.modB_evheld (s : State) (f : Bank → Bank) : (s.modB f).evheld = s.evheld := rfl
@[simp] theorem State.modB_evover (s : State) (f : Bank → Bank) : (s.modB f).evover = s.evover := rfl
@[simp] theorem State.modB_rma (s : State) (f : Bank → Bank) : (s.modB f).rma = s.rma := rfl
@[simp] theorem State.modB_karmos (s : State) (f : Bank → Bank) : (s.modB f).karmos = s.karmos := rfl

/-! ## `putB` -/

@[simp] theorem State.putB_agenda (s : State) (b : Bank) : (s.putB b).agenda = s.agenda := rfl
@[simp] theorem State.putB_freeN (s : State) (b : Bank) : (s.putB b).freeN = s.freeN := rfl
@[simp] theorem State.putB_cur (s : State) (b : Bank) : (s.putB b).cur = s.cur := rfl
@[simp] theorem State.putB_cmd (s : State) (b : Bank) : (s.putB b).cmd = s.cmd := rfl
@[simp] theorem State.putB_mishap (s : State) (b : Bank) : (s.putB b).mishap = s.mishap := rfl
@[simp] theorem State.putB_svcCode (s : State) (b : Bank) : (s.putB b).svcCode = s.svcCode := rfl
@[simp] theorem State.putB_cycles (s : State) (b : Bank) : (s.putB b).cycles = s.cycles := rfl
@[simp] theorem State.putB_mem (s : State) (b : Bank) : (s.putB b).mem = s.mem := rfl
@[simp] theorem State.putB_check (s : State) (b : Bank) : (s.putB b).check = s.check := rfl
@[simp] theorem State.putB_pois (s : State) (b : Bank) : (s.putB b).pois = s.pois := rfl
@[simp] theorem State.putB_tlb (s : State) (b : Bank) : (s.putB b).tlb = s.tlb := rfl
@[simp] theorem State.putB_comm (s : State) (b : Bank) : (s.putB b).comm = s.comm := rfl
@[simp] theorem State.putB_pend (s : State) (b : Bank) : (s.putB b).pend = s.pend := rfl
@[simp] theorem State.putB_stale (s : State) (b : Bank) : (s.putB b).stale = s.stale := rfl
@[simp] theorem State.putB_code (s : State) (b : Bank) : (s.putB b).code = s.code := rfl
@[simp] theorem State.putB_cores (s : State) (b : Bank) : (s.putB b).cores = s.cores := rfl
@[simp] theorem State.putB_counters (s : State) (b : Bank) : (s.putB b).counters = s.counters := rfl
@[simp] theorem State.putB_clusters (s : State) (b : Bank) : (s.putB b).clusters = s.clusters := rfl
@[simp] theorem State.putB_groups (s : State) (b : Bank) : (s.putB b).groups = s.groups := rfl
@[simp] theorem State.putB_dies (s : State) (b : Bank) : (s.putB b).dies = s.dies := rfl
@[simp] theorem State.putB_units (s : State) (b : Bank) : (s.putB b).units = s.units := rfl
@[simp] theorem State.putB_jobs (s : State) (b : Bank) : (s.putB b).jobs = s.jobs := rfl
@[simp] theorem State.putB_flight (s : State) (b : Bank) : (s.putB b).flight = s.flight := rfl
@[simp] theorem State.putB_ports (s : State) (b : Bank) : (s.putB b).ports = s.ports := rfl
@[simp] theorem State.putB_hcmd (s : State) (b : Bank) : (s.putB b).hcmd = s.hcmd := rfl
@[simp] theorem State.putB_hseq (s : State) (b : Bank) : (s.putB b).hseq = s.hseq := rfl
@[simp] theorem State.putB_hreason (s : State) (b : Bank) : (s.putB b).hreason = s.hreason := rfl
@[simp] theorem State.putB_hresult (s : State) (b : Bank) : (s.putB b).hresult = s.hresult := rfl
@[simp] theorem State.putB_hdrop (s : State) (b : Bank) : (s.putB b).hdrop = s.hdrop := rfl
@[simp] theorem State.putB_hbusy (s : State) (b : Bank) : (s.putB b).hbusy = s.hbusy := rfl
@[simp] theorem State.putB_eqbase (s : State) (b : Bank) : (s.putB b).eqbase = s.eqbase := rfl
@[simp] theorem State.putB_eqsize (s : State) (b : Bank) : (s.putB b).eqsize = s.eqsize := rfl
@[simp] theorem State.putB_eqhead (s : State) (b : Bank) : (s.putB b).eqhead = s.eqhead := rfl
@[simp] theorem State.putB_eqtail (s : State) (b : Bank) : (s.putB b).eqtail = s.eqtail := rfl
@[simp] theorem State.putB_evlost (s : State) (b : Bank) : (s.putB b).evlost = s.evlost := rfl
@[simp] theorem State.putB_dsplit (s : State) (b : Bank) : (s.putB b).dsplit = s.dsplit := rfl
@[simp] theorem State.putB_modid (s : State) (b : Bank) : (s.putB b).modid = s.modid := rfl
@[simp] theorem State.putB_eseq (s : State) (b : Bank) : (s.putB b).eseq = s.eseq := rfl
@[simp] theorem State.putB_evheld (s : State) (b : Bank) : (s.putB b).evheld = s.evheld := rfl
@[simp] theorem State.putB_evover (s : State) (b : Bank) : (s.putB b).evover = s.evover := rfl
@[simp] theorem State.putB_rma (s : State) (b : Bank) : (s.putB b).rma = s.rma := rfl
@[simp] theorem State.putB_karmos (s : State) (b : Bank) : (s.putB b).karmos = s.karmos := rfl

/-! ## `modCluster` -/

@[simp] theorem State.modCluster_agenda (s : State) (ck : Nat) (f : Cluster → Cluster) : (s.modCluster ck f).agenda = s.agenda := rfl
@[simp] theorem State.modCluster_freeN (s : State) (ck : Nat) (f : Cluster → Cluster) : (s.modCluster ck f).freeN = s.freeN := rfl
@[simp] theorem State.modCluster_cur (s : State) (ck : Nat) (f : Cluster → Cluster) : (s.modCluster ck f).cur = s.cur := rfl
@[simp] theorem State.modCluster_cmd (s : State) (ck : Nat) (f : Cluster → Cluster) : (s.modCluster ck f).cmd = s.cmd := rfl
@[simp] theorem State.modCluster_mishap (s : State) (ck : Nat) (f : Cluster → Cluster) : (s.modCluster ck f).mishap = s.mishap := rfl
@[simp] theorem State.modCluster_svcCode (s : State) (ck : Nat) (f : Cluster → Cluster) : (s.modCluster ck f).svcCode = s.svcCode := rfl
@[simp] theorem State.modCluster_cycles (s : State) (ck : Nat) (f : Cluster → Cluster) : (s.modCluster ck f).cycles = s.cycles := rfl
@[simp] theorem State.modCluster_mem (s : State) (ck : Nat) (f : Cluster → Cluster) : (s.modCluster ck f).mem = s.mem := rfl
@[simp] theorem State.modCluster_check (s : State) (ck : Nat) (f : Cluster → Cluster) : (s.modCluster ck f).check = s.check := rfl
@[simp] theorem State.modCluster_pois (s : State) (ck : Nat) (f : Cluster → Cluster) : (s.modCluster ck f).pois = s.pois := rfl
@[simp] theorem State.modCluster_tlb (s : State) (ck : Nat) (f : Cluster → Cluster) : (s.modCluster ck f).tlb = s.tlb := rfl
@[simp] theorem State.modCluster_comm (s : State) (ck : Nat) (f : Cluster → Cluster) : (s.modCluster ck f).comm = s.comm := rfl
@[simp] theorem State.modCluster_pend (s : State) (ck : Nat) (f : Cluster → Cluster) : (s.modCluster ck f).pend = s.pend := rfl
@[simp] theorem State.modCluster_stale (s : State) (ck : Nat) (f : Cluster → Cluster) : (s.modCluster ck f).stale = s.stale := rfl
@[simp] theorem State.modCluster_code (s : State) (ck : Nat) (f : Cluster → Cluster) : (s.modCluster ck f).code = s.code := rfl
@[simp] theorem State.modCluster_banks (s : State) (ck : Nat) (f : Cluster → Cluster) : (s.modCluster ck f).banks = s.banks := rfl
@[simp] theorem State.modCluster_cores (s : State) (ck : Nat) (f : Cluster → Cluster) : (s.modCluster ck f).cores = s.cores := rfl
@[simp] theorem State.modCluster_counters (s : State) (ck : Nat) (f : Cluster → Cluster) : (s.modCluster ck f).counters = s.counters := rfl
@[simp] theorem State.modCluster_groups (s : State) (ck : Nat) (f : Cluster → Cluster) : (s.modCluster ck f).groups = s.groups := rfl
@[simp] theorem State.modCluster_dies (s : State) (ck : Nat) (f : Cluster → Cluster) : (s.modCluster ck f).dies = s.dies := rfl
@[simp] theorem State.modCluster_units (s : State) (ck : Nat) (f : Cluster → Cluster) : (s.modCluster ck f).units = s.units := rfl
@[simp] theorem State.modCluster_jobs (s : State) (ck : Nat) (f : Cluster → Cluster) : (s.modCluster ck f).jobs = s.jobs := rfl
@[simp] theorem State.modCluster_flight (s : State) (ck : Nat) (f : Cluster → Cluster) : (s.modCluster ck f).flight = s.flight := rfl
@[simp] theorem State.modCluster_ports (s : State) (ck : Nat) (f : Cluster → Cluster) : (s.modCluster ck f).ports = s.ports := rfl
@[simp] theorem State.modCluster_hcmd (s : State) (ck : Nat) (f : Cluster → Cluster) : (s.modCluster ck f).hcmd = s.hcmd := rfl
@[simp] theorem State.modCluster_hseq (s : State) (ck : Nat) (f : Cluster → Cluster) : (s.modCluster ck f).hseq = s.hseq := rfl
@[simp] theorem State.modCluster_hreason (s : State) (ck : Nat) (f : Cluster → Cluster) : (s.modCluster ck f).hreason = s.hreason := rfl
@[simp] theorem State.modCluster_hresult (s : State) (ck : Nat) (f : Cluster → Cluster) : (s.modCluster ck f).hresult = s.hresult := rfl
@[simp] theorem State.modCluster_hdrop (s : State) (ck : Nat) (f : Cluster → Cluster) : (s.modCluster ck f).hdrop = s.hdrop := rfl
@[simp] theorem State.modCluster_hbusy (s : State) (ck : Nat) (f : Cluster → Cluster) : (s.modCluster ck f).hbusy = s.hbusy := rfl
@[simp] theorem State.modCluster_eqbase (s : State) (ck : Nat) (f : Cluster → Cluster) : (s.modCluster ck f).eqbase = s.eqbase := rfl
@[simp] theorem State.modCluster_eqsize (s : State) (ck : Nat) (f : Cluster → Cluster) : (s.modCluster ck f).eqsize = s.eqsize := rfl
@[simp] theorem State.modCluster_eqhead (s : State) (ck : Nat) (f : Cluster → Cluster) : (s.modCluster ck f).eqhead = s.eqhead := rfl
@[simp] theorem State.modCluster_eqtail (s : State) (ck : Nat) (f : Cluster → Cluster) : (s.modCluster ck f).eqtail = s.eqtail := rfl
@[simp] theorem State.modCluster_evlost (s : State) (ck : Nat) (f : Cluster → Cluster) : (s.modCluster ck f).evlost = s.evlost := rfl
@[simp] theorem State.modCluster_dsplit (s : State) (ck : Nat) (f : Cluster → Cluster) : (s.modCluster ck f).dsplit = s.dsplit := rfl
@[simp] theorem State.modCluster_modid (s : State) (ck : Nat) (f : Cluster → Cluster) : (s.modCluster ck f).modid = s.modid := rfl
@[simp] theorem State.modCluster_eseq (s : State) (ck : Nat) (f : Cluster → Cluster) : (s.modCluster ck f).eseq = s.eseq := rfl
@[simp] theorem State.modCluster_evheld (s : State) (ck : Nat) (f : Cluster → Cluster) : (s.modCluster ck f).evheld = s.evheld := rfl
@[simp] theorem State.modCluster_evover (s : State) (ck : Nat) (f : Cluster → Cluster) : (s.modCluster ck f).evover = s.evover := rfl
@[simp] theorem State.modCluster_rma (s : State) (ck : Nat) (f : Cluster → Cluster) : (s.modCluster ck f).rma = s.rma := rfl
@[simp] theorem State.modCluster_karmos (s : State) (ck : Nat) (f : Cluster → Cluster) : (s.modCluster ck f).karmos = s.karmos := rfl

/-! ## `modJob` -/

@[simp] theorem State.modJob_agenda (s : State) (j : Nat) (f : Job → Job) : (s.modJob j f).agenda = s.agenda := rfl
@[simp] theorem State.modJob_freeN (s : State) (j : Nat) (f : Job → Job) : (s.modJob j f).freeN = s.freeN := rfl
@[simp] theorem State.modJob_cur (s : State) (j : Nat) (f : Job → Job) : (s.modJob j f).cur = s.cur := rfl
@[simp] theorem State.modJob_cmd (s : State) (j : Nat) (f : Job → Job) : (s.modJob j f).cmd = s.cmd := rfl
@[simp] theorem State.modJob_mishap (s : State) (j : Nat) (f : Job → Job) : (s.modJob j f).mishap = s.mishap := rfl
@[simp] theorem State.modJob_svcCode (s : State) (j : Nat) (f : Job → Job) : (s.modJob j f).svcCode = s.svcCode := rfl
@[simp] theorem State.modJob_cycles (s : State) (j : Nat) (f : Job → Job) : (s.modJob j f).cycles = s.cycles := rfl
@[simp] theorem State.modJob_mem (s : State) (j : Nat) (f : Job → Job) : (s.modJob j f).mem = s.mem := rfl
@[simp] theorem State.modJob_check (s : State) (j : Nat) (f : Job → Job) : (s.modJob j f).check = s.check := rfl
@[simp] theorem State.modJob_pois (s : State) (j : Nat) (f : Job → Job) : (s.modJob j f).pois = s.pois := rfl
@[simp] theorem State.modJob_tlb (s : State) (j : Nat) (f : Job → Job) : (s.modJob j f).tlb = s.tlb := rfl
@[simp] theorem State.modJob_comm (s : State) (j : Nat) (f : Job → Job) : (s.modJob j f).comm = s.comm := rfl
@[simp] theorem State.modJob_pend (s : State) (j : Nat) (f : Job → Job) : (s.modJob j f).pend = s.pend := rfl
@[simp] theorem State.modJob_stale (s : State) (j : Nat) (f : Job → Job) : (s.modJob j f).stale = s.stale := rfl
@[simp] theorem State.modJob_code (s : State) (j : Nat) (f : Job → Job) : (s.modJob j f).code = s.code := rfl
@[simp] theorem State.modJob_banks (s : State) (j : Nat) (f : Job → Job) : (s.modJob j f).banks = s.banks := rfl
@[simp] theorem State.modJob_cores (s : State) (j : Nat) (f : Job → Job) : (s.modJob j f).cores = s.cores := rfl
@[simp] theorem State.modJob_counters (s : State) (j : Nat) (f : Job → Job) : (s.modJob j f).counters = s.counters := rfl
@[simp] theorem State.modJob_clusters (s : State) (j : Nat) (f : Job → Job) : (s.modJob j f).clusters = s.clusters := rfl
@[simp] theorem State.modJob_groups (s : State) (j : Nat) (f : Job → Job) : (s.modJob j f).groups = s.groups := rfl
@[simp] theorem State.modJob_dies (s : State) (j : Nat) (f : Job → Job) : (s.modJob j f).dies = s.dies := rfl
@[simp] theorem State.modJob_units (s : State) (j : Nat) (f : Job → Job) : (s.modJob j f).units = s.units := rfl
@[simp] theorem State.modJob_flight (s : State) (j : Nat) (f : Job → Job) : (s.modJob j f).flight = s.flight := rfl
@[simp] theorem State.modJob_ports (s : State) (j : Nat) (f : Job → Job) : (s.modJob j f).ports = s.ports := rfl
@[simp] theorem State.modJob_hcmd (s : State) (j : Nat) (f : Job → Job) : (s.modJob j f).hcmd = s.hcmd := rfl
@[simp] theorem State.modJob_hseq (s : State) (j : Nat) (f : Job → Job) : (s.modJob j f).hseq = s.hseq := rfl
@[simp] theorem State.modJob_hreason (s : State) (j : Nat) (f : Job → Job) : (s.modJob j f).hreason = s.hreason := rfl
@[simp] theorem State.modJob_hresult (s : State) (j : Nat) (f : Job → Job) : (s.modJob j f).hresult = s.hresult := rfl
@[simp] theorem State.modJob_hdrop (s : State) (j : Nat) (f : Job → Job) : (s.modJob j f).hdrop = s.hdrop := rfl
@[simp] theorem State.modJob_hbusy (s : State) (j : Nat) (f : Job → Job) : (s.modJob j f).hbusy = s.hbusy := rfl
@[simp] theorem State.modJob_eqbase (s : State) (j : Nat) (f : Job → Job) : (s.modJob j f).eqbase = s.eqbase := rfl
@[simp] theorem State.modJob_eqsize (s : State) (j : Nat) (f : Job → Job) : (s.modJob j f).eqsize = s.eqsize := rfl
@[simp] theorem State.modJob_eqhead (s : State) (j : Nat) (f : Job → Job) : (s.modJob j f).eqhead = s.eqhead := rfl
@[simp] theorem State.modJob_eqtail (s : State) (j : Nat) (f : Job → Job) : (s.modJob j f).eqtail = s.eqtail := rfl
@[simp] theorem State.modJob_evlost (s : State) (j : Nat) (f : Job → Job) : (s.modJob j f).evlost = s.evlost := rfl
@[simp] theorem State.modJob_dsplit (s : State) (j : Nat) (f : Job → Job) : (s.modJob j f).dsplit = s.dsplit := rfl
@[simp] theorem State.modJob_modid (s : State) (j : Nat) (f : Job → Job) : (s.modJob j f).modid = s.modid := rfl
@[simp] theorem State.modJob_eseq (s : State) (j : Nat) (f : Job → Job) : (s.modJob j f).eseq = s.eseq := rfl
@[simp] theorem State.modJob_evheld (s : State) (j : Nat) (f : Job → Job) : (s.modJob j f).evheld = s.evheld := rfl
@[simp] theorem State.modJob_evover (s : State) (j : Nat) (f : Job → Job) : (s.modJob j f).evover = s.evover := rfl
@[simp] theorem State.modJob_rma (s : State) (j : Nat) (f : Job → Job) : (s.modJob j f).rma = s.rma := rfl
@[simp] theorem State.modJob_karmos (s : State) (j : Nat) (f : Job → Job) : (s.modJob j f).karmos = s.karmos := rfl

/-! ## `modDie` -/

@[simp] theorem State.modDie_agenda (s : State) (d : Nat) (f : Die → Die) : (s.modDie d f).agenda = s.agenda := rfl
@[simp] theorem State.modDie_freeN (s : State) (d : Nat) (f : Die → Die) : (s.modDie d f).freeN = s.freeN := rfl
@[simp] theorem State.modDie_cur (s : State) (d : Nat) (f : Die → Die) : (s.modDie d f).cur = s.cur := rfl
@[simp] theorem State.modDie_cmd (s : State) (d : Nat) (f : Die → Die) : (s.modDie d f).cmd = s.cmd := rfl
@[simp] theorem State.modDie_mishap (s : State) (d : Nat) (f : Die → Die) : (s.modDie d f).mishap = s.mishap := rfl
@[simp] theorem State.modDie_svcCode (s : State) (d : Nat) (f : Die → Die) : (s.modDie d f).svcCode = s.svcCode := rfl
@[simp] theorem State.modDie_cycles (s : State) (d : Nat) (f : Die → Die) : (s.modDie d f).cycles = s.cycles := rfl
@[simp] theorem State.modDie_mem (s : State) (d : Nat) (f : Die → Die) : (s.modDie d f).mem = s.mem := rfl
@[simp] theorem State.modDie_check (s : State) (d : Nat) (f : Die → Die) : (s.modDie d f).check = s.check := rfl
@[simp] theorem State.modDie_pois (s : State) (d : Nat) (f : Die → Die) : (s.modDie d f).pois = s.pois := rfl
@[simp] theorem State.modDie_tlb (s : State) (d : Nat) (f : Die → Die) : (s.modDie d f).tlb = s.tlb := rfl
@[simp] theorem State.modDie_comm (s : State) (d : Nat) (f : Die → Die) : (s.modDie d f).comm = s.comm := rfl
@[simp] theorem State.modDie_pend (s : State) (d : Nat) (f : Die → Die) : (s.modDie d f).pend = s.pend := rfl
@[simp] theorem State.modDie_stale (s : State) (d : Nat) (f : Die → Die) : (s.modDie d f).stale = s.stale := rfl
@[simp] theorem State.modDie_code (s : State) (d : Nat) (f : Die → Die) : (s.modDie d f).code = s.code := rfl
@[simp] theorem State.modDie_banks (s : State) (d : Nat) (f : Die → Die) : (s.modDie d f).banks = s.banks := rfl
@[simp] theorem State.modDie_cores (s : State) (d : Nat) (f : Die → Die) : (s.modDie d f).cores = s.cores := rfl
@[simp] theorem State.modDie_counters (s : State) (d : Nat) (f : Die → Die) : (s.modDie d f).counters = s.counters := rfl
@[simp] theorem State.modDie_clusters (s : State) (d : Nat) (f : Die → Die) : (s.modDie d f).clusters = s.clusters := rfl
@[simp] theorem State.modDie_groups (s : State) (d : Nat) (f : Die → Die) : (s.modDie d f).groups = s.groups := rfl
@[simp] theorem State.modDie_units (s : State) (d : Nat) (f : Die → Die) : (s.modDie d f).units = s.units := rfl
@[simp] theorem State.modDie_jobs (s : State) (d : Nat) (f : Die → Die) : (s.modDie d f).jobs = s.jobs := rfl
@[simp] theorem State.modDie_flight (s : State) (d : Nat) (f : Die → Die) : (s.modDie d f).flight = s.flight := rfl
@[simp] theorem State.modDie_ports (s : State) (d : Nat) (f : Die → Die) : (s.modDie d f).ports = s.ports := rfl
@[simp] theorem State.modDie_hcmd (s : State) (d : Nat) (f : Die → Die) : (s.modDie d f).hcmd = s.hcmd := rfl
@[simp] theorem State.modDie_hseq (s : State) (d : Nat) (f : Die → Die) : (s.modDie d f).hseq = s.hseq := rfl
@[simp] theorem State.modDie_hreason (s : State) (d : Nat) (f : Die → Die) : (s.modDie d f).hreason = s.hreason := rfl
@[simp] theorem State.modDie_hresult (s : State) (d : Nat) (f : Die → Die) : (s.modDie d f).hresult = s.hresult := rfl
@[simp] theorem State.modDie_hdrop (s : State) (d : Nat) (f : Die → Die) : (s.modDie d f).hdrop = s.hdrop := rfl
@[simp] theorem State.modDie_hbusy (s : State) (d : Nat) (f : Die → Die) : (s.modDie d f).hbusy = s.hbusy := rfl
@[simp] theorem State.modDie_eqbase (s : State) (d : Nat) (f : Die → Die) : (s.modDie d f).eqbase = s.eqbase := rfl
@[simp] theorem State.modDie_eqsize (s : State) (d : Nat) (f : Die → Die) : (s.modDie d f).eqsize = s.eqsize := rfl
@[simp] theorem State.modDie_eqhead (s : State) (d : Nat) (f : Die → Die) : (s.modDie d f).eqhead = s.eqhead := rfl
@[simp] theorem State.modDie_eqtail (s : State) (d : Nat) (f : Die → Die) : (s.modDie d f).eqtail = s.eqtail := rfl
@[simp] theorem State.modDie_evlost (s : State) (d : Nat) (f : Die → Die) : (s.modDie d f).evlost = s.evlost := rfl
@[simp] theorem State.modDie_dsplit (s : State) (d : Nat) (f : Die → Die) : (s.modDie d f).dsplit = s.dsplit := rfl
@[simp] theorem State.modDie_modid (s : State) (d : Nat) (f : Die → Die) : (s.modDie d f).modid = s.modid := rfl
@[simp] theorem State.modDie_eseq (s : State) (d : Nat) (f : Die → Die) : (s.modDie d f).eseq = s.eseq := rfl
@[simp] theorem State.modDie_evheld (s : State) (d : Nat) (f : Die → Die) : (s.modDie d f).evheld = s.evheld := rfl
@[simp] theorem State.modDie_evover (s : State) (d : Nat) (f : Die → Die) : (s.modDie d f).evover = s.evover := rfl
@[simp] theorem State.modDie_rma (s : State) (d : Nat) (f : Die → Die) : (s.modDie d f).rma = s.rma := rfl
@[simp] theorem State.modDie_karmos (s : State) (d : Nat) (f : Die → Die) : (s.modDie d f).karmos = s.karmos := rfl

/-! ## `modUnit` -/

@[simp] theorem State.modUnit_agenda (s : State) (u : Nat) (f : UnitRec → UnitRec) : (s.modUnit u f).agenda = s.agenda := rfl
@[simp] theorem State.modUnit_freeN (s : State) (u : Nat) (f : UnitRec → UnitRec) : (s.modUnit u f).freeN = s.freeN := rfl
@[simp] theorem State.modUnit_cur (s : State) (u : Nat) (f : UnitRec → UnitRec) : (s.modUnit u f).cur = s.cur := rfl
@[simp] theorem State.modUnit_cmd (s : State) (u : Nat) (f : UnitRec → UnitRec) : (s.modUnit u f).cmd = s.cmd := rfl
@[simp] theorem State.modUnit_mishap (s : State) (u : Nat) (f : UnitRec → UnitRec) : (s.modUnit u f).mishap = s.mishap := rfl
@[simp] theorem State.modUnit_svcCode (s : State) (u : Nat) (f : UnitRec → UnitRec) : (s.modUnit u f).svcCode = s.svcCode := rfl
@[simp] theorem State.modUnit_cycles (s : State) (u : Nat) (f : UnitRec → UnitRec) : (s.modUnit u f).cycles = s.cycles := rfl
@[simp] theorem State.modUnit_mem (s : State) (u : Nat) (f : UnitRec → UnitRec) : (s.modUnit u f).mem = s.mem := rfl
@[simp] theorem State.modUnit_check (s : State) (u : Nat) (f : UnitRec → UnitRec) : (s.modUnit u f).check = s.check := rfl
@[simp] theorem State.modUnit_pois (s : State) (u : Nat) (f : UnitRec → UnitRec) : (s.modUnit u f).pois = s.pois := rfl
@[simp] theorem State.modUnit_tlb (s : State) (u : Nat) (f : UnitRec → UnitRec) : (s.modUnit u f).tlb = s.tlb := rfl
@[simp] theorem State.modUnit_comm (s : State) (u : Nat) (f : UnitRec → UnitRec) : (s.modUnit u f).comm = s.comm := rfl
@[simp] theorem State.modUnit_pend (s : State) (u : Nat) (f : UnitRec → UnitRec) : (s.modUnit u f).pend = s.pend := rfl
@[simp] theorem State.modUnit_stale (s : State) (u : Nat) (f : UnitRec → UnitRec) : (s.modUnit u f).stale = s.stale := rfl
@[simp] theorem State.modUnit_code (s : State) (u : Nat) (f : UnitRec → UnitRec) : (s.modUnit u f).code = s.code := rfl
@[simp] theorem State.modUnit_banks (s : State) (u : Nat) (f : UnitRec → UnitRec) : (s.modUnit u f).banks = s.banks := rfl
@[simp] theorem State.modUnit_cores (s : State) (u : Nat) (f : UnitRec → UnitRec) : (s.modUnit u f).cores = s.cores := rfl
@[simp] theorem State.modUnit_counters (s : State) (u : Nat) (f : UnitRec → UnitRec) : (s.modUnit u f).counters = s.counters := rfl
@[simp] theorem State.modUnit_clusters (s : State) (u : Nat) (f : UnitRec → UnitRec) : (s.modUnit u f).clusters = s.clusters := rfl
@[simp] theorem State.modUnit_groups (s : State) (u : Nat) (f : UnitRec → UnitRec) : (s.modUnit u f).groups = s.groups := rfl
@[simp] theorem State.modUnit_dies (s : State) (u : Nat) (f : UnitRec → UnitRec) : (s.modUnit u f).dies = s.dies := rfl
@[simp] theorem State.modUnit_jobs (s : State) (u : Nat) (f : UnitRec → UnitRec) : (s.modUnit u f).jobs = s.jobs := rfl
@[simp] theorem State.modUnit_flight (s : State) (u : Nat) (f : UnitRec → UnitRec) : (s.modUnit u f).flight = s.flight := rfl
@[simp] theorem State.modUnit_ports (s : State) (u : Nat) (f : UnitRec → UnitRec) : (s.modUnit u f).ports = s.ports := rfl
@[simp] theorem State.modUnit_hcmd (s : State) (u : Nat) (f : UnitRec → UnitRec) : (s.modUnit u f).hcmd = s.hcmd := rfl
@[simp] theorem State.modUnit_hseq (s : State) (u : Nat) (f : UnitRec → UnitRec) : (s.modUnit u f).hseq = s.hseq := rfl
@[simp] theorem State.modUnit_hreason (s : State) (u : Nat) (f : UnitRec → UnitRec) : (s.modUnit u f).hreason = s.hreason := rfl
@[simp] theorem State.modUnit_hresult (s : State) (u : Nat) (f : UnitRec → UnitRec) : (s.modUnit u f).hresult = s.hresult := rfl
@[simp] theorem State.modUnit_hdrop (s : State) (u : Nat) (f : UnitRec → UnitRec) : (s.modUnit u f).hdrop = s.hdrop := rfl
@[simp] theorem State.modUnit_hbusy (s : State) (u : Nat) (f : UnitRec → UnitRec) : (s.modUnit u f).hbusy = s.hbusy := rfl
@[simp] theorem State.modUnit_eqbase (s : State) (u : Nat) (f : UnitRec → UnitRec) : (s.modUnit u f).eqbase = s.eqbase := rfl
@[simp] theorem State.modUnit_eqsize (s : State) (u : Nat) (f : UnitRec → UnitRec) : (s.modUnit u f).eqsize = s.eqsize := rfl
@[simp] theorem State.modUnit_eqhead (s : State) (u : Nat) (f : UnitRec → UnitRec) : (s.modUnit u f).eqhead = s.eqhead := rfl
@[simp] theorem State.modUnit_eqtail (s : State) (u : Nat) (f : UnitRec → UnitRec) : (s.modUnit u f).eqtail = s.eqtail := rfl
@[simp] theorem State.modUnit_evlost (s : State) (u : Nat) (f : UnitRec → UnitRec) : (s.modUnit u f).evlost = s.evlost := rfl
@[simp] theorem State.modUnit_dsplit (s : State) (u : Nat) (f : UnitRec → UnitRec) : (s.modUnit u f).dsplit = s.dsplit := rfl
@[simp] theorem State.modUnit_modid (s : State) (u : Nat) (f : UnitRec → UnitRec) : (s.modUnit u f).modid = s.modid := rfl
@[simp] theorem State.modUnit_eseq (s : State) (u : Nat) (f : UnitRec → UnitRec) : (s.modUnit u f).eseq = s.eseq := rfl
@[simp] theorem State.modUnit_evheld (s : State) (u : Nat) (f : UnitRec → UnitRec) : (s.modUnit u f).evheld = s.evheld := rfl
@[simp] theorem State.modUnit_evover (s : State) (u : Nat) (f : UnitRec → UnitRec) : (s.modUnit u f).evover = s.evover := rfl
@[simp] theorem State.modUnit_rma (s : State) (u : Nat) (f : UnitRec → UnitRec) : (s.modUnit u f).rma = s.rma := rfl
@[simp] theorem State.modUnit_karmos (s : State) (u : Nat) (f : UnitRec → UnitRec) : (s.modUnit u f).karmos = s.karmos := rfl

/-! ## A bank -/

@[simp] theorem Bank.setX_pc (b : Bank) (r : Reg) (v : W64) (p : Bool) : (b.setX r v p).pc = b.pc := by unfold Bank.setX; split <;> rfl
@[simp] theorem Bank.setX_st (b : Bank) (r : Reg) (v : W64) (p : Bool) : (b.setX r v p).st = b.st := by unfold Bank.setX; split <;> rfl
@[simp] theorem Bank.setX_wait (b : Bank) (r : Reg) (v : W64) (p : Bool) : (b.setX r v p).wait = b.wait := by unfold Bank.setX; split <;> rfl
@[simp] theorem Bank.setX_service (b : Bank) (r : Reg) (v : W64) (p : Bool) : (b.setX r v p).service = b.service := by unfold Bank.setX; split <;> rfl
@[simp] theorem Bank.setX_svc (b : Bank) (r : Reg) (v : W64) (p : Bool) : (b.setX r v p).svc = b.svc := by unfold Bank.setX; split <;> rfl
@[simp] theorem Bank.setX_svcp (b : Bank) (r : Reg) (v : W64) (p : Bool) : (b.setX r v p).svcp = b.svcp := by unfold Bank.setX; split <;> rfl
@[simp] theorem Bank.setX_v (b : Bank) (r : Reg) (v : W64) (p : Bool) : (b.setX r v p).v = b.v := by unfold Bank.setX; split <;> rfl
@[simp] theorem Bank.setX_vp (b : Bank) (r : Reg) (v : W64) (p : Bool) : (b.setX r v p).vp = b.vp := by unfold Bank.setX; split <;> rfl
@[simp] theorem Bank.setX_p (b : Bank) (r : Reg) (v : W64) (p : Bool) : (b.setX r v p).p = b.p := by unfold Bank.setX; split <;> rfl
@[simp] theorem Bank.setX_chki (b : Bank) (r : Reg) (v : W64) (p : Bool) : (b.setX r v p).chki = b.chki := by unfold Bank.setX; split <;> rfl
@[simp] theorem Bank.setX_aflags (b : Bank) (r : Reg) (v : W64) (p : Bool) : (b.setX r v p).aflags = b.aflags := by unfold Bank.setX; split <;> rfl
@[simp] theorem Bank.setX_rndm (b : Bank) (r : Reg) (v : W64) (p : Bool) : (b.setX r v p).rndm = b.rndm := by unfold Bank.setX; split <;> rfl
@[simp] theorem Bank.setX_vcfg (b : Bank) (r : Reg) (v : W64) (p : Bool) : (b.setX r v p).vcfg = b.vcfg := by unfold Bank.setX; split <;> rfl
@[simp] theorem Bank.setX_lglen (b : Bank) (r : Reg) (v : W64) (p : Bool) : (b.setX r v p).lglen = b.lglen := by unfold Bank.setX; split <;> rfl
@[simp] theorem Bank.setX_lgact (b : Bank) (r : Reg) (v : W64) (p : Bool) : (b.setX r v p).lgact = b.lgact := by unfold Bank.setX; split <;> rfl
@[simp] theorem Bank.setX_sqtraps (b : Bank) (r : Reg) (v : W64) (p : Bool) : (b.setX r v p).sqtraps = b.sqtraps := by unfold Bank.setX; split <;> rfl
@[simp] theorem Bank.setX_maskOn (b : Bank) (r : Reg) (v : W64) (p : Bool) : (b.setX r v p).maskOn = b.maskOn := by unfold Bank.setX; split <;> rfl
@[simp] theorem Bank.setX_maskLeft (b : Bank) (r : Reg) (v : W64) (p : Bool) : (b.setX r v p).maskLeft = b.maskLeft := by unfold Bank.setX; split <;> rfl
@[simp] theorem Bank.setX_maskStart (b : Bank) (r : Reg) (v : W64) (p : Bool) : (b.setX r v p).maskStart = b.maskStart := by unfold Bank.setX; split <;> rfl
@[simp] theorem Bank.setX_maskDue (b : Bank) (r : Reg) (v : W64) (p : Bool) : (b.setX r v p).maskDue = b.maskDue := by unfold Bank.setX; split <;> rfl
@[simp] theorem Bank.setX_vstr (b : Bank) (r : Reg) (v : W64) (p : Bool) : (b.setX r v p).vstr = b.vstr := by unfold Bank.setX; split <;> rfl
@[simp] theorem Bank.setX_tcause (b : Bank) (r : Reg) (v : W64) (p : Bool) : (b.setX r v p).tcause = b.tcause := by unfold Bank.setX; split <;> rfl
@[simp] theorem Bank.setX_tval (b : Bank) (r : Reg) (v : W64) (p : Bool) : (b.setX r v p).tval = b.tval := by unfold Bank.setX; split <;> rfl
@[simp] theorem Bank.setX_tepc (b : Bank) (r : Reg) (v : W64) (p : Bool) : (b.setX r v p).tepc = b.tepc := by unfold Bank.setX; split <;> rfl
@[simp] theorem Bank.setX_tstat (b : Bank) (r : Reg) (v : W64) (p : Bool) : (b.setX r v p).tstat = b.tstat := by unfold Bank.setX; split <;> rfl
@[simp] theorem Bank.setX_tvec (b : Bank) (r : Reg) (v : W64) (p : Bool) : (b.setX r v p).tvec = b.tvec := by unfold Bank.setX; split <;> rfl
@[simp] theorem Bank.setX_seq (b : Bank) (r : Reg) (v : W64) (p : Bool) : (b.setX r v p).seq = b.seq := by unfold Bank.setX; split <;> rfl
@[simp] theorem Bank.setX_job (b : Bank) (r : Reg) (v : W64) (p : Bool) : (b.setX r v p).job = b.job := by unfold Bank.setX; split <;> rfl
@[simp] theorem Bank.setX_hid (b : Bank) (r : Reg) (v : W64) (p : Bool) : (b.setX r v p).hid = b.hid := by unfold Bank.setX; split <;> rfl
@[simp] theorem Bank.setX_msg (b : Bank) (r : Reg) (v : W64) (p : Bool) : (b.setX r v p).msg = b.msg := by unfold Bank.setX; split <;> rfl
@[simp] theorem Bank.setX_cursor (b : Bank) (r : Reg) (v : W64) (p : Bool) : (b.setX r v p).cursor = b.cursor := by unfold Bank.setX; split <;> rfl
@[simp] theorem Bank.setX_buf (b : Bank) (r : Reg) (v : W64) (p : Bool) : (b.setX r v p).buf = b.buf := by unfold Bank.setX; split <;> rfl
@[simp] theorem Bank.setX_reply (b : Bank) (r : Reg) (v : W64) (p : Bool) : (b.setX r v p).reply = b.reply := by unfold Bank.setX; split <;> rfl
@[simp] theorem Bank.setX_slots (b : Bank) (r : Reg) (v : W64) (p : Bool) : (b.setX r v p).slots = b.slots := by unfold Bank.setX; split <;> rfl
@[simp] theorem Bank.setX_slotJob (b : Bank) (r : Reg) (v : W64) (p : Bool) : (b.setX r v p).slotJob = b.slotJob := by unfold Bank.setX; split <;> rfl
@[simp] theorem Bank.setX_entries (b : Bank) (r : Reg) (v : W64) (p : Bool) : (b.setX r v p).entries = b.entries := by unfold Bank.setX; split <;> rfl
@[simp] theorem Bank.setX_preempt (b : Bank) (r : Reg) (v : W64) (p : Bool) : (b.setX r v p).preempt = b.preempt := by unfold Bank.setX; split <;> rfl
@[simp] theorem Bank.setX_owed (b : Bank) (r : Reg) (v : W64) (p : Bool) : (b.setX r v p).owed = b.owed := by unfold Bank.setX; split <;> rfl
@[simp] theorem Bank.setX_loads (b : Bank) (r : Reg) (v : W64) (p : Bool) : (b.setX r v p).loads = b.loads := by unfold Bank.setX; split <;> rfl
@[simp] theorem Bank.setX_since (b : Bank) (r : Reg) (v : W64) (p : Bool) : (b.setX r v p).since = b.since := by unfold Bank.setX; split <;> rfl
@[simp] theorem Bank.setX_deadline (b : Bank) (r : Reg) (v : W64) (p : Bool) : (b.setX r v p).deadline = b.deadline := by unfold Bank.setX; split <;> rfl
@[simp] theorem Bank.setX_redo (b : Bank) (r : Reg) (v : W64) (p : Bool) : (b.setX r v p).redo = b.redo := by unfold Bank.setX; split <;> rfl
@[simp] theorem Bank.setV_pc (b : Bank) (k : Nat) (v : V256) (p : BitVec 8) : (b.setV k v p).pc = b.pc := by unfold Bank.setV; split <;> rfl
@[simp] theorem Bank.setV_st (b : Bank) (k : Nat) (v : V256) (p : BitVec 8) : (b.setV k v p).st = b.st := by unfold Bank.setV; split <;> rfl
@[simp] theorem Bank.setV_wait (b : Bank) (k : Nat) (v : V256) (p : BitVec 8) : (b.setV k v p).wait = b.wait := by unfold Bank.setV; split <;> rfl
@[simp] theorem Bank.setV_service (b : Bank) (k : Nat) (v : V256) (p : BitVec 8) : (b.setV k v p).service = b.service := by unfold Bank.setV; split <;> rfl
@[simp] theorem Bank.setV_x (b : Bank) (k : Nat) (v : V256) (p : BitVec 8) : (b.setV k v p).x = b.x := by unfold Bank.setV; split <;> rfl
@[simp] theorem Bank.setV_xp (b : Bank) (k : Nat) (v : V256) (p : BitVec 8) : (b.setV k v p).xp = b.xp := by unfold Bank.setV; split <;> rfl
@[simp] theorem Bank.setV_svc (b : Bank) (k : Nat) (v : V256) (p : BitVec 8) : (b.setV k v p).svc = b.svc := by unfold Bank.setV; split <;> rfl
@[simp] theorem Bank.setV_svcp (b : Bank) (k : Nat) (v : V256) (p : BitVec 8) : (b.setV k v p).svcp = b.svcp := by unfold Bank.setV; split <;> rfl
@[simp] theorem Bank.setV_p (b : Bank) (k : Nat) (v : V256) (p : BitVec 8) : (b.setV k v p).p = b.p := by unfold Bank.setV; split <;> rfl
@[simp] theorem Bank.setV_chki (b : Bank) (k : Nat) (v : V256) (p : BitVec 8) : (b.setV k v p).chki = b.chki := by unfold Bank.setV; split <;> rfl
@[simp] theorem Bank.setV_aflags (b : Bank) (k : Nat) (v : V256) (p : BitVec 8) : (b.setV k v p).aflags = b.aflags := by unfold Bank.setV; split <;> rfl
@[simp] theorem Bank.setV_rndm (b : Bank) (k : Nat) (v : V256) (p : BitVec 8) : (b.setV k v p).rndm = b.rndm := by unfold Bank.setV; split <;> rfl
@[simp] theorem Bank.setV_vcfg (b : Bank) (k : Nat) (v : V256) (p : BitVec 8) : (b.setV k v p).vcfg = b.vcfg := by unfold Bank.setV; split <;> rfl
@[simp] theorem Bank.setV_lglen (b : Bank) (k : Nat) (v : V256) (p : BitVec 8) : (b.setV k v p).lglen = b.lglen := by unfold Bank.setV; split <;> rfl
@[simp] theorem Bank.setV_lgact (b : Bank) (k : Nat) (v : V256) (p : BitVec 8) : (b.setV k v p).lgact = b.lgact := by unfold Bank.setV; split <;> rfl
@[simp] theorem Bank.setV_sqtraps (b : Bank) (k : Nat) (v : V256) (p : BitVec 8) : (b.setV k v p).sqtraps = b.sqtraps := by unfold Bank.setV; split <;> rfl
@[simp] theorem Bank.setV_maskOn (b : Bank) (k : Nat) (v : V256) (p : BitVec 8) : (b.setV k v p).maskOn = b.maskOn := by unfold Bank.setV; split <;> rfl
@[simp] theorem Bank.setV_maskLeft (b : Bank) (k : Nat) (v : V256) (p : BitVec 8) : (b.setV k v p).maskLeft = b.maskLeft := by unfold Bank.setV; split <;> rfl
@[simp] theorem Bank.setV_maskStart (b : Bank) (k : Nat) (v : V256) (p : BitVec 8) : (b.setV k v p).maskStart = b.maskStart := by unfold Bank.setV; split <;> rfl
@[simp] theorem Bank.setV_maskDue (b : Bank) (k : Nat) (v : V256) (p : BitVec 8) : (b.setV k v p).maskDue = b.maskDue := by unfold Bank.setV; split <;> rfl
@[simp] theorem Bank.setV_vstr (b : Bank) (k : Nat) (v : V256) (p : BitVec 8) : (b.setV k v p).vstr = b.vstr := by unfold Bank.setV; split <;> rfl
@[simp] theorem Bank.setV_tcause (b : Bank) (k : Nat) (v : V256) (p : BitVec 8) : (b.setV k v p).tcause = b.tcause := by unfold Bank.setV; split <;> rfl
@[simp] theorem Bank.setV_tval (b : Bank) (k : Nat) (v : V256) (p : BitVec 8) : (b.setV k v p).tval = b.tval := by unfold Bank.setV; split <;> rfl
@[simp] theorem Bank.setV_tepc (b : Bank) (k : Nat) (v : V256) (p : BitVec 8) : (b.setV k v p).tepc = b.tepc := by unfold Bank.setV; split <;> rfl
@[simp] theorem Bank.setV_tstat (b : Bank) (k : Nat) (v : V256) (p : BitVec 8) : (b.setV k v p).tstat = b.tstat := by unfold Bank.setV; split <;> rfl
@[simp] theorem Bank.setV_tvec (b : Bank) (k : Nat) (v : V256) (p : BitVec 8) : (b.setV k v p).tvec = b.tvec := by unfold Bank.setV; split <;> rfl
@[simp] theorem Bank.setV_seq (b : Bank) (k : Nat) (v : V256) (p : BitVec 8) : (b.setV k v p).seq = b.seq := by unfold Bank.setV; split <;> rfl
@[simp] theorem Bank.setV_job (b : Bank) (k : Nat) (v : V256) (p : BitVec 8) : (b.setV k v p).job = b.job := by unfold Bank.setV; split <;> rfl
@[simp] theorem Bank.setV_hid (b : Bank) (k : Nat) (v : V256) (p : BitVec 8) : (b.setV k v p).hid = b.hid := by unfold Bank.setV; split <;> rfl
@[simp] theorem Bank.setV_msg (b : Bank) (k : Nat) (v : V256) (p : BitVec 8) : (b.setV k v p).msg = b.msg := by unfold Bank.setV; split <;> rfl
@[simp] theorem Bank.setV_cursor (b : Bank) (k : Nat) (v : V256) (p : BitVec 8) : (b.setV k v p).cursor = b.cursor := by unfold Bank.setV; split <;> rfl
@[simp] theorem Bank.setV_buf (b : Bank) (k : Nat) (v : V256) (p : BitVec 8) : (b.setV k v p).buf = b.buf := by unfold Bank.setV; split <;> rfl
@[simp] theorem Bank.setV_reply (b : Bank) (k : Nat) (v : V256) (p : BitVec 8) : (b.setV k v p).reply = b.reply := by unfold Bank.setV; split <;> rfl
@[simp] theorem Bank.setV_slots (b : Bank) (k : Nat) (v : V256) (p : BitVec 8) : (b.setV k v p).slots = b.slots := by unfold Bank.setV; split <;> rfl
@[simp] theorem Bank.setV_slotJob (b : Bank) (k : Nat) (v : V256) (p : BitVec 8) : (b.setV k v p).slotJob = b.slotJob := by unfold Bank.setV; split <;> rfl
@[simp] theorem Bank.setV_entries (b : Bank) (k : Nat) (v : V256) (p : BitVec 8) : (b.setV k v p).entries = b.entries := by unfold Bank.setV; split <;> rfl
@[simp] theorem Bank.setV_preempt (b : Bank) (k : Nat) (v : V256) (p : BitVec 8) : (b.setV k v p).preempt = b.preempt := by unfold Bank.setV; split <;> rfl
@[simp] theorem Bank.setV_owed (b : Bank) (k : Nat) (v : V256) (p : BitVec 8) : (b.setV k v p).owed = b.owed := by unfold Bank.setV; split <;> rfl
@[simp] theorem Bank.setV_loads (b : Bank) (k : Nat) (v : V256) (p : BitVec 8) : (b.setV k v p).loads = b.loads := by unfold Bank.setV; split <;> rfl
@[simp] theorem Bank.setV_since (b : Bank) (k : Nat) (v : V256) (p : BitVec 8) : (b.setV k v p).since = b.since := by unfold Bank.setV; split <;> rfl
@[simp] theorem Bank.setV_deadline (b : Bank) (k : Nat) (v : V256) (p : BitVec 8) : (b.setV k v p).deadline = b.deadline := by unfold Bank.setV; split <;> rfl
@[simp] theorem Bank.setV_redo (b : Bank) (k : Nat) (v : V256) (p : BitVec 8) : (b.setV k v p).redo = b.redo := by unfold Bank.setV; split <;> rfl
@[simp] theorem Bank.setP_pc (b : Bank) (k : PReg) (v : W32) : (b.setP k v).pc = b.pc := by unfold Bank.setP; split <;> rfl
@[simp] theorem Bank.setP_st (b : Bank) (k : PReg) (v : W32) : (b.setP k v).st = b.st := by unfold Bank.setP; split <;> rfl
@[simp] theorem Bank.setP_wait (b : Bank) (k : PReg) (v : W32) : (b.setP k v).wait = b.wait := by unfold Bank.setP; split <;> rfl
@[simp] theorem Bank.setP_service (b : Bank) (k : PReg) (v : W32) : (b.setP k v).service = b.service := by unfold Bank.setP; split <;> rfl
@[simp] theorem Bank.setP_x (b : Bank) (k : PReg) (v : W32) : (b.setP k v).x = b.x := by unfold Bank.setP; split <;> rfl
@[simp] theorem Bank.setP_xp (b : Bank) (k : PReg) (v : W32) : (b.setP k v).xp = b.xp := by unfold Bank.setP; split <;> rfl
@[simp] theorem Bank.setP_svc (b : Bank) (k : PReg) (v : W32) : (b.setP k v).svc = b.svc := by unfold Bank.setP; split <;> rfl
@[simp] theorem Bank.setP_svcp (b : Bank) (k : PReg) (v : W32) : (b.setP k v).svcp = b.svcp := by unfold Bank.setP; split <;> rfl
@[simp] theorem Bank.setP_v (b : Bank) (k : PReg) (v : W32) : (b.setP k v).v = b.v := by unfold Bank.setP; split <;> rfl
@[simp] theorem Bank.setP_vp (b : Bank) (k : PReg) (v : W32) : (b.setP k v).vp = b.vp := by unfold Bank.setP; split <;> rfl
@[simp] theorem Bank.setP_chki (b : Bank) (k : PReg) (v : W32) : (b.setP k v).chki = b.chki := by unfold Bank.setP; split <;> rfl
@[simp] theorem Bank.setP_aflags (b : Bank) (k : PReg) (v : W32) : (b.setP k v).aflags = b.aflags := by unfold Bank.setP; split <;> rfl
@[simp] theorem Bank.setP_rndm (b : Bank) (k : PReg) (v : W32) : (b.setP k v).rndm = b.rndm := by unfold Bank.setP; split <;> rfl
@[simp] theorem Bank.setP_vcfg (b : Bank) (k : PReg) (v : W32) : (b.setP k v).vcfg = b.vcfg := by unfold Bank.setP; split <;> rfl
@[simp] theorem Bank.setP_lglen (b : Bank) (k : PReg) (v : W32) : (b.setP k v).lglen = b.lglen := by unfold Bank.setP; split <;> rfl
@[simp] theorem Bank.setP_lgact (b : Bank) (k : PReg) (v : W32) : (b.setP k v).lgact = b.lgact := by unfold Bank.setP; split <;> rfl
@[simp] theorem Bank.setP_sqtraps (b : Bank) (k : PReg) (v : W32) : (b.setP k v).sqtraps = b.sqtraps := by unfold Bank.setP; split <;> rfl
@[simp] theorem Bank.setP_maskOn (b : Bank) (k : PReg) (v : W32) : (b.setP k v).maskOn = b.maskOn := by unfold Bank.setP; split <;> rfl
@[simp] theorem Bank.setP_maskLeft (b : Bank) (k : PReg) (v : W32) : (b.setP k v).maskLeft = b.maskLeft := by unfold Bank.setP; split <;> rfl
@[simp] theorem Bank.setP_maskStart (b : Bank) (k : PReg) (v : W32) : (b.setP k v).maskStart = b.maskStart := by unfold Bank.setP; split <;> rfl
@[simp] theorem Bank.setP_maskDue (b : Bank) (k : PReg) (v : W32) : (b.setP k v).maskDue = b.maskDue := by unfold Bank.setP; split <;> rfl
@[simp] theorem Bank.setP_vstr (b : Bank) (k : PReg) (v : W32) : (b.setP k v).vstr = b.vstr := by unfold Bank.setP; split <;> rfl
@[simp] theorem Bank.setP_tcause (b : Bank) (k : PReg) (v : W32) : (b.setP k v).tcause = b.tcause := by unfold Bank.setP; split <;> rfl
@[simp] theorem Bank.setP_tval (b : Bank) (k : PReg) (v : W32) : (b.setP k v).tval = b.tval := by unfold Bank.setP; split <;> rfl
@[simp] theorem Bank.setP_tepc (b : Bank) (k : PReg) (v : W32) : (b.setP k v).tepc = b.tepc := by unfold Bank.setP; split <;> rfl
@[simp] theorem Bank.setP_tstat (b : Bank) (k : PReg) (v : W32) : (b.setP k v).tstat = b.tstat := by unfold Bank.setP; split <;> rfl
@[simp] theorem Bank.setP_tvec (b : Bank) (k : PReg) (v : W32) : (b.setP k v).tvec = b.tvec := by unfold Bank.setP; split <;> rfl
@[simp] theorem Bank.setP_seq (b : Bank) (k : PReg) (v : W32) : (b.setP k v).seq = b.seq := by unfold Bank.setP; split <;> rfl
@[simp] theorem Bank.setP_job (b : Bank) (k : PReg) (v : W32) : (b.setP k v).job = b.job := by unfold Bank.setP; split <;> rfl
@[simp] theorem Bank.setP_hid (b : Bank) (k : PReg) (v : W32) : (b.setP k v).hid = b.hid := by unfold Bank.setP; split <;> rfl
@[simp] theorem Bank.setP_msg (b : Bank) (k : PReg) (v : W32) : (b.setP k v).msg = b.msg := by unfold Bank.setP; split <;> rfl
@[simp] theorem Bank.setP_cursor (b : Bank) (k : PReg) (v : W32) : (b.setP k v).cursor = b.cursor := by unfold Bank.setP; split <;> rfl
@[simp] theorem Bank.setP_buf (b : Bank) (k : PReg) (v : W32) : (b.setP k v).buf = b.buf := by unfold Bank.setP; split <;> rfl
@[simp] theorem Bank.setP_reply (b : Bank) (k : PReg) (v : W32) : (b.setP k v).reply = b.reply := by unfold Bank.setP; split <;> rfl
@[simp] theorem Bank.setP_slots (b : Bank) (k : PReg) (v : W32) : (b.setP k v).slots = b.slots := by unfold Bank.setP; split <;> rfl
@[simp] theorem Bank.setP_slotJob (b : Bank) (k : PReg) (v : W32) : (b.setP k v).slotJob = b.slotJob := by unfold Bank.setP; split <;> rfl
@[simp] theorem Bank.setP_entries (b : Bank) (k : PReg) (v : W32) : (b.setP k v).entries = b.entries := by unfold Bank.setP; split <;> rfl
@[simp] theorem Bank.setP_preempt (b : Bank) (k : PReg) (v : W32) : (b.setP k v).preempt = b.preempt := by unfold Bank.setP; split <;> rfl
@[simp] theorem Bank.setP_owed (b : Bank) (k : PReg) (v : W32) : (b.setP k v).owed = b.owed := by unfold Bank.setP; split <;> rfl
@[simp] theorem Bank.setP_loads (b : Bank) (k : PReg) (v : W32) : (b.setP k v).loads = b.loads := by unfold Bank.setP; split <;> rfl
@[simp] theorem Bank.setP_since (b : Bank) (k : PReg) (v : W32) : (b.setP k v).since = b.since := by unfold Bank.setP; split <;> rfl
@[simp] theorem Bank.setP_deadline (b : Bank) (k : PReg) (v : W32) : (b.setP k v).deadline = b.deadline := by unfold Bank.setP; split <;> rfl
@[simp] theorem Bank.setP_redo (b : Bank) (k : PReg) (v : W32) : (b.setP k v).redo = b.redo := by unfold Bank.setP; split <;> rfl
@[simp] theorem Bank.advance_st (b : Bank) : b.advance.st = b.st := rfl
@[simp] theorem Bank.advance_wait (b : Bank) : b.advance.wait = b.wait := rfl
@[simp] theorem Bank.advance_service (b : Bank) : b.advance.service = b.service := rfl
@[simp] theorem Bank.advance_x (b : Bank) : b.advance.x = b.x := rfl
@[simp] theorem Bank.advance_xp (b : Bank) : b.advance.xp = b.xp := rfl
@[simp] theorem Bank.advance_svc (b : Bank) : b.advance.svc = b.svc := rfl
@[simp] theorem Bank.advance_svcp (b : Bank) : b.advance.svcp = b.svcp := rfl
@[simp] theorem Bank.advance_v (b : Bank) : b.advance.v = b.v := rfl
@[simp] theorem Bank.advance_vp (b : Bank) : b.advance.vp = b.vp := rfl
@[simp] theorem Bank.advance_p (b : Bank) : b.advance.p = b.p := rfl
@[simp] theorem Bank.advance_chki (b : Bank) : b.advance.chki = b.chki := rfl
@[simp] theorem Bank.advance_aflags (b : Bank) : b.advance.aflags = b.aflags := rfl
@[simp] theorem Bank.advance_rndm (b : Bank) : b.advance.rndm = b.rndm := rfl
@[simp] theorem Bank.advance_vcfg (b : Bank) : b.advance.vcfg = b.vcfg := rfl
@[simp] theorem Bank.advance_lglen (b : Bank) : b.advance.lglen = b.lglen := rfl
@[simp] theorem Bank.advance_lgact (b : Bank) : b.advance.lgact = b.lgact := rfl
@[simp] theorem Bank.advance_sqtraps (b : Bank) : b.advance.sqtraps = b.sqtraps := rfl
@[simp] theorem Bank.advance_maskOn (b : Bank) : b.advance.maskOn = b.maskOn := rfl
@[simp] theorem Bank.advance_maskLeft (b : Bank) : b.advance.maskLeft = b.maskLeft := rfl
@[simp] theorem Bank.advance_maskStart (b : Bank) : b.advance.maskStart = b.maskStart := rfl
@[simp] theorem Bank.advance_maskDue (b : Bank) : b.advance.maskDue = b.maskDue := rfl
@[simp] theorem Bank.advance_vstr (b : Bank) : b.advance.vstr = b.vstr := rfl
@[simp] theorem Bank.advance_tcause (b : Bank) : b.advance.tcause = b.tcause := rfl
@[simp] theorem Bank.advance_tval (b : Bank) : b.advance.tval = b.tval := rfl
@[simp] theorem Bank.advance_tepc (b : Bank) : b.advance.tepc = b.tepc := rfl
@[simp] theorem Bank.advance_tstat (b : Bank) : b.advance.tstat = b.tstat := rfl
@[simp] theorem Bank.advance_tvec (b : Bank) : b.advance.tvec = b.tvec := rfl
@[simp] theorem Bank.advance_seq (b : Bank) : b.advance.seq = b.seq := rfl
@[simp] theorem Bank.advance_job (b : Bank) : b.advance.job = b.job := rfl
@[simp] theorem Bank.advance_hid (b : Bank) : b.advance.hid = b.hid := rfl
@[simp] theorem Bank.advance_msg (b : Bank) : b.advance.msg = b.msg := rfl
@[simp] theorem Bank.advance_cursor (b : Bank) : b.advance.cursor = b.cursor := rfl
@[simp] theorem Bank.advance_buf (b : Bank) : b.advance.buf = b.buf := rfl
@[simp] theorem Bank.advance_reply (b : Bank) : b.advance.reply = b.reply := rfl
@[simp] theorem Bank.advance_slots (b : Bank) : b.advance.slots = b.slots := rfl
@[simp] theorem Bank.advance_slotJob (b : Bank) : b.advance.slotJob = b.slotJob := rfl
@[simp] theorem Bank.advance_entries (b : Bank) : b.advance.entries = b.entries := rfl
@[simp] theorem Bank.advance_preempt (b : Bank) : b.advance.preempt = b.preempt := rfl
@[simp] theorem Bank.advance_owed (b : Bank) : b.advance.owed = b.owed := rfl
@[simp] theorem Bank.advance_loads (b : Bank) : b.advance.loads = b.loads := rfl
@[simp] theorem Bank.advance_since (b : Bank) : b.advance.since = b.since := rfl
@[simp] theorem Bank.advance_deadline (b : Bank) : b.advance.deadline = b.deadline := rfl
@[simp] theorem Bank.advance_redo (b : Bank) : b.advance.redo = b.redo := rfl
@[simp] theorem Bank.advance_pc (b : Bank) : b.advance.pc = b.pc + 4 := rfl
@[simp] theorem Bank.markPsn_pc (b : Bank) (o : Nat) : (b.markPsn o).pc = b.pc := rfl
@[simp] theorem Bank.markPsn_st (b : Bank) (o : Nat) : (b.markPsn o).st = b.st := rfl
@[simp] theorem Bank.markPsn_wait (b : Bank) (o : Nat) : (b.markPsn o).wait = b.wait := rfl
@[simp] theorem Bank.markPsn_service (b : Bank) (o : Nat) : (b.markPsn o).service = b.service := rfl
@[simp] theorem Bank.markPsn_x (b : Bank) (o : Nat) : (b.markPsn o).x = b.x := rfl
@[simp] theorem Bank.markPsn_xp (b : Bank) (o : Nat) : (b.markPsn o).xp = b.xp := rfl
@[simp] theorem Bank.markPsn_svc (b : Bank) (o : Nat) : (b.markPsn o).svc = b.svc := rfl
@[simp] theorem Bank.markPsn_svcp (b : Bank) (o : Nat) : (b.markPsn o).svcp = b.svcp := rfl
@[simp] theorem Bank.markPsn_v (b : Bank) (o : Nat) : (b.markPsn o).v = b.v := rfl
@[simp] theorem Bank.markPsn_vp (b : Bank) (o : Nat) : (b.markPsn o).vp = b.vp := rfl
@[simp] theorem Bank.markPsn_p (b : Bank) (o : Nat) : (b.markPsn o).p = b.p := rfl
@[simp] theorem Bank.markPsn_aflags (b : Bank) (o : Nat) : (b.markPsn o).aflags = b.aflags := rfl
@[simp] theorem Bank.markPsn_rndm (b : Bank) (o : Nat) : (b.markPsn o).rndm = b.rndm := rfl
@[simp] theorem Bank.markPsn_vcfg (b : Bank) (o : Nat) : (b.markPsn o).vcfg = b.vcfg := rfl
@[simp] theorem Bank.markPsn_lglen (b : Bank) (o : Nat) : (b.markPsn o).lglen = b.lglen := rfl
@[simp] theorem Bank.markPsn_lgact (b : Bank) (o : Nat) : (b.markPsn o).lgact = b.lgact := rfl
@[simp] theorem Bank.markPsn_sqtraps (b : Bank) (o : Nat) : (b.markPsn o).sqtraps = b.sqtraps := rfl
@[simp] theorem Bank.markPsn_maskOn (b : Bank) (o : Nat) : (b.markPsn o).maskOn = b.maskOn := rfl
@[simp] theorem Bank.markPsn_maskLeft (b : Bank) (o : Nat) : (b.markPsn o).maskLeft = b.maskLeft := rfl
@[simp] theorem Bank.markPsn_maskStart (b : Bank) (o : Nat) : (b.markPsn o).maskStart = b.maskStart := rfl
@[simp] theorem Bank.markPsn_maskDue (b : Bank) (o : Nat) : (b.markPsn o).maskDue = b.maskDue := rfl
@[simp] theorem Bank.markPsn_vstr (b : Bank) (o : Nat) : (b.markPsn o).vstr = b.vstr := rfl
@[simp] theorem Bank.markPsn_tcause (b : Bank) (o : Nat) : (b.markPsn o).tcause = b.tcause := rfl
@[simp] theorem Bank.markPsn_tval (b : Bank) (o : Nat) : (b.markPsn o).tval = b.tval := rfl
@[simp] theorem Bank.markPsn_tepc (b : Bank) (o : Nat) : (b.markPsn o).tepc = b.tepc := rfl
@[simp] theorem Bank.markPsn_tstat (b : Bank) (o : Nat) : (b.markPsn o).tstat = b.tstat := rfl
@[simp] theorem Bank.markPsn_tvec (b : Bank) (o : Nat) : (b.markPsn o).tvec = b.tvec := rfl
@[simp] theorem Bank.markPsn_seq (b : Bank) (o : Nat) : (b.markPsn o).seq = b.seq := rfl
@[simp] theorem Bank.markPsn_job (b : Bank) (o : Nat) : (b.markPsn o).job = b.job := rfl
@[simp] theorem Bank.markPsn_hid (b : Bank) (o : Nat) : (b.markPsn o).hid = b.hid := rfl
@[simp] theorem Bank.markPsn_msg (b : Bank) (o : Nat) : (b.markPsn o).msg = b.msg := rfl
@[simp] theorem Bank.markPsn_cursor (b : Bank) (o : Nat) : (b.markPsn o).cursor = b.cursor := rfl
@[simp] theorem Bank.markPsn_buf (b : Bank) (o : Nat) : (b.markPsn o).buf = b.buf := rfl
@[simp] theorem Bank.markPsn_reply (b : Bank) (o : Nat) : (b.markPsn o).reply = b.reply := rfl
@[simp] theorem Bank.markPsn_slots (b : Bank) (o : Nat) : (b.markPsn o).slots = b.slots := rfl
@[simp] theorem Bank.markPsn_slotJob (b : Bank) (o : Nat) : (b.markPsn o).slotJob = b.slotJob := rfl
@[simp] theorem Bank.markPsn_entries (b : Bank) (o : Nat) : (b.markPsn o).entries = b.entries := rfl
@[simp] theorem Bank.markPsn_preempt (b : Bank) (o : Nat) : (b.markPsn o).preempt = b.preempt := rfl
@[simp] theorem Bank.markPsn_owed (b : Bank) (o : Nat) : (b.markPsn o).owed = b.owed := rfl
@[simp] theorem Bank.markPsn_loads (b : Bank) (o : Nat) : (b.markPsn o).loads = b.loads := rfl
@[simp] theorem Bank.markPsn_since (b : Bank) (o : Nat) : (b.markPsn o).since = b.since := rfl
@[simp] theorem Bank.markPsn_deadline (b : Bank) (o : Nat) : (b.markPsn o).deadline = b.deadline := rfl
@[simp] theorem Bank.markPsn_redo (b : Bank) (o : Nat) : (b.markPsn o).redo = b.redo := rfl
@[simp] theorem Bank.markPsn_chki (b : Bank) (o : Nat) : (b.markPsn o).chki = chkiSet b.chki 1 o := rfl
@[simp] theorem Bank.psnIf_pc (b : Bank) (c : Bool) (o : Nat) : (b.psnIf c o).pc = b.pc := by cases c <;> rfl
@[simp] theorem Bank.psnIf_st (b : Bank) (c : Bool) (o : Nat) : (b.psnIf c o).st = b.st := by cases c <;> rfl
@[simp] theorem Bank.psnIf_wait (b : Bank) (c : Bool) (o : Nat) : (b.psnIf c o).wait = b.wait := by cases c <;> rfl
@[simp] theorem Bank.psnIf_service (b : Bank) (c : Bool) (o : Nat) : (b.psnIf c o).service = b.service := by cases c <;> rfl
@[simp] theorem Bank.psnIf_x (b : Bank) (c : Bool) (o : Nat) : (b.psnIf c o).x = b.x := by cases c <;> rfl
@[simp] theorem Bank.psnIf_xp (b : Bank) (c : Bool) (o : Nat) : (b.psnIf c o).xp = b.xp := by cases c <;> rfl
@[simp] theorem Bank.psnIf_svc (b : Bank) (c : Bool) (o : Nat) : (b.psnIf c o).svc = b.svc := by cases c <;> rfl
@[simp] theorem Bank.psnIf_svcp (b : Bank) (c : Bool) (o : Nat) : (b.psnIf c o).svcp = b.svcp := by cases c <;> rfl
@[simp] theorem Bank.psnIf_v (b : Bank) (c : Bool) (o : Nat) : (b.psnIf c o).v = b.v := by cases c <;> rfl
@[simp] theorem Bank.psnIf_vp (b : Bank) (c : Bool) (o : Nat) : (b.psnIf c o).vp = b.vp := by cases c <;> rfl
@[simp] theorem Bank.psnIf_p (b : Bank) (c : Bool) (o : Nat) : (b.psnIf c o).p = b.p := by cases c <;> rfl
@[simp] theorem Bank.psnIf_aflags (b : Bank) (c : Bool) (o : Nat) : (b.psnIf c o).aflags = b.aflags := by cases c <;> rfl
@[simp] theorem Bank.psnIf_rndm (b : Bank) (c : Bool) (o : Nat) : (b.psnIf c o).rndm = b.rndm := by cases c <;> rfl
@[simp] theorem Bank.psnIf_vcfg (b : Bank) (c : Bool) (o : Nat) : (b.psnIf c o).vcfg = b.vcfg := by cases c <;> rfl
@[simp] theorem Bank.psnIf_lglen (b : Bank) (c : Bool) (o : Nat) : (b.psnIf c o).lglen = b.lglen := by cases c <;> rfl
@[simp] theorem Bank.psnIf_lgact (b : Bank) (c : Bool) (o : Nat) : (b.psnIf c o).lgact = b.lgact := by cases c <;> rfl
@[simp] theorem Bank.psnIf_sqtraps (b : Bank) (c : Bool) (o : Nat) : (b.psnIf c o).sqtraps = b.sqtraps := by cases c <;> rfl
@[simp] theorem Bank.psnIf_maskOn (b : Bank) (c : Bool) (o : Nat) : (b.psnIf c o).maskOn = b.maskOn := by cases c <;> rfl
@[simp] theorem Bank.psnIf_maskLeft (b : Bank) (c : Bool) (o : Nat) : (b.psnIf c o).maskLeft = b.maskLeft := by cases c <;> rfl
@[simp] theorem Bank.psnIf_maskStart (b : Bank) (c : Bool) (o : Nat) : (b.psnIf c o).maskStart = b.maskStart := by cases c <;> rfl
@[simp] theorem Bank.psnIf_maskDue (b : Bank) (c : Bool) (o : Nat) : (b.psnIf c o).maskDue = b.maskDue := by cases c <;> rfl
@[simp] theorem Bank.psnIf_vstr (b : Bank) (c : Bool) (o : Nat) : (b.psnIf c o).vstr = b.vstr := by cases c <;> rfl
@[simp] theorem Bank.psnIf_tcause (b : Bank) (c : Bool) (o : Nat) : (b.psnIf c o).tcause = b.tcause := by cases c <;> rfl
@[simp] theorem Bank.psnIf_tval (b : Bank) (c : Bool) (o : Nat) : (b.psnIf c o).tval = b.tval := by cases c <;> rfl
@[simp] theorem Bank.psnIf_tepc (b : Bank) (c : Bool) (o : Nat) : (b.psnIf c o).tepc = b.tepc := by cases c <;> rfl
@[simp] theorem Bank.psnIf_tstat (b : Bank) (c : Bool) (o : Nat) : (b.psnIf c o).tstat = b.tstat := by cases c <;> rfl
@[simp] theorem Bank.psnIf_tvec (b : Bank) (c : Bool) (o : Nat) : (b.psnIf c o).tvec = b.tvec := by cases c <;> rfl
@[simp] theorem Bank.psnIf_seq (b : Bank) (c : Bool) (o : Nat) : (b.psnIf c o).seq = b.seq := by cases c <;> rfl
@[simp] theorem Bank.psnIf_job (b : Bank) (c : Bool) (o : Nat) : (b.psnIf c o).job = b.job := by cases c <;> rfl
@[simp] theorem Bank.psnIf_hid (b : Bank) (c : Bool) (o : Nat) : (b.psnIf c o).hid = b.hid := by cases c <;> rfl
@[simp] theorem Bank.psnIf_msg (b : Bank) (c : Bool) (o : Nat) : (b.psnIf c o).msg = b.msg := by cases c <;> rfl
@[simp] theorem Bank.psnIf_cursor (b : Bank) (c : Bool) (o : Nat) : (b.psnIf c o).cursor = b.cursor := by cases c <;> rfl
@[simp] theorem Bank.psnIf_buf (b : Bank) (c : Bool) (o : Nat) : (b.psnIf c o).buf = b.buf := by cases c <;> rfl
@[simp] theorem Bank.psnIf_reply (b : Bank) (c : Bool) (o : Nat) : (b.psnIf c o).reply = b.reply := by cases c <;> rfl
@[simp] theorem Bank.psnIf_slots (b : Bank) (c : Bool) (o : Nat) : (b.psnIf c o).slots = b.slots := by cases c <;> rfl
@[simp] theorem Bank.psnIf_slotJob (b : Bank) (c : Bool) (o : Nat) : (b.psnIf c o).slotJob = b.slotJob := by cases c <;> rfl
@[simp] theorem Bank.psnIf_entries (b : Bank) (c : Bool) (o : Nat) : (b.psnIf c o).entries = b.entries := by cases c <;> rfl
@[simp] theorem Bank.psnIf_preempt (b : Bank) (c : Bool) (o : Nat) : (b.psnIf c o).preempt = b.preempt := by cases c <;> rfl
@[simp] theorem Bank.psnIf_owed (b : Bank) (c : Bool) (o : Nat) : (b.psnIf c o).owed = b.owed := by cases c <;> rfl
@[simp] theorem Bank.psnIf_loads (b : Bank) (c : Bool) (o : Nat) : (b.psnIf c o).loads = b.loads := by cases c <;> rfl
@[simp] theorem Bank.psnIf_since (b : Bank) (c : Bool) (o : Nat) : (b.psnIf c o).since = b.since := by cases c <;> rfl
@[simp] theorem Bank.psnIf_deadline (b : Bank) (c : Bool) (o : Nat) : (b.psnIf c o).deadline = b.deadline := by cases c <;> rfl
@[simp] theorem Bank.psnIf_redo (b : Bank) (c : Bool) (o : Nat) : (b.psnIf c o).redo = b.redo := by cases c <;> rfl
@[simp] theorem Bank.markChk_pc (b : Bank) (o : Nat) : (b.markChk o).pc = b.pc := rfl
@[simp] theorem Bank.markChk_st (b : Bank) (o : Nat) : (b.markChk o).st = b.st := rfl
@[simp] theorem Bank.markChk_wait (b : Bank) (o : Nat) : (b.markChk o).wait = b.wait := rfl
@[simp] theorem Bank.markChk_service (b : Bank) (o : Nat) : (b.markChk o).service = b.service := rfl
@[simp] theorem Bank.markChk_x (b : Bank) (o : Nat) : (b.markChk o).x = b.x := rfl
@[simp] theorem Bank.markChk_xp (b : Bank) (o : Nat) : (b.markChk o).xp = b.xp := rfl
@[simp] theorem Bank.markChk_svc (b : Bank) (o : Nat) : (b.markChk o).svc = b.svc := rfl
@[simp] theorem Bank.markChk_svcp (b : Bank) (o : Nat) : (b.markChk o).svcp = b.svcp := rfl
@[simp] theorem Bank.markChk_v (b : Bank) (o : Nat) : (b.markChk o).v = b.v := rfl
@[simp] theorem Bank.markChk_vp (b : Bank) (o : Nat) : (b.markChk o).vp = b.vp := rfl
@[simp] theorem Bank.markChk_p (b : Bank) (o : Nat) : (b.markChk o).p = b.p := rfl
@[simp] theorem Bank.markChk_rndm (b : Bank) (o : Nat) : (b.markChk o).rndm = b.rndm := rfl
@[simp] theorem Bank.markChk_vcfg (b : Bank) (o : Nat) : (b.markChk o).vcfg = b.vcfg := rfl
@[simp] theorem Bank.markChk_lglen (b : Bank) (o : Nat) : (b.markChk o).lglen = b.lglen := rfl
@[simp] theorem Bank.markChk_lgact (b : Bank) (o : Nat) : (b.markChk o).lgact = b.lgact := rfl
@[simp] theorem Bank.markChk_sqtraps (b : Bank) (o : Nat) : (b.markChk o).sqtraps = b.sqtraps := rfl
@[simp] theorem Bank.markChk_maskOn (b : Bank) (o : Nat) : (b.markChk o).maskOn = b.maskOn := rfl
@[simp] theorem Bank.markChk_maskLeft (b : Bank) (o : Nat) : (b.markChk o).maskLeft = b.maskLeft := rfl
@[simp] theorem Bank.markChk_maskStart (b : Bank) (o : Nat) : (b.markChk o).maskStart = b.maskStart := rfl
@[simp] theorem Bank.markChk_maskDue (b : Bank) (o : Nat) : (b.markChk o).maskDue = b.maskDue := rfl
@[simp] theorem Bank.markChk_vstr (b : Bank) (o : Nat) : (b.markChk o).vstr = b.vstr := rfl
@[simp] theorem Bank.markChk_tcause (b : Bank) (o : Nat) : (b.markChk o).tcause = b.tcause := rfl
@[simp] theorem Bank.markChk_tval (b : Bank) (o : Nat) : (b.markChk o).tval = b.tval := rfl
@[simp] theorem Bank.markChk_tepc (b : Bank) (o : Nat) : (b.markChk o).tepc = b.tepc := rfl
@[simp] theorem Bank.markChk_tstat (b : Bank) (o : Nat) : (b.markChk o).tstat = b.tstat := rfl
@[simp] theorem Bank.markChk_tvec (b : Bank) (o : Nat) : (b.markChk o).tvec = b.tvec := rfl
@[simp] theorem Bank.markChk_seq (b : Bank) (o : Nat) : (b.markChk o).seq = b.seq := rfl
@[simp] theorem Bank.markChk_job (b : Bank) (o : Nat) : (b.markChk o).job = b.job := rfl
@[simp] theorem Bank.markChk_hid (b : Bank) (o : Nat) : (b.markChk o).hid = b.hid := rfl
@[simp] theorem Bank.markChk_msg (b : Bank) (o : Nat) : (b.markChk o).msg = b.msg := rfl
@[simp] theorem Bank.markChk_cursor (b : Bank) (o : Nat) : (b.markChk o).cursor = b.cursor := rfl
@[simp] theorem Bank.markChk_buf (b : Bank) (o : Nat) : (b.markChk o).buf = b.buf := rfl
@[simp] theorem Bank.markChk_reply (b : Bank) (o : Nat) : (b.markChk o).reply = b.reply := rfl
@[simp] theorem Bank.markChk_slots (b : Bank) (o : Nat) : (b.markChk o).slots = b.slots := rfl
@[simp] theorem Bank.markChk_slotJob (b : Bank) (o : Nat) : (b.markChk o).slotJob = b.slotJob := rfl
@[simp] theorem Bank.markChk_entries (b : Bank) (o : Nat) : (b.markChk o).entries = b.entries := rfl
@[simp] theorem Bank.markChk_preempt (b : Bank) (o : Nat) : (b.markChk o).preempt = b.preempt := rfl
@[simp] theorem Bank.markChk_owed (b : Bank) (o : Nat) : (b.markChk o).owed = b.owed := rfl
@[simp] theorem Bank.markChk_loads (b : Bank) (o : Nat) : (b.markChk o).loads = b.loads := rfl
@[simp] theorem Bank.markChk_since (b : Bank) (o : Nat) : (b.markChk o).since = b.since := rfl
@[simp] theorem Bank.markChk_deadline (b : Bank) (o : Nat) : (b.markChk o).deadline = b.deadline := rfl
@[simp] theorem Bank.markChk_redo (b : Bank) (o : Nat) : (b.markChk o).redo = b.redo := rfl
@[simp] theorem Bank.markChk_chki (b : Bank) (o : Nat) : (b.markChk o).chki = chkiSet b.chki 2 o := rfl
@[simp] theorem Bank.markChk_aflags (b : Bank) (o : Nat) : (b.markChk o).aflags = b.aflags ||| 0x80 := rfl
@[simp] theorem Bank.orFlags_pc (b : Bank) (f : Flags) : (b.orFlags f).pc = b.pc := rfl
@[simp] theorem Bank.orFlags_st (b : Bank) (f : Flags) : (b.orFlags f).st = b.st := rfl
@[simp] theorem Bank.orFlags_wait (b : Bank) (f : Flags) : (b.orFlags f).wait = b.wait := rfl
@[simp] theorem Bank.orFlags_service (b : Bank) (f : Flags) : (b.orFlags f).service = b.service := rfl
@[simp] theorem Bank.orFlags_x (b : Bank) (f : Flags) : (b.orFlags f).x = b.x := rfl
@[simp] theorem Bank.orFlags_xp (b : Bank) (f : Flags) : (b.orFlags f).xp = b.xp := rfl
@[simp] theorem Bank.orFlags_svc (b : Bank) (f : Flags) : (b.orFlags f).svc = b.svc := rfl
@[simp] theorem Bank.orFlags_svcp (b : Bank) (f : Flags) : (b.orFlags f).svcp = b.svcp := rfl
@[simp] theorem Bank.orFlags_v (b : Bank) (f : Flags) : (b.orFlags f).v = b.v := rfl
@[simp] theorem Bank.orFlags_vp (b : Bank) (f : Flags) : (b.orFlags f).vp = b.vp := rfl
@[simp] theorem Bank.orFlags_p (b : Bank) (f : Flags) : (b.orFlags f).p = b.p := rfl
@[simp] theorem Bank.orFlags_chki (b : Bank) (f : Flags) : (b.orFlags f).chki = b.chki := rfl
@[simp] theorem Bank.orFlags_rndm (b : Bank) (f : Flags) : (b.orFlags f).rndm = b.rndm := rfl
@[simp] theorem Bank.orFlags_vcfg (b : Bank) (f : Flags) : (b.orFlags f).vcfg = b.vcfg := rfl
@[simp] theorem Bank.orFlags_lglen (b : Bank) (f : Flags) : (b.orFlags f).lglen = b.lglen := rfl
@[simp] theorem Bank.orFlags_lgact (b : Bank) (f : Flags) : (b.orFlags f).lgact = b.lgact := rfl
@[simp] theorem Bank.orFlags_sqtraps (b : Bank) (f : Flags) : (b.orFlags f).sqtraps = b.sqtraps := rfl
@[simp] theorem Bank.orFlags_maskOn (b : Bank) (f : Flags) : (b.orFlags f).maskOn = b.maskOn := rfl
@[simp] theorem Bank.orFlags_maskLeft (b : Bank) (f : Flags) : (b.orFlags f).maskLeft = b.maskLeft := rfl
@[simp] theorem Bank.orFlags_maskStart (b : Bank) (f : Flags) : (b.orFlags f).maskStart = b.maskStart := rfl
@[simp] theorem Bank.orFlags_maskDue (b : Bank) (f : Flags) : (b.orFlags f).maskDue = b.maskDue := rfl
@[simp] theorem Bank.orFlags_vstr (b : Bank) (f : Flags) : (b.orFlags f).vstr = b.vstr := rfl
@[simp] theorem Bank.orFlags_tcause (b : Bank) (f : Flags) : (b.orFlags f).tcause = b.tcause := rfl
@[simp] theorem Bank.orFlags_tval (b : Bank) (f : Flags) : (b.orFlags f).tval = b.tval := rfl
@[simp] theorem Bank.orFlags_tepc (b : Bank) (f : Flags) : (b.orFlags f).tepc = b.tepc := rfl
@[simp] theorem Bank.orFlags_tstat (b : Bank) (f : Flags) : (b.orFlags f).tstat = b.tstat := rfl
@[simp] theorem Bank.orFlags_tvec (b : Bank) (f : Flags) : (b.orFlags f).tvec = b.tvec := rfl
@[simp] theorem Bank.orFlags_seq (b : Bank) (f : Flags) : (b.orFlags f).seq = b.seq := rfl
@[simp] theorem Bank.orFlags_job (b : Bank) (f : Flags) : (b.orFlags f).job = b.job := rfl
@[simp] theorem Bank.orFlags_hid (b : Bank) (f : Flags) : (b.orFlags f).hid = b.hid := rfl
@[simp] theorem Bank.orFlags_msg (b : Bank) (f : Flags) : (b.orFlags f).msg = b.msg := rfl
@[simp] theorem Bank.orFlags_cursor (b : Bank) (f : Flags) : (b.orFlags f).cursor = b.cursor := rfl
@[simp] theorem Bank.orFlags_buf (b : Bank) (f : Flags) : (b.orFlags f).buf = b.buf := rfl
@[simp] theorem Bank.orFlags_reply (b : Bank) (f : Flags) : (b.orFlags f).reply = b.reply := rfl
@[simp] theorem Bank.orFlags_slots (b : Bank) (f : Flags) : (b.orFlags f).slots = b.slots := rfl
@[simp] theorem Bank.orFlags_slotJob (b : Bank) (f : Flags) : (b.orFlags f).slotJob = b.slotJob := rfl
@[simp] theorem Bank.orFlags_entries (b : Bank) (f : Flags) : (b.orFlags f).entries = b.entries := rfl
@[simp] theorem Bank.orFlags_preempt (b : Bank) (f : Flags) : (b.orFlags f).preempt = b.preempt := rfl
@[simp] theorem Bank.orFlags_owed (b : Bank) (f : Flags) : (b.orFlags f).owed = b.owed := rfl
@[simp] theorem Bank.orFlags_loads (b : Bank) (f : Flags) : (b.orFlags f).loads = b.loads := rfl
@[simp] theorem Bank.orFlags_since (b : Bank) (f : Flags) : (b.orFlags f).since = b.since := rfl
@[simp] theorem Bank.orFlags_deadline (b : Bank) (f : Flags) : (b.orFlags f).deadline = b.deadline := rfl
@[simp] theorem Bank.orFlags_redo (b : Bank) (f : Flags) : (b.orFlags f).redo = b.redo := rfl

end Sys2Proof.Machine
end

