-- ==== Sys2Proof/Laws/Spec.lean ====
section
/-! SUPPORT. What each shared operation can do, said once: registers and banks after a write, the scalar pipe, traps. -/

namespace Sys2Proof.Machine

/-! ## Tables read without partials -/

/-- With no line in commutative state a reader of the tables changes nothing (R132). -/
theorem State.mergeTable_none (s : State) (h : s.comm = []) : ∀ fuel l table, s.mergeTable fuel l table = s
  | 0, _, _ => rfl
  | fuel + 1, l, table => by
    have h1 : ∀ n : List Nat, n.foldl (fun s k => State.mergeLine s (table + 64 * k)) s = s := fun n => by
      induction n with
      | nil => rfl
      | cons k t ih => rw [List.foldl_cons, State.mergeLine_none s _ (by simp [h]), ih]
    have h2 : ∀ (n : List Nat) (f : State → Nat → State), (∀ i, f s i = s) → n.foldl f s = s := fun n f hf => by
      induction n with
      | nil => rfl
      | cons k t ih => rw [List.foldl_cons, hf, ih]
    simp only [State.mergeTable, h1]
    exact h2 _ _ fun i => by split <;> simp only [mergeTable_none s h fuel]

/-! ## Records after a write -/

@[simp] theorem State.bankAt_putBank_same (s : State) (bk : Nat) (b : Bank) : (s.putBank bk b).bankAt bk = b := by
  simp [State.putBank, State.bankAt]
theorem State.bankAt_putBank_ne (s : State) {bk k : Nat} (b : Bank) (h : k ≠ bk) : (s.putBank bk b).bankAt k = s.bankAt k := by
  simp [State.putBank, State.bankAt, FMap.get_set_ne _ _ _ h]
@[simp] theorem State.b_modB (s : State) (f : Bank → Bank) : (s.modB f).b = f s.b := by
  simp [State.modB, State.putB, State.b]
@[simp] theorem State.b_putB (s : State) (b : Bank) : (s.putB b).b = b := by simp [State.putB, State.b]
theorem State.bankAt_modB_ne (s : State) {k : Nat} (f : Bank → Bank) (h : k ≠ s.cur) : (s.modB f).bankAt k = s.bankAt k :=
  State.bankAt_putBank_ne s _ h

/-- A change of the executing bank changes nothing else. -/
theorem onlyBank_modB (s : State) (f : Bank → Bank) : OnlyBank s (s.modB f) := ⟨rfl, fun _ h => State.bankAt_modB_ne s f h⟩
theorem sameMem_modB (s : State) (f : Bank → Bank) : SameMem s (s.modB f) := fun _ => rfl

/-! ## Scalar registers -/

@[simp] theorem Bank.getX_zero (b : Bank) : b.getX 0 = 0 := rfl
@[simp] theorem Bank.poisX_zero (b : Bank) : b.poisX 0 = false := rfl

theorem Bank.getX_setX (b : Bank) (rd r : Reg) (v : W64) (p : Bool) :
    (b.setX rd v p).getX r = if r = rd ∧ rd ≠ 0 then v else b.getX r := by
  unfold Bank.setX Bank.getX
  by_cases h0 : rd = 0
  · simp [h0]
  · by_cases hr : r = rd
    · subst hr; simp [h0]
    · have : (r : Nat) ≠ rd := fun h => hr (Fin.ext h)
      by_cases hr0 : r = 0
      · subst hr0; simp [h0, hr]
      · simp [h0, hr, hr0, FMap.get_set, this]

theorem Bank.poisX_setX (b : Bank) (rd r : Reg) (v : W64) (p : Bool) :
    (b.setX rd v p).poisX r = if r = rd ∧ rd ≠ 0 then p else b.poisX r := by
  unfold Bank.setX Bank.poisX
  by_cases h0 : rd = 0
  · simp [h0]
  · by_cases hr : r = rd
    · subst hr; simp [h0]
    · have : (r : Nat) ≠ rd := fun h => hr (Fin.ext h)
      by_cases hr0 : r = 0
      · subst hr0; simp [h0, hr]
      · simp [h0, hr, hr0, FMap.get_set, this]

@[simp] theorem Bank.getX_advance (b : Bank) (r : Reg) : b.advance.getX r = b.getX r := rfl
@[simp] theorem Bank.poisX_advance (b : Bank) (r : Reg) : b.advance.poisX r = b.poisX r := rfl
@[simp] theorem Bank.getX_psnIf (b : Bank) (c : Bool) (o : Nat) (r : Reg) : (b.psnIf c o).getX r = b.getX r := by cases c <;> rfl
@[simp] theorem Bank.poisX_psnIf (b : Bank) (c : Bool) (o : Nat) (r : Reg) : (b.psnIf c o).poisX r = b.poisX r := by cases c <;> rfl

theorem holdsX_setX (b : Bank) (rd : Reg) (v : W64) (p : Bool) : HoldsX rd v p (b.setX rd v p) := by
  refine ⟨?_, ?_⟩
  · rw [Bank.getX_setX]; by_cases h : rd = 0 <;> simp [h]
  · rw [Bank.poisX_setX]; by_cases h : rd = 0 <;> simp [h]

theorem onlyX_setX (b : Bank) (rd : Reg) (v : W64) (p : Bool) (pc : W64) : OnlyX rd b { b.setX rd v p with pc := pc } := by
  refine ⟨?_, fun r hr => ⟨?_, ?_⟩⟩
  · unfold Bank.setX; split <;> rfl
  · exact (Bank.getX_setX b rd r v p).trans (by simp [hr])
  · exact (Bank.poisX_setX b rd r v p).trans (by simp [hr])

/-- A bank that takes X(rd), its poison and a pc. -/
theorem writesX_modB (s : State) (rd : Reg) (v : W64) (p : Bool) (pc : W64) :
    WritesX rd v p pc s (s.modB fun b => { b.setX rd v p with pc := pc }) :=
  ⟨onlyBank_modB s _, sameMem_modB s _, by rw [State.b_modB]; exact onlyX_setX _ _ _ _ _, by rw [State.b_modB]; exact holdsX_setX _ _ _ _,
   by rw [State.b_modB]⟩

/-- Two changes of the executing bank are one. -/
theorem State.modB_modB (s : State) (f g : Bank → Bank) : (s.modB f).modB g = s.modB fun b => g (f b) := by
  show (s.putB (f s.b)).putB (g (s.modB f).b) = s.putB (g (f s.b))
  rw [State.b_modB]
  show { s with banks := _ } = { s with banks := _ }
  rw [show (s.putB (f s.b)).banks = s.banks.set Bank.init s.cur (f s.b) from rfl]
  exact congrArg (fun m => { s with banks := m }) (FMap.set_set Bank.init s.banks s.cur _ _)

/-! ## The scalar pipe -/

@[simp] theorem State.takeMishap_none {s : State} (h : s.mishap = .none) : s.takeMishap = s := by simp [State.takeMishap, h]
@[simp] theorem State.badMishap_none {s : State} (h : s.mishap = .none) : s.badMishap = false := by simp [State.badMishap, h]

theorem State.writeX_none {s : State} (h : s.mishap = .none) (rd : Reg) (v : W64) (p : Bool) : s.writeX rd v p = s.modB fun b => b.setX rd v p := by
  simp [State.writeX, h]

/-- What the scalar pipe does with a result when no mismatch occurs (R81, R82). -/
theorem alu_writes {s : State} (h : s.mishap = .none) (rd : Reg) (srcs : List Reg) (v : W64) :
    ∃ t, alu rd srcs v s = .next t ∧ WritesX rd v (srcs.any s.b.poisX) (s.b.pc + 4) s t := by
  refine ⟨_, rfl, ?_⟩
  rw [State.writeX_none h, State.modB_modB]
  have : (fun b => ((b : Bank).setX rd v (srcs.any s.b.poisX)).advance) s.b = (fun b => { b.setX rd v (srcs.any s.b.poisX) with pc := s.b.pc + 4 }) s.b := by
    simp [Bank.advance]
  rw [show (s.modB fun b => (b.setX rd v (srcs.any s.b.poisX)).advance) = s.modB fun b => { b.setX rd v (srcs.any s.b.poisX) with pc := s.b.pc + 4 } from
    congrArg s.putB this]
  exact writesX_modB s rd v _ _

/-! ## Traps -/

theorem FMap.get_append {α : Type} (d : α) (a b : FMap α) (r : Nat) :
    FMap.get d (a ++ b) r = if a.any (fun e => e.1 == r) then FMap.get d a r else FMap.get d b r := by
  induction a with
  | nil => simp
  | cons e t ih =>
    obtain ⟨k, v⟩ := e
    by_cases h : k = r
    · simp [FMap.get, h]
    · have : (k == r) = false := by simpa using h
      simp only [List.cons_append, FMap.get, h, if_false, ih, List.any_cons, this, Bool.false_or]

theorem FMap.get_absent {α : Type} (d : α) (m : FMap α) (r : Nat) (h : m.any (fun e => e.1 == r) = false) : FMap.get d m r = d := by
  induction m with
  | nil => rfl
  | cons e t ih =>
    obtain ⟨k, v⟩ := e
    simp only [List.any_cons, Bool.or_eq_false_iff, beq_eq_false_iff_ne, ne_eq] at h
    simp only [FMap.get, h.1, if_false, ih h.2]

theorem FMap.get_filter {α : Type} (d : α) (m : FMap α) (p : Nat → Bool) (r : Nat) :
    FMap.get d (m.filter fun e => p e.1) r = if p r then FMap.get d m r else d := by
  induction m with
  | nil => simp [FMap.get]
  | cons e t ih =>
    obtain ⟨k, v⟩ := e
    by_cases hk : p k = true <;> by_cases h : k = r
    · subst h; simp [FMap.get, hk]
    · simp [FMap.get, hk, h, ih]
    · subst h; simp [hk, ih]
    · simp [FMap.get, hk, h, ih]

/-- What registers read as after an exchange of the entries below 8. -/
theorem FMap.get_exchange {α : Type} (d : α) (a b : FMap α) (r : Nat) :
    FMap.get d (lowRegs a ++ highRegs b) r = if r < 8 then FMap.get d a r else FMap.get d b r := by
  have hl : FMap.get d (lowRegs a) r = if r < 8 then FMap.get d a r else d := by
    simpa [lowRegs] using FMap.get_filter d a (fun k => decide (k < 8)) r
  have hh : FMap.get d (highRegs b) r = if 8 ≤ r then FMap.get d b r else d := by
    simpa [highRegs] using FMap.get_filter d b (fun k => decide (8 ≤ k)) r
  rw [FMap.get_append]
  by_cases hr : r < 8
  · simp only [hr, if_true] at hl ⊢
    split
    · exact hl
    · rename_i h; rw [hh, if_neg (by omega), ← hl, FMap.get_absent _ _ _ (Bool.eq_false_iff.mpr h)]
  · have : (lowRegs a).any (fun e => e.1 == r) = false := by
      simp only [lowRegs, List.any_eq_false, List.mem_filter, decide_eq_true_eq, beq_iff_eq]
      intro x hx; omega
    simp only [this, hh, hr, if_false, Bool.false_eq_true]; rw [if_pos (by omega)]

/-- A scalar register after the exchange with the service registers. -/
theorem Bank.getX_swap (b : Bank) (r : Reg) (h : r ≠ 0) : b.swapService.getX r = if r.val < 8 then b.svc.get 0 r else b.getX r := by
  simp only [Bank.getX, h, if_false, Bank.swapService, FMap.get_exchange]
theorem Bank.poisX_swap (b : Bank) (r : Reg) (h : r ≠ 0) : b.swapService.poisX r = if r.val < 8 then b.svcp.get false r else b.poisX r := by
  simp only [Bank.poisX, h, if_false, Bank.swapService, FMap.get_exchange]

theorem fld_w64 (n i k : Nat) (h : i + k ≤ 64) : fld (w64 n) i k = n / 2 ^ i % 2 ^ k := by
  unfold fld w64
  rw [BitVec.toNat_ofNat, show (64 : Nat) = i + (64 - i) by omega, Nat.pow_add, Nat.mod_mul_right_div_self, Nat.mod_mod_of_dvd]
  exact Nat.pow_dvd_pow 2 (by omega)

/-- What trap entry leaves (R338). -/
theorem takesTrap_trap (s : State) (cause : Nat) (v : W64) : TakesTrap cause v s (s.trap cause v) := by
  have hn : bankNo s.cur < 8 := by unfold bankNo; omega
  have hb : (s.trap cause v).b = Bank.enterTrap (bankNo s.cur) cause v s.b := State.b_modB s _
  refine ⟨onlyBank_modB s _, sameMem_modB s _, ?_⟩
  rw [hb]
  generalize s.b = b
  generalize bankNo s.cur = n at hn
  refine ⟨?_, rfl, rfl, rfl, ?_, ?_, rfl, ?_, ?_, ?_, ?_, ?_, ?_, ?_⟩
  · unfold OnlyTrap Bank.enterTrap; by_cases h9 : cause = 9 <;> cases hsv : b.service <;> simp [h9, hsv, Bank.swapService] <;> cases b <;> simp_all
  · unfold Bank.enterTrap; by_cases h9 : cause = 9 <;> cases hsv : b.service <;> simp [h9, hsv, Bank.swapService]
  · unfold Bank.enterTrap; by_cases h9 : cause = 9 <;> cases hsv : b.service <;> simp [h9, hsv, Bank.swapService]
  · show fld (w64 _) 0 1 = _
    rw [fld_w64 _ _ _ (by omega)]; cases b.service <;> cases (b.maskOn || cause == 9) <;> split <;> simp <;> omega
  · show fld (w64 _) 1 1 = _
    rw [fld_w64 _ _ _ (by omega)]
    by_cases h4 : n = 4
    · subst h4; cases b.service <;> cases (b.maskOn || cause == 9) <;> rfl
    · rw [show (n == 4) = false by simpa using h4]
      cases b.service <;> cases (b.maskOn || cause == 9) <;> simp [h4] <;> omega
  · show fld (w64 _) 2 3 = _
    rw [fld_w64 _ _ _ (by omega)]; cases b.service <;> cases (b.maskOn || cause == 9) <;> by_cases h4 : n = 4 <;> simp [h4] <;> omega
  · show fld (w64 _) 5 59 = _
    rw [fld_w64 _ _ _ (by omega)]; cases b.service <;> cases (b.maskOn || cause == 9) <;> by_cases h4 : n = 4 <;> simp [h4] <;> omega
  · intro h; unfold Bank.enterTrap; simp only [h, if_false]
    cases hsv : b.service <;> simp [Bank.swapService, hsv]
  · intro h; unfold Bank.enterTrap; simp only [h, if_true]
    cases hsv : b.service <;> simp [Bank.swapService]
  · intro r hr
    have e1 : (Bank.enterTrap n cause v b).x = if b.service then b.x else b.swapService.x := by
      unfold Bank.enterTrap; by_cases h9 : cause = 9 <;> cases hsv : b.service <;> simp [h9, hsv, Bank.swapService]
    have e2 : (Bank.enterTrap n cause v b).xp = if b.service then b.xp else b.swapService.xp := by
      unfold Bank.enterTrap; by_cases h9 : cause = 9 <;> cases hsv : b.service <;> simp [h9, hsv, Bank.swapService]
    have g := Bank.getX_swap b r hr
    have g' := Bank.poisX_swap b r hr
    unfold Bank.getX Bank.poisX at *
    rw [e1, e2]
    cases hsv : b.service <;> simp_all

/-! ## Accesses where nothing waits and no copies are left -/

/-- No access is refused for room (R122). -/
theorem State.full_calm {s : State} (h : s.Calm) (n : Nat) (locs : List Nat) : s.full n locs = false := by
  have e : (List.filter (fun l => s.stalled l n) (List.filter (farFrom s.cur) locs)) = [] :=
    List.filter_eq_nil_iff.mpr fun a _ => by simp [h.2.2.2 a n]
  have o : s.outstanding s.cur = 0 := by simp [State.outstanding, h.2.2.1]
  simp [State.full, e, o]

/-- Nothing of an activation is behind a release (R142). -/
theorem State.behind_calm {s : State} (h : s.Calm) (rel : Bool) : s.behind rel = false := by simp [State.behind, h.2.2.1]

/-- Where no copies are left, giving up copies changes nothing. -/
theorem State.pass_fresh {s : State} (h : s.stale = []) (act : Nat) (read : Bool) (f : Stale → Bool) : s.pass act read f = s := by
  unfold State.pass
  rw [show s.stale.map _ = s.stale by rw [h]; rfl]

/-- An access seen by its bank changes no byte and no poison of memory. -/
theorem State.bytesAt_touch (s : State) (loc a n : Nat) : (s.touch loc).bytesAt a n = s.bytesAt a n := by
  unfold State.touch
  split
  · induction n generalizing a with
    | zero => rfl
    | succ n ih => exact congrArg (s.byteAt a :: ·) (ih (a + 1))
  · rfl
theorem State.poisAt_touch (s : State) (loc a n : Nat) : (s.touch loc).poisAt a n = s.poisAt a n := by
  unfold State.touch
  split
  · induction n generalizing a with
    | zero => rfl
    | succ n ih => exact congrArg (s.pois.has (granule a) || ·) (ih (a + 1))
  · rfl

/-- A load returns the newest bytes (R139). -/
theorem State.loadNow_calm {s : State} (h : s.Calm) (act loc n : Nat) :
    s.loadNow act loc n = (s.touch loc, ⟨s.numAt loc n, s.poisAt loc n⟩) := by
  have hm : s.mergeLine loc = s := State.mergeLine_none s _ (by simp [h.1])
  have ht : ∀ l, (s.touch l).stale = s.stale := fun l => by unfold State.touch; split <;> rfl
  have hs : s.staleFor act loc n = [] := by simp [State.staleFor, h.2.1]
  have hr : s.readNow loc n = (s.touch loc, ⟨s.numAt loc n, s.poisAt loc n⟩) := by
    unfold State.readNow State.numAt
    simp only [hm, State.bytesAt_touch, State.poisAt_touch]
  unfold State.loadNow
  rw [hs, hr]
  split
  · exact congrArg (·, _) (State.pass_fresh (by rw [ht, h.2.1]) _ _ _)
  · rfl

/-- A store is performed at its issue (R118, R120). -/
theorem State.storePiece_calm {s : State} (h : s.Calm) (id : Nat) (rel : Bool) (va loc : Nat) (bs : List Byte) (p : Bool) :
    s.storePiece id rel va loc bs p = (s.touch loc).poke loc bs p := by
  unfold State.storePiece State.storeAt
  rw [h.2.2.2, State.behind_calm h, State.mergeLine_none s _ (by simp [h.1])]
  rfl

end Sys2Proof.Machine
end

