-- ==== Sys2Proof/Tests/Slice0.lean ====
section
/-! SUPPORT. Tests: decoding of words worked out by hand from the encoding tables, ill-formed terms that are refused, single steps whose
results the spec gives or that follow from it by hand, and witnesses that the hypotheses of the statements can be met. -/

namespace Sys2Proof.Tests

open Sys2Proof.Machine

/-! ## Words of every handler instruction -/

/-! Fields, where an instruction has them: rd or vd = 5, rs1 or vs1 = 9, rs2 or vs2 = 3, predicate 6, immediate i = 0x5A5, shift 0x13. -/

/-- R26, R82: LUI to BGEU, u = 0xABCDE, i = 0x5A5. -/
theorem decode_jumps :
    decode 0xABCDE2B7 = some (.lui 5 0xabcde#20) ∧ decode 0xABCDE297 = some (.auipc 5 0xabcde#20) ∧ decode 0x005A52EF = some (.jal 5 0x52c02#20) ∧
    decode 0x5A5482E7 = some (.jalr 5 9 0x5a5#12) ∧ decode 0x4A3488E3 = some (.beq 9 3 0x658#12) ∧ decode 0x4A3498E3 = some (.bne 9 3 0x658#12) ∧
    decode 0x4A34C8E3 = some (.blt 9 3 0x658#12) ∧ decode 0x4A34D8E3 = some (.bge 9 3 0x658#12) ∧ decode 0x4A34E8E3 = some (.bltu 9 3 0x658#12) ∧
    decode 0x4A34F8E3 = some (.bgeu 9 3 0x658#12) := by decide

/-- R26, R82: LB to SD. -/
theorem decode_loads_stores :
    decode 0x5A548283 = some (.lb 5 9 0x5a5#12) ∧ decode 0x5A549283 = some (.lh 5 9 0x5a5#12) ∧ decode 0x5A54A283 = some (.lw 5 9 0x5a5#12) ∧
    decode 0x5A54B283 = some (.ld 5 9 0x5a5#12) ∧ decode 0x5A54C283 = some (.lbu 5 9 0x5a5#12) ∧ decode 0x5A54D283 = some (.lhu 5 9 0x5a5#12) ∧
    decode 0x5A54E283 = some (.lwu 5 9 0x5a5#12) ∧ decode 0x4A3488A3 = some (.sb 9 3 0x4b1#12) ∧ decode 0x4A3498A3 = some (.sh 9 3 0x4b1#12) ∧
    decode 0x4A34A8A3 = some (.sw 9 3 0x4b1#12) ∧ decode 0x4A34B8A3 = some (.sd 9 3 0x4b1#12) := by decide

/-- R26, R82: ADDI to AND. -/
theorem decode_integer :
    decode 0x5A548293 = some (.addi 5 9 0x5a5#12) ∧ decode 0x5A54A293 = some (.slti 5 9 0x5a5#12) ∧ decode 0x5A54B293 = some (.sltiu 5 9 0x5a5#12) ∧
    decode 0x5A54C293 = some (.xori 5 9 0x5a5#12) ∧ decode 0x5A54E293 = some (.ori 5 9 0x5a5#12) ∧ decode 0x5A54F293 = some (.andi 5 9 0x5a5#12) ∧
    decode 0x01349293 = some (.slli 5 9 0x13#6) ∧ decode 0x0134D293 = some (.srli 5 9 0x13#6) ∧ decode 0x4134D293 = some (.srai 5 9 0x13#6) ∧
    decode 0x003482B3 = some (.add 5 9 3) ∧ decode 0x403482B3 = some (.sub 5 9 3) ∧ decode 0x003492B3 = some (.sll 5 9 3) ∧
    decode 0x0034A2B3 = some (.slt 5 9 3) ∧ decode 0x0034B2B3 = some (.sltu 5 9 3) ∧ decode 0x0034C2B3 = some (.xor 5 9 3) ∧
    decode 0x0034D2B3 = some (.srl 5 9 3) ∧ decode 0x4034D2B3 = some (.sra 5 9 3) ∧ decode 0x0034E2B3 = some (.or_ 5 9 3) ∧
    decode 0x0034F2B3 = some (.and_ 5 9 3) := by decide

/-- R26, R82, R84: MUL to REMUW. -/
theorem decode_products_and_words :
    decode 0x023482B3 = some (.mul 5 9 3) ∧ decode 0x023492B3 = some (.mulh 5 9 3) ∧ decode 0x0234A2B3 = some (.mulhsu 5 9 3) ∧
    decode 0x0234B2B3 = some (.mulhu 5 9 3) ∧ decode 0x0234C2B3 = some (.div 5 9 3) ∧ decode 0x0234D2B3 = some (.divu 5 9 3) ∧
    decode 0x0234E2B3 = some (.rem 5 9 3) ∧ decode 0x0234F2B3 = some (.remu 5 9 3) ∧ decode 0x5A54829B = some (.addiw 5 9 0x5a5#12) ∧
    decode 0x0134929B = some (.slliw 5 9 0x13#5) ∧ decode 0x0134D29B = some (.srliw 5 9 0x13#5) ∧ decode 0x4134D29B = some (.sraiw 5 9 0x13#5) ∧
    decode 0x003482BB = some (.addw 5 9 3) ∧ decode 0x403482BB = some (.subw 5 9 3) ∧ decode 0x003492BB = some (.sllw 5 9 3) ∧
    decode 0x0034D2BB = some (.srlw 5 9 3) ∧ decode 0x4034D2BB = some (.sraw 5 9 3) ∧ decode 0x023482BB = some (.mulw 5 9 3) ∧
    decode 0x0234C2BB = some (.divw 5 9 3) ∧ decode 0x0234D2BB = some (.divuw 5 9 3) ∧ decode 0x0234E2BB = some (.remw 5 9 3) ∧
    decode 0x0234F2BB = some (.remuw 5 9 3) := by decide

/-- R26, R87, R89: FENCE to CSRRCI. -/
theorem decode_system :
    decode 0xD630000F = some (.fence ⟨0, 0, 0xd63#12⟩) ∧ decode 0xD634828F = some (.fence ⟨5, 9, 0xd63#12⟩) ∧ decode 0x00000073 = some .ecall ∧ decode 0x00100073 = some .ebreak ∧ decode 0x10500073 = some .wfi ∧
    decode 0x02D492F3 = some (.csrrw 5 9 0x02d#12) ∧ decode 0x02D4A2F3 = some (.csrrs 5 9 0x02d#12) ∧
    decode 0x02D4B2F3 = some (.csrrc 5 9 0x02d#12) ∧ decode 0x02D6D2F3 = some (.csrrwi 5 0x0d#5 0x02d#12) ∧
    decode 0x02D6E2F3 = some (.csrrsi 5 0x0d#5 0x02d#12) ∧ decode 0x02D6F2F3 = some (.csrrci 5 0x0d#5 0x02d#12) := by decide

/-- R30: aq = 1, rl = 0. -/
theorem decode_atomics :
    decode 0x0434A2AF = some (.aaddW 5 9 3 true false) ∧ decode 0x0434B2AF = some (.aaddD 5 9 3 true false) ∧
    decode 0x0C34A2AF = some (.aswapW 5 9 3 true false) ∧ decode 0x0C34B2AF = some (.aswapD 5 9 3 true false) ∧
    decode 0x2434A2AF = some (.axorW 5 9 3 true false) ∧ decode 0x2434B2AF = some (.axorD 5 9 3 true false) ∧
    decode 0x2C34A2AF = some (.acasW 5 9 3 true false) ∧ decode 0x2C34B2AF = some (.acasD 5 9 3 true false) ∧
    decode 0x3434A2AF = some (.afaddW 5 9 3 true false) ∧ decode 0x4434A2AF = some (.aorW 5 9 3 true false) ∧
    decode 0x4434B2AF = some (.aorD 5 9 3 true false) ∧ decode 0x6434A2AF = some (.aandW 5 9 3 true false) ∧
    decode 0x6434B2AF = some (.aandD 5 9 3 true false) ∧ decode 0x8434A2AF = some (.aminW 5 9 3 true false) ∧
    decode 0x8434B2AF = some (.aminD 5 9 3 true false) ∧ decode 0xA434A2AF = some (.amaxW 5 9 3 true false) ∧
    decode 0xA434B2AF = some (.amaxD 5 9 3 true false) ∧ decode 0xC434A2AF = some (.aminuW 5 9 3 true false) ∧
    decode 0xC434B2AF = some (.aminuD 5 9 3 true false) ∧ decode 0xE434A2AF = some (.amaxuW 5 9 3 true false) ∧
    decode 0xE434B2AF = some (.amaxuD 5 9 3 true false) := by decide

/-- R31: ENDH to CNTRD. -/
theorem decode_handler_class :
    decode 0x0000000B = some .endh ∧ decode 0x0204800B = some (.aborth 9) ∧ decode 0x0400000B = some .masku ∧ decode 0x0600000B = some .unmasku ∧
    decode 0x0800000B = some .yield ∧ decode 0x0A34828B = some (.waitc 5 9 3) ∧ decode 0x0C04800B = some (.sleep 9) ∧
    decode 0x0034928B = some (.dqpush 5 9 3) ∧ decode 0x0200128B = some (.dqpop 5) ∧ decode 0x0400128B = some (.dqsplit 5) ∧
    decode 0x0604928B = some (.dqsteal 5 9) ∧ decode 0x0800128B = some (.dqlen 5) ∧ decode 0x0034A28B = some (.send 5 9 3) ∧
    decode 0x0234A28B = some (.sendu 5 9 3) ∧ decode 0x04D4A00B = some (.reply 9 13) ∧ decode 0x06D4A28B = some (.sendv 5 9 13) ∧
    decode 0x0034B00B = some (.cntadd 9 3) ∧ decode 0x0234B00B = some (.cntset 9 3) ∧ decode 0x0434B00B = some (.cntarm 9 3) ∧
    decode 0x0604B28B = some (.cntrd 5 9) := by decide

/-- R31: SHAPE to GRPLD. -/
theorem decode_memory_class :
    decode 0x000486AB = some (.shape 13 9) ∧ decode 0x023682AB = some (.ldg 5 13 3) ∧ decode 0x043689AB = some (.stg 19 13 3) ∧
    decode 0x00D492AB = some (.lda 5 9 .h .die) ∧ decode 0x023496AB = some (.stl 9 3 .h .die) ∧ decode 0x0430102B = some (.fenceS .die) ∧
    decode 0x0600102B = some .xfence ∧ decode 0x083492AB = some (.publish 5 9 3) ∧ decode 0x0A3492AB = some (.pubwait 5 9 3) ∧
    decode 0x0034A02B = some (.cuadd 9 3) ∧ decode 0x0234A02B = some (.cuaddi 9 3) ∧ decode 0x0006B2AB = some (.engq 5 13) ∧
    decode 0x0234B02B = some (.tpost 9 3) ∧ decode 0x0404B2AB = some (.engst 5 9) ∧ decode 0x00D4C02B = some (.grpst 9 13) ∧
    decode 0x0204C6AB = some (.grpld 13 9) := by decide

/-- R31: TRAP to RETRD. -/
theorem decode_service_class :
    decode 0x00D0005B = some (.trap 0x0d#5) ∧ decode 0x0200005B = some .tret ∧ decode 0x040482DB = some (.chkerr 5 9) ∧
    decode 0x0604805B = some (.ctxsv 9) ∧ decode 0x0804805B = some (.ctxld 9) ∧ decode 0x000492DB = some (.leaseq 5 9) ∧
    decode 0x0204905B = some (.capack 9) ∧ decode 0x043492DB = some (.suspr 5 9 3) ∧ decode 0x063492DB = some (.retrd 5 9 3) := by decide

/-- R32: INT8 from E4M3, SX4, ROWQ4, rtz. -/
theorem decode_conversions :
    decode 0x562482FB = some (.vcvt .int8 .e4m3 .rtz 9 5) ∧ decode 0x022492FB = some (.vqsx .sx4 .rtz 9 5) ∧
    decode 0x0224A2FB = some (.vdqsx .sx4 .rtz 9 5) ∧ decode 0x0224B2FB = some (.vqrow true .rtz 9 5) ∧
    decode 0x0224C2FB = some (.vdqrow true .rtz 9 5) ∧ decode 0x56D4D2FB = some (.vcvtsr .int8 .e4m3 13 9 5) := by decide

/-- R33, R34: VADD to VNEG. -/
theorem decode_vector_arithmetic :
    decode 0x031C8557 = some (.vaddVV 6 3 9 5) ∧ decode 0x031C95D7 = some (.vaddVX 6 19 9 5) ∧ decode 0x031CA5D7 = some (.vaddVI 6 0x13#5 9 5) ∧
    decode 0x071C8557 = some (.vsubVV 6 3 9 5) ∧ decode 0x071C95D7 = some (.vsubVX 6 19 9 5) ∧ decode 0x071CA5D7 = some (.vsubVI 6 0x13#5 9 5) ∧
    decode 0x0B1C8557 = some (.vmulVV 6 3 9 5) ∧ decode 0x0B1C95D7 = some (.vmulVX 6 19 9 5) ∧ decode 0x0B1CA5D7 = some (.vmulVI 6 0x13#5 9 5) ∧
    decode 0x0F1CB557 = some (.vfma 6 3 9 5) ∧ decode 0x131CB557 = some (.vfms 6 3 9 5) ∧ decode 0x171C8557 = some (.vminVV 6 3 9 5) ∧
    decode 0x171C95D7 = some (.vminVX 6 19 9 5) ∧ decode 0x171CA5D7 = some (.vminVI 6 0x13#5 9 5) ∧ decode 0x1B1C8557 = some (.vmaxVV 6 3 9 5) ∧
    decode 0x1B1C95D7 = some (.vmaxVX 6 19 9 5) ∧ decode 0x1B1CA5D7 = some (.vmaxVI 6 0x13#5 9 5) ∧ decode 0x1F048557 = some (.vabs 6 9 5) ∧
    decode 0x23048557 = some (.vneg 6 9 5) := by decide

/-- R33, R34: VAND to VSRA. -/
theorem decode_vector_bitwise :
    decode 0x271C8557 = some (.vandVV 6 3 9 5) ∧ decode 0x271C95D7 = some (.vandVX 6 19 9 5) ∧ decode 0x271CA5D7 = some (.vandVI 6 0x13#5 9 5) ∧
    decode 0x2B1C8557 = some (.vorVV 6 3 9 5) ∧ decode 0x2B1C95D7 = some (.vorVX 6 19 9 5) ∧ decode 0x2B1CA5D7 = some (.vorVI 6 0x13#5 9 5) ∧
    decode 0x2F1C8557 = some (.vxorVV 6 3 9 5) ∧ decode 0x2F1C95D7 = some (.vxorVX 6 19 9 5) ∧ decode 0x2F1CA5D7 = some (.vxorVI 6 0x13#5 9 5) ∧
    decode 0x331C8557 = some (.vshlVV 6 3 9 5) ∧ decode 0x331C95D7 = some (.vshlVX 6 19 9 5) ∧ decode 0x331CA5D7 = some (.vshlVI 6 0x13#5 9 5) ∧
    decode 0x371C8557 = some (.vshrVV 6 3 9 5) ∧ decode 0x371C95D7 = some (.vshrVX 6 19 9 5) ∧ decode 0x371CA5D7 = some (.vshrVI 6 0x13#5 9 5) ∧
    decode 0x3B1C8557 = some (.vsraVV 6 3 9 5) ∧ decode 0x3B1C95D7 = some (.vsraVX 6 19 9 5) ∧
    decode 0x3B1CA5D7 = some (.vsraVI 6 0x13#5 9 5) := by decide

/-- R33, R34: VCMP with LEU to VREDMIN. -/
theorem decode_vector_moves :
    decode 0x3F1C8757 = some (.vcmpVV 6 3 9 .leu) ∧ decode 0x3F1C97D7 = some (.vcmpVX 6 19 9 .leu) ∧
    decode 0x3F1CA7D7 = some (.vcmpVI 6 0x13#5 9 .leu) ∧ decode 0x431C8557 = some (.vsel 6 3 9 5) ∧ decode 0x471C8557 = some (.vperm 6 3 9 5) ∧
    decode 0x4B1815D7 = some (.vbcastX 6 19 5) ∧ decode 0x4B1825D7 = some (.vbcastI 6 0x13#5 5) ∧ decode 0x4C0C85D7 = some (.vmovx 21 9 1) ∧
    decode 0x53048557 = some (.vredadd 6 9 5) ∧ decode 0x57048557 = some (.vredmax 6 9 5) ∧ decode 0x5B048557 = some (.vredmin 6 9 5) := by decide

/-- R33, R34: VEXP2 to VLDI. -/
theorem decode_vector_others :
    decode 0x63048557 = some (.vexp2 6 9 5) ∧ decode 0x67048557 = some (.vlog2 6 9 5) ∧ decode 0x6B048557 = some (.vexp 6 9 5) ∧
    decode 0x6F048557 = some (.vlog 6 9 5) ∧ decode 0x73048557 = some (.vsin 6 9 5) ∧ decode 0x77048557 = some (.vcos 6 9 5) ∧
    decode 0x7B048557 = some (.vrcp 6 9 5) ∧ decode 0x7F048557 = some (.vrsqrt 6 9 5) ∧ decode 0x83048557 = some (.vsig 6 9 5) ∧
    decode 0x87048557 = some (.vtanh 6 9 5) ∧ decode 0x931C8557 = some (.vtopk 6 3 9 5) ∧ decode 0x941C8557 = some (.vrefill 3 9 5) ∧
    decode 0xA36CC5D7 = some (.vld 6 0xd#4 25 5) ∧ decode 0xA76CC3D7 = some (.vst 6 0xd#4 25 3) ∧ decode 0xAB6CC5D7 = some (.vlds 6 0xd#4 25 5) ∧
    decode 0xAF6CC3D7 = some (.vsts 6 0xd#4 25 3) ∧ decode 0xB36CD5D7 = some (.vldi 6 13 25 5) := by decide

/-! ## Words of commands, from the worked examples of the spec -/

/-- R239: the MMA of the example of "Tile instructions". -/
theorem decode_mma : tcwInstr 0x0000004241011010 0x2000000000400000 0x2000000000400040 0x0010000002000002 ⟨1, 1⟩ =
    some (.mma 0 .sx4 ⟨.bf16, 0x400000, 32⟩ ⟨.bf16, 0x400040, 2⟩ 1 0) := by decide

/-- R297, R299: the CP.GET of the example of "Copy instructions". -/
theorem decode_cpget : tcwInstr 0x000001010100C013 0x0000000001000000 0x2800000000410000 0x1000000000000000 ⟨1, 1⟩ =
    some (.cpGet 1 0x1000000 (some 2) 0x410000 0x10000 0 0) := by decide

/-- R333: the NE.SEND of the example of "Collective and network instructions". -/
theorem decode_nesend : tcwInstr 0x0000001841014015 0x0000000001000000 0x00000000010C0007 0x0000000000001000 ⟨1, 1⟩ =
    some (.neSend ⟨1024, false, false⟩ 0x1000000 ⟨7, 0, 3⟩ 1 4096 0) := by decide

/-- R259 to R316: one command of each other class, written from its operand table: ROT.SOLVE of set 2, FSEED of generator 1, a G.SCAT of
INT64 sums. -/
theorem decode_other_commands :
    tcwInstr 0x0000000080000041 0x400040 0 0 ⟨1, 1⟩ = some (.rotSolve 2 0x400040) ∧
    tcwInstr 0x0000000020000042 0 7 0 ⟨1, 1⟩ = some (.fseed 2 0 7) ∧
    tcwInstr 0x0000000010000034 0x400000 0x400100 0 ⟨1, 1⟩ = some (.gScatIadd 0x400000 0x400100) := by decide

/-- R37: command code 0x00 and codes that no class assigns are reserved. -/
theorem decode_reserved_commands :
    ((List.range 16).all fun c => (tcwInstr (w64 c) 0 0 0 ⟨1, 1⟩).isNone && (tcwInstr (w64 (0x80 + c)) 0 0 0 ⟨1, 1⟩).isNone) = true := by decide

/-- R27 to R35: words that no row admits: an unused field set, VCVT to the same format, a rounding code above 5, VCMP with condition 12,
vector register 15 as a target, AFADD of doublewords, FENCE.I, an unlisted major opcode. -/
theorem decode_refuses :
    [0x0010000B, 0x0000807B, 0x1060817B, 0x3C000C57, 0x00000F57, 0x3000302F, 0x0000100F, 0x00000007].all (fun w => (decode w).isNone) = true := by
  decide

/-- The word of an instruction is laid out in the byte order of the hardware and read back (R1). -/
theorem decode_table_word : decodeTableWord 32 0x00100093 = some (.addi 1 0 1) := by decide

/-! ## Ill-formed instructions are refused -/

def opA : OpaOperand := ⟨.bf16, 0x400000, 32⟩
def opFar : OpaOperand := ⟨.bf16, 2 ^ 56, 32⟩
def opWide : OpaOperand := ⟨.bf16, 0x400000, 2 ^ 20⟩
def opPacked : OpaOperand := ⟨.packed, 0x400000, 32⟩
def flags : NeFlags := ⟨1024, false, false⟩
def dest : NeDst := ⟨7, 0, 3⟩

/-- Register 15 is no target and no data source of these (R34). -/
theorem wf_refuses_register_15 :
    [Instr.reply 1 15, .sendv 1 2 15, .shape 15 1, .ldg 1 15 2, .stg 1 15 2, .engq 1 15, .grpst 1 15, .grpld 15 1, .vcvt .fp16 .fp32 .rne 1 15,
     .vqsx .sx2 .rne 1 15, .vdqsx .sx2 .rne 1 15, .vqrow true .rne 1 15, .vdqrow true .rne 1 15, .vcvtsr .fp16 .fp32 1 1 15, .vaddVV 0 1 2 15,
     .vaddVX 0 1 2 15, .vaddVI 0 1 2 15, .vsubVV 0 1 2 15, .vsubVX 0 1 2 15, .vsubVI 0 1 2 15, .vmulVV 0 1 2 15, .vmulVX 0 1 2 15, .vmulVI 0 1 2 15].all
      (fun i => !i.wf) = true ∧
    [Instr.vfma 0 1 2 15, .vfms 0 1 2 15, .vminVV 0 1 2 15, .vminVX 0 1 2 15, .vminVI 0 1 2 15, .vmaxVV 0 1 2 15, .vmaxVX 0 1 2 15, .vmaxVI 0 1 2 15,
     .vabs 0 1 15, .vneg 0 1 15, .vandVV 0 1 2 15, .vandVX 0 1 2 15, .vandVI 0 1 2 15, .vorVV 0 1 2 15, .vorVX 0 1 2 15, .vorVI 0 1 2 15,
     .vxorVV 0 1 2 15, .vxorVX 0 1 2 15, .vxorVI 0 1 2 15, .vshlVV 0 1 2 15, .vshlVX 0 1 2 15, .vshlVI 0 1 2 15].all (fun i => !i.wf) = true ∧
    [Instr.vshrVV 0 1 2 15, .vshrVX 0 1 2 15, .vshrVI 0 1 2 15, .vsraVV 0 1 2 15, .vsraVX 0 1 2 15, .vsraVI 0 1 2 15, .vsel 0 1 2 15, .vperm 0 1 2 15,
     .vbcastX 0 1 15, .vbcastI 0 1 15, .vredadd 0 1 15, .vredmax 0 1 15, .vredmin 0 1 15, .vexp2 0 1 15, .vlog2 0 1 15, .vexp 0 1 15, .vlog 0 1 15,
     .vsin 0 1 15, .vcos 0 1 15, .vrcp 0 1 15, .vrsqrt 0 1 15, .vsig 0 1 15, .vtanh 0 1 15, .vtopk 0 1 2 15, .vrefill 1 2 15, .vld 0 0 1 15,
     .vlds 0 0 1 15, .vldi 0 1 1 15].all (fun i => !i.wf) = true := by decide

/-- A conversion needs two formats (R32). -/
theorem wf_refuses_one_format : [Instr.vcvt .fp16 .fp16 .rne 1 2, .vcvtsr .int8 .int8 1 2 3].all (fun i => !i.wf) = true := by decide

/-- Operands outside their fields (R222, R239 to R244). -/
theorem wf_refuses_tile_operands :
    [Instr.mma 0 .sx4 opFar opA 1 0, .mma 0 .sx4 opA opFar 1 0, .mma 0 .sx4 opWide opA 1 0, .mma 0 .sx4 opA opA 4096 0, .mma 0 .sx4 opA opA 1 4096,
     .cellp 0 opPacked opA 1 0, .cellp 0 opA opPacked 1 0, .cellp 0 opFar opA 1 0, .cellp 0 opA opWide 1 0, .cellp 0 opA opA 4096 0, .cellp 0 opA opA 1 4096,
     .acdrain 0 true true .w36 (2 ^ 56) 0, .acdrain 0 true true .w36 0 (2 ^ 20), .acload 0 true (2 ^ 56) 0, .acload 0 true 0 (2 ^ 20),
     .acstat 0 (2 ^ 56)].all (fun i => !i.wf) = true := by decide

/-- Operands outside their fields (R259). -/
theorem wf_refuses_rotation_operands :
    [Instr.rotCfg true true 0 16 0 [1, 0, 0, 0], .rotCfg true true 0 1 256 [1, 0, 0, 0], .rotCfg true true 0 1 0 [1], .rotCfg true true 0 1 0 [64, 0, 0, 0],
     .rotTriStream (2 ^ 56), .rotTriAuto (2 ^ 56) 0 0, .rotTriAuto 0 16 0, .rotTriAuto 0 0 (2 ^ 32), .rotTriLoad 0 (2 ^ 56), .rotApply true 0 (2 ^ 56) 0 0,
     .rotApply true 0 0 (2 ^ 56) 0, .rotApply true 0 0 0 (2 ^ 56), .rotSolve 0 (2 ^ 56), .rotReadFp32 0 (2 ^ 56) 0, .rotReadFp32 0 0 (2 ^ 20),
     .rotReadRaw 0 (2 ^ 56), .rotReadStat (2 ^ 56), .rotAngToSig32 (2 ^ 56) 0 0, .rotAngToSig32 0 (2 ^ 56) 0, .rotAngToSig32 0 0 (2 ^ 24),
     .rotAngToBam32 (2 ^ 56) 0 0, .rotAngToBam32 0 (2 ^ 56) 0, .rotAngToBam32 0 0 (2 ^ 24)].all (fun i => !i.wf) = true := by decide

/-- Operands outside their fields (R290, R301). -/
theorem wf_refuses_fabric_and_copy_operands :
    [Instr.fload 0 (2 ^ 56), .fsel 0 (2 ^ 16), .farg 0 (2 ^ 56) 1, .farg 0 0 2048, .fdrain 0 true (2 ^ 56), .fstat true (2 ^ 56), .cpGet 0 0 none 0 0 0 0,
     .cpGet 257 0 none 0 0 0 0, .cpGet 1 (2 ^ 56) none 0 0 0 0, .cpGet 1 0 none (2 ^ 56) 0 0 0, .cpGet 1 0 none 0 (2 ^ 20) 0 0, .cpGet 1 0 none 0 0 (2 ^ 20) 0,
     .cpGet 1 0 none 0 0 0 (2 ^ 20), .cpPut true 0 0 0 0 0 0, .cpPut true 257 0 0 0 0 0, .cpPut true 1 (2 ^ 56) 0 0 0 0, .cpPut true 1 0 (2 ^ 56) 0 0 0,
     .cpPut true 1 0 0 (2 ^ 20) 0 0, .cpPut true 1 0 0 0 (2 ^ 20) 0, .cpPut true 1 0 0 0 0 (2 ^ 20)].all (fun i => !i.wf) = true ∧
    [Instr.cpMc (2 ^ 56) 0 0 0 0, .cpMc 0 (2 ^ 56) 0 0 0, .cpMc 0 0 (2 ^ 24) 0 0, .cpMc 0 0 0 (2 ^ 20) 0, .cpMc 0 0 0 0 (2 ^ 20), .cpWmArm 0 (2 ^ 56) 0,
     .cpWmArm 0 0 (2 ^ 21), .cpWmRead 0 (2 ^ 56), .cpShd true (2 ^ 56) 0 0 0 0, .cpShd true 0 256 0 0 0, .cpShd true 0 0 (2 ^ 24) 0 0,
     .cpShd true 0 0 0 (2 ^ 32) 0, .cpShd true 0 0 0 0 (2 ^ 48), .cpShd false 0 0 0 0 1].all (fun i => !i.wf) = true := by decide

/-- Operands outside their fields (R311, R331, R333). -/
theorem wf_refuses_gather_and_network_operands :
    [Instr.gRows true true (2 ^ 64) 0, .gRows true true 0 (2 ^ 64), .gEmb true true true (2 ^ 64) 0, .gEmb true true true 0 (2 ^ 64), .gScatFadd (2 ^ 64) 0,
     .gScatFadd 0 (2 ^ 64), .gScatIadd (2 ^ 64) 0, .gScatIadd 0 (2 ^ 64), .gScatOverwrite (2 ^ 64) 0, .gScatOverwrite 0 (2 ^ 64), .gKern 0 (2 ^ 64) 1,
     .gKern 0 0 128].all (fun i => !i.wf) = true ∧
    [Instr.neSend ⟨1000, false, false⟩ 0 dest 0 1 0, .neSend flags (2 ^ 56) dest 0 1 0, .neSend flags 0 dest 256 1 0, .neSend flags 0 dest 0 (2 ^ 32) 0,
     .neSend flags 0 ⟨2 ^ 16, 0, 0⟩ 0 1 0, .neSend flags 0 ⟨0, 4, 0⟩ 0 1 0, .neSend flags 0 ⟨0, 0, 64⟩ 0 1 0, .nePost (2 ^ 56) 1 0 0, .nePost 0 (2 ^ 32) 0 0,
     .nePost 0 1 (2 ^ 56) 0, .nePost 0 1 0 256, .neWrite ⟨1000, false, false⟩ 0 dest none 1 0, .neWrite flags (2 ^ 56) dest none 1 0,
     .neWrite flags 0 dest none (2 ^ 26) 0, .neWrite flags 0 dest none 1 (2 ^ 56), .neWrite flags 0 ⟨0, 4, 0⟩ none 1 0, .neWrite flags 0 dest (some 4096) 1 0,
     .neRead ⟨1000, false, false⟩ 0 0 1 0, .neRead flags (2 ^ 56) 0 1 0, .neRead flags 0 (2 ^ 16) 1 0, .neRead flags 0 0 (2 ^ 26) 0, .neRead flags 0 0 1 (2 ^ 56),
     .neXsend ⟨1000, false, false⟩ 0 0 1, .neXsend flags (2 ^ 56) 0 1, .neXsend flags 0 (2 ^ 56) 1, .neXsend flags 0 0 (2 ^ 17)].all (fun i => !i.wf) = true := by decide

/-- Every other check admits what lies inside: the commands of the worked examples are well formed. -/
theorem wf_admits :
    [Instr.mma 0 .sx4 opA opA 1 0, .cpGet 1 0x1000000 (some 2) 0x410000 0x10000 0 0, .neSend flags 0x1000000 dest 1 4096 0, .vcvt .bf16 .fp32 .rndm 1 2].all
      (fun i => i.wf) = true := by decide

/-! ## Small states -/

/-- Job 1 of the tests: installed on clusters 0 and 1, with handler 5 at the start of its code, 64 counters and one retry. -/
def job1 : Job :=
  { Job.init with jstate := 2, once := true, place := [0, 1], placed := [0, 1], marked := [0, 1], retry := 1,
                  img := ⟨[0x00100093, 0x0000000B], [⟨5, 0, false, none⟩], [], 64, [], [], [], []⟩ }

/-- Bank 0 running the handler. -/
def bank1 : Bank := { Bank.init with pc := 0x100000, st := .running, job := 1, hid := 5, seq := 1 }

/-- Module 2 with job 1 in place, its scratchpad runs at segment 2 of cluster 0 and at segment 0 of cluster 1, and bank 0 as given. -/
def st (b : Bank) : State :=
  { State.reset with modid := 2, jobs := [(1, job1)], banks := [(0, b)],
                     clusters := [(0, { Cluster.init with runs := [⟨1, 2, 1⟩] }), (1, { Cluster.init with runs := [⟨1, 0, 1⟩] })] }

/-- The bank with registers and poison given. -/
def bk (x : FMap W64) (xp : FMap Bool) : Bank := { bank1 with x := x, xp := xp }
/-- The bank with vector registers and their element type given (R93). -/
def bv (v : FMap V256) (vcfg : W64) : Bank := { bank1 with v := v, vcfg := vcfg }
/-- The state with x1 and x2 given. -/
def xs (a b : W64) : State := st (bk [(1, a), (2, b)] [])

/-- The next state. -/
def after (i : Instr) (s : State) : State := match exec i s with | .next t => t | _ => s
/-- A register of the executing bank in the next state. -/
def gives (i : Instr) (s : State) (r : Reg) : W64 := (after i s).b.getX r

/-! ## Single steps: results worked out by hand from the rules named -/

theorem test_addi_wraps : gives (.addi 3 1 1) (xs (BitVec.allOnes 64) 0) 3 = 0 := by decide
theorem test_addi_x0 : gives (.addi 0 1 1) (xs 5 0) 0 = 0 ∧ (after (.addi 0 1 1) (xs 5 0)).b.pc = 0x100004 := by decide
theorem test_lui_sign : gives (.lui 3 0x80000) (xs 0 0) 3 = 0xFFFFFFFF80000000 := by decide
theorem test_auipc : gives (.auipc 3 1) (xs 0 0) 3 = 0x101000 := by decide
theorem test_sltiu_sign : gives (.sltiu 3 1 (-1)) (xs 5 0) 3 = 1 := by decide
theorem test_slti_sign : gives (.slti 3 1 (-1)) (xs 5 0) 3 = 0 := by decide
theorem test_xori_sign : gives (.xori 3 1 (-1)) (xs 5 0) 3 = ~~~5 := by decide
theorem test_srai : gives (.srai 3 1 60) (xs (1#64 <<< 63) 0) 3 = 0xFFFFFFFFFFFFFFF8 := by decide
theorem test_sll_takes_six_bits : gives (.sll 3 1 2) (xs 1 65) 3 = 2 := by decide
theorem test_sub_order : gives (.sub 3 1 2) (xs 5 7) 3 = 0xFFFFFFFFFFFFFFFE := by decide
theorem test_sraw : gives (.sraw 3 1 2) (xs 0x80000000 31) 3 = 0xFFFFFFFFFFFFFFFF := by decide
theorem test_srlw_sign : gives (.srlw 3 1 2) (xs 0x80000000 32) 3 = 0xFFFFFFFF80000000 := by decide
theorem test_addw_wraps : gives (.addw 3 1 2) (xs 0x7FFFFFFF 1) 3 = 0xFFFFFFFF80000000 := by decide
theorem test_mulh : gives (.mulh 3 1 2) (xs (-1) 2) 3 = 0xFFFFFFFFFFFFFFFF := by decide
theorem test_mulhsu : gives (.mulhsu 3 1 2) (xs (-1) (-1)) 3 = 0xFFFFFFFFFFFFFFFF := by decide
theorem test_mulhu : gives (.mulhu 3 1 2) (xs (-1) (-1)) 3 = 0xFFFFFFFFFFFFFFFE := by decide
theorem test_div_zero : gives (.div 3 1 2) (xs 7 0) 3 = -1 ∧ gives (.rem 3 1 2) (xs 7 0) 3 = 7 := by decide
theorem test_div_overflow : gives (.div 3 1 2) (xs (1#64 <<< 63) (-1)) 3 = 1#64 <<< 63 ∧ gives (.rem 3 1 2) (xs (1#64 <<< 63) (-1)) 3 = 0 := by decide
theorem test_rem_sign : gives (.rem 3 1 2) (xs (-7) 2) 3 = -1 ∧ gives (.div 3 1 2) (xs (-7) 2) 3 = -3 := by decide
theorem test_divw_zero : gives (.divw 3 1 2) (xs 7 0) 3 = -1 ∧ gives (.remuw 3 1 2) (xs 0x80000000 0) 3 = 0xFFFFFFFF80000000 := by decide
/-- R81: poison moves with a value. -/
theorem test_poison_moves : (after (.add 3 1 2) (st (bk [] [(2, true)]))).b.poisX 3 = true := by decide

theorem test_beq_taken : (after (.beq 1 2 (-2)) (st { bk [] [] with pc := 0x100004 })).b.pc = 0x100000 := by decide
theorem test_jal_link : gives (.jal 3 2) (xs 0 0) 3 = 0x100004 ∧ (after (.jal 3 2) (xs 0 0)).b.pc = 0x100004 := by decide
/-- R85: a target past the code raises ACCESS. -/
theorem test_jalr_access : (after (.jalr 3 1 0) (xs 0x200000 0)).b.tcause = 4 ∧ (after (.jalr 3 1 0) (xs 0x200000 0)).b.getX 3 = 0 := by decide
theorem test_jalr_same_register : gives (.jalr 1 1 1) (xs 0x100004 0) 1 = 0x100004 := by decide

/-- R353, R338: trap entry exchanges x1 to x7, TRET exchanges them back. -/
theorem test_trap_swaps : gives (.trap 3) (xs 5 6) 1 = 0 ∧ (after (.trap 3) (xs 5 6)).b.svc = [(1, 5), (2, 6)] ∧ (after (.trap 3) (xs 5 6)).b.tval = 3 := by decide
theorem test_tret : gives .tret (after (.trap 3) (xs 5 6)) 2 = 6 ∧ (after .tret (after (.trap 3) (xs 5 6))).b.pc = 0x100000 := by decide

/-- R89, R91: VCFG reads 2 after dispatch; RNDM keeps its value where a reserved mode is written. -/
theorem test_csr_read : gives (.csrrs 3 0 0x803) (xs 0 0) 3 = 2 := by decide
theorem test_csr_reserved_mode : (after (.csrrwi 3 5 0x802) (xs 0 0)).b.rndm = 0 ∧ (after (.csrrwi 3 4 0x802) (xs 0 0)).b.rndm = 4 := by decide

/-- R105, R120: the window's first byte is at segment 2 of cluster 0. -/
def stored : State := after (.sd 1 2 8) (xs 0x400000 0x1122334455667788)
theorem test_sd_place : stored.byteAt (2 ^ 52 + 2 * 65536 + 8) = 0x88 ∧ stored.byteAt (2 ^ 52 + 2 * 65536 + 15) = 0x11 := by decide
theorem test_lb_sign : gives (.lb 3 1 8) stored 3 = 0xFFFFFFFFFFFFFF88 ∧ gives (.lbu 3 1 8) stored 3 = 0x88 := by decide
theorem test_lw_misaligned : (after (.lw 3 1 2) stored).b.tcause = 2 ∧ (after (.lw 3 1 2) stored).b.tval = 0x400002 := by decide
/-- R105: one byte past the run of 64 KiB. -/
theorem test_ld_outside : (after (.ld 3 1 0) (xs 0x410000 0)).b.tcause = 4 := by decide
theorem test_amax_d : (after (.amaxD 3 1 2 false false) (xs 0x400000 (-1))).numAt (2 ^ 52 + 131072) 8 = 0 := by decide
theorem test_amaxu_d : (after (.amaxuD 3 1 2 false false) (xs 0x400000 (-1))).numAt (2 ^ 52 + 131072) 8 = 2 ^ 64 - 1 := by decide
theorem test_acas_w : (after (.acasW 3 1 2 false false) (st (bk [(1, 0x400000), (2, 7), (3, 0)] []))).numAt (2 ^ 52 + 131072) 4 = 7 := by decide

/-- R169, R176: a range pushed and popped. -/
theorem test_dqpush : gives (.dqpush 3 1 2) (xs 2 9) 3 = 1 ∧ gives (.dqpop 3) (after (.dqpush 3 1 2) (xs 2 9)) 3 = 0x900000002 := by decide
theorem test_dqsplit : ((after (.dqsplit 3) (after (.dqpush 3 1 2) (xs 2 9))).coreAt 0).dq = [⟨2, 5, 1⟩, ⟨5, 9, 1⟩] := by decide

/-- R201: FP32 sums of elements: 1.0 + 2.0 = 3.0. -/
theorem test_vadd_fp32 : elem ((after (.vaddVV 0 2 1 3) (st (bv [(1, 0x3F800000), (2, 0x40000000)] 0x0A))).b.getV 3) 32 0 = 0x40400000 := by decide
/-- R33, R201: vs1 − vs2 in INT32. -/
theorem test_vsub_order : elem ((after (.vsubVI 0 1 1 3) (st (bv [(1, 5)] 2))).b.getV 3) 32 0 = 4 := by decide

/-- R239: the example of "Tile instructions": 2²⁵ + 1.5 is 2²⁵ + 2 with one rounding. -/
def mmaRun : RunCmd := ⟨0, ⟨0x0000004241011010, 0x2000000000400000, 0x2000000000400040, 0x0010000002000002, 1, none⟩, 0, [1], none, [], none⟩
def opaOf (t : Tile) (r : RunCmd) : Cluster := { Cluster.init with runs := [⟨1, 2, 1⟩], eng := [(0, { EngQ.init with runs := [r] })], tiles := [(0, t)] }
def small : Tile := { Tile.init with elems := [(0, 0x431000000)], rowm1 := 0, colm1 := 0 }
def mmaState : State :=
  { st bank1 with clusters := [(0, opaOf small mmaRun)],
                  mem := [(0, 0x80), (1, 0x3F), (3, 0x3F), (64, 0x80), (65, 0x3F), (66, 0x80), (67, 0x3F)].map fun e => (2 ^ 52 + 131072 + e.1, e.2) }
def mmaDone : State := after (.mma 0 .sx4 ⟨.bf16, 0x400000, 32⟩ ⟨.bf16, 0x400040, 2⟩ 1 0) mmaState
theorem test_mma : (mmaDone.tileAt 0 0).el 0 0 = 0x431000001 ∧ (mmaDone.tileAt 0 0).live = true ∧ (mmaDone.tileAt 0 0).flags = 0 := by decide
/-- The drain of the example: the doubleword of the element, and its status word; then the element in FP32. -/
def drainState (n : Nat) : State := { st { bank1 with job := 12 } with
  jobs := [(12, job1)], clusters := [(0, { opaOf { small with elems := [(0, 0x431000001)], live := true, free := false, owner := 12 } ⟨0, ⟨0x41, 0, 0, 0, 12, none⟩, n, [0], none, [], none⟩ with
                                          runs := [⟨12, 2, 1⟩] })] }
theorem test_acdrain : (after (.acdrain 0 false false .w36 0x400100 8) (drainState 0)).dwAt (2 ^ 52 + 131072 + 256) = 0x431000001 ∧
    (after (.acdrain 0 false false .w36 0x400100 8) (drainState 1)).dwAt (2 ^ 52 + 131072 + 264) = 0x00000001000C0000 := by decide
theorem test_acdrain_fp32 : (after (.acdrain 0 false false .fp32 0x400100 8) (drainState 0)).numAt (2 ^ 52 + 131072 + 256) 4 = 0x4C000000 := by decide

/-! ## Witnesses: states that meet the hypotheses of each statement, clause by clause -/

/-- A key's value is the default or a listed one. -/
theorem get_mem {α : Type} (d : α) (m : FMap α) (i : Nat) : FMap.get d m i = d ∨ ∃ e ∈ m, e.2 = FMap.get d m i := by
  induction m with
  | nil => exact .inl rfl
  | cons e t ih =>
    obtain ⟨k, v⟩ := e
    by_cases h : k = i
    · exact .inr ⟨(k, v), by simp, by simp [FMap.get, h]⟩
    · simp only [FMap.get, h, ↓reduceIte]
      rcases ih with h | ⟨e, he, h⟩
      · exact .inl h
      · exact .inr ⟨e, by simp [he], h⟩

/-- A state in which no unit is withdrawn, no channel is armed and no bank sleeps is calm. -/
theorem calm {s : State} (h : s.comm = [] ∧ s.stale = [] ∧ s.pend = [] ∧ s.units = []) (hc : ∀ e ∈ s.clusters, (∀ w ∈ e.2.wm, w.2.armed = false) ∧ e.2.inret = []) :
    s.Calm := by
  have key : ∀ ck, (∀ w ∈ (s.clusterAt ck).wm, w.2.armed = false) ∧ (s.clusterAt ck).inret = [] := fun ck => by
    rcases get_mem Cluster.init s.clusters ck with h | ⟨e, he, h⟩
    · rw [State.clusterAt, h]; exact ⟨by simp [Cluster.init], rfl⟩
    · simpa [State.clusterAt, ← h] using hc e he
  have wm : ∀ a n, s.wmStall a n = false := fun a n => by
    simp only [State.wmStall, State.wmHolds, Bool.and_eq_false_iff, List.any_eq_false]
    exact .inr fun w hw => by simp [State.wmBase, (key _).1 w hw]
  refine ⟨h.1, h.2.1, h.2.2.1, fun a n => ?_⟩
  simp [State.stalled, wm, State.retStall, State.chanStall, key, h.2.2.1, h.2.2.2, NSet.has]
/-- A load anywhere in such a state is performed when it issues. -/
theorem prompt {s : State} (h : s.Calm) (loc n : Nat) : s.Prompt loc n := by
  refine ⟨h.2.2.2 loc n, ?_, by simp [State.staleFor, h.2.1]⟩
  have : ∀ l : List Nat, (l.filter fun l => s.stalled l n) = [] := fun l => List.filter_eq_nil_iff.mpr fun a _ => by simp [h.2.2.2 a n]
  simp [State.full, this, State.outstanding, h.2.2.1]

/-- A window of a job without shadow regions. -/
theorem window {s : State} {ck job va n : Nat} (r : Run) (h : s.runOf ck job = some r ∧ ck < 192 ∧ r.seg + r.n ≤ 64 ∧ 0x400000 ≤ va ∧ va - 0x400000 + n ≤ r.n * 65536)
    (hr : (s.jobAt job).regions = []) : s.Window ck job va n (2 ^ 52 + ck * 2 ^ 22 + r.seg * 65536 + (va - 0x400000)) :=
  ⟨r, h.1, h.2.1, h.2.2.1, h.2.2.2.1, h.2.2.2.2, rfl, fun a _ _ => by simp [hr, regionAt]⟩

/-- O1 to O3. -/
theorem witness_ImmediateResults : (xs 1 2).mishap = .none := rfl
theorem witness_RegisterResults : (xs 1 2).mishap = .none := rfl
theorem witness_MultiplyDivideResults : (xs 1 0).mishap = .none := rfl
theorem witness_MismatchPoisonsResult : aluDest (.addi 3 1 1) = some 3 := rfl

/-- Taken to the last word of the code, and past it by one word; misaligned by one halfword; the register poisoned; a mismatch. -/
theorem witness_JumpsAndBranches :
    (let s := xs 5 5
     s.mishap = .none ∧ s.b.poisX 1 = false ∧ s.b.poisX 2 = false ∧ s.b.getX 1 = s.b.getX 2 ∧ s.b.getX 1 ≠ s.b.getX 3 ∧
      (s.b.pc + .ofInt 64 (2 * 2)).toNat % 4 = 0 ∧ s.inCode (s.b.pc + .ofInt 64 (2 * 2)) = true ∧ s.inCode (s.b.pc + .ofInt 64 (2 * 4)) = false ∧
      (s.b.pc + .ofInt 64 (2 * 4)).toNat % 4 = 0 ∧ (s.b.pc + .ofInt 64 (2 * 1)).toNat % 4 ≠ 0 ∧
      ¬ (s.b.getX 1).toInt < (s.b.getX 2).toInt ∧ (s.b.getX 3).toInt < (s.b.getX 1).toInt) ∧
    (st (bk [] [(1, true)])).b.poisX 1 = true ∧ (st (bk [] [(2, true)])).b.poisX 1 = false ∧ { xs 5 5 with mishap := .bad 0 }.badMishap = true ∧
    (let s := { st { bank1 with pc := 0x100008 } with agenda := [.issue 0] }
     s.agenda = .issue 0 :: [] ∧ s.karmos.diesHeld = false ∧ (s.clusterAt (0 / 80)).gated = false ∧
      (let u := { s with agenda := [], cur := 0 }
       u.b.st = .running ∧ u.b.service = false ∧ u.b.maskDue = 0 ∧ u.b.preempt = none ∧ u.b.maskOn = false ∧ u.inCode u.b.pc = false ∧ u.turn 0 = true)) := by decide

/-- The first and the last CSR of handler mode, a CSR of service mode, a read-only one, one that is not listed. -/
theorem witness_CsrInstructions :
    (xs 1 2).csr 0x800 = some 0 ∧ (xs 1 2).csr 0x809 = some 0 ∧ (xs 1 2).csr 0x5C0 = some 0 ∧ (st { bank1 with service := true }).b.service = true ∧
    (st { bank1 with service := true }).csr 0x5C4 = some 0 ∧ ¬ (0x5C0 ≤ 0x800 ∧ 0x800 ≤ 0x5C4) ∧ (xs 1 2).b.poisX 1 = false ∧ 0x800 / 2 ^ 10 ≠ 3 ∧
    0xC00 / 2 ^ 10 = 3 ∧ (xs 1 2).csr 0xC00 = some 0 ∧ (xs 1 2).csr 0x80A = none ∧ (xs 1 2).b.service = false ∧ (st (bk [] [(1, true)])).b.poisX 1 = true ∧
    (xs 1 2).b.loads = [] ∧ (st { bank1 with loads := [⟨1, .x 3 false, 8, false, false, [⟨0, none⟩]⟩] }).b.loads ≠ [] := by decide

theorem witness_TrapEntryAndReturn : (st { bank1 with service := true }).b.service = true ∧ (st bank1).b.service = false := by decide

/-- A scratchpad bank in retention stalls the access. -/
def asleep : State :=
  { xs 0x400000 7 with clusters := [(0, { Cluster.init with runs := [⟨1, 2, 1⟩], inret := [0] })] }
theorem st_calm {b : Bank} : (st b).Calm := calm ⟨rfl, rfl, rfl, rfl⟩ (by
  intro e he
  simp only [st, List.mem_cons, List.not_mem_nil, or_false] at he
  rcases he with rfl | rfl <;> exact ⟨fun _ hw => absurd hw List.not_mem_nil, rfl⟩)
/-- The last aligned doubleword of the run of 64 KiB; a place that stalls. -/
theorem witness_LoadsReadMemory :
    (xs 0x40FFF8 0).locate .read (0x40FFF8 + .ofInt 64 0) 8 1 3 3 = .ok (xs 0x40FFF8 0) (2 ^ 52 + 131072 + 65528) ∧
    (xs 0x40FFF8 0).locate .read (0x40FFF8 + .ofInt 64 7) 1 1 3 0 = .ok (xs 0x40FFF8 0) (2 ^ 52 + 131072 + 65535) ∧ (xs 0x40FFF8 0).mishap = .none ∧
    (xs 0x40FFF8 0).b.poisX 1 = false ∧ (∀ loc n, (xs 0x40FFF8 0).Prompt loc n) ∧ (xs 0x40FFF8 0).comm = [] ∧
    asleep.locate .read 0x400000 8 1 3 3 = .ok asleep (2 ^ 52 + 131072) ∧ asleep.stalled (2 ^ 52 + 131072) 8 = true ∧ asleep.full 8 [2 ^ 52 + 131072] = false ∧
    asleep.b.service = false := by
  refine ⟨rfl, rfl, by decide, by decide, prompt st_calm, rfl, rfl, ?_⟩; decide

/-- A store that waits, of the executing activation. -/
def held : State := { xs 0x400000 7 with pend := [⟨(st bank1).actKey, 0, 1, 0x400040, 0, 2 ^ 52 + 131072 + 64, 8, false, .store [0] false⟩] }
theorem witness_StoresWriteMemory :
    (xs 0x400000 7).locate .write 0x400000 8 3 2 3 = .ok (xs 0x400000 7) (2 ^ 52 + 131072) ∧ (xs 0x400000 7).stalled (2 ^ 52 + 131072) 8 = false ∧
    (xs 0x400000 7).full 8 [2 ^ 52 + 131072] = false ∧ asleep.locate .write 0x400000 8 3 2 3 = .ok asleep (2 ^ 52 + 131072) ∧
    asleep.full 8 [2 ^ 52 + 131072] = false ∧ asleep.stalled (2 ^ 52 + 131072) 8 = true ∧ asleep.mishap = .none ∧ asleep.b.poisX 1 = false ∧
    held.locate .write 0x400000 8 3 2 3 = .ok held (2 ^ 52 + 131072) ∧ held.full 8 [2 ^ 52 + 131072] = false ∧ held.stalled (2 ^ 52 + 131072) 8 = false ∧
    ∃ q ∈ held.pend, q.act = held.actKey := by
  refine ⟨rfl, by decide, by decide, rfl, by decide, by decide, by decide, by decide, rfl, ?_⟩; decide

/-- An address of the translated space, whose table entry is absent; one whose table entry an access waits for. -/
def tableWaits : State := { xs 0x1000000 0 with pend := [⟨0, 80, 0, 0, 0, 0, 4096, false, .store [] false⟩] }
theorem witness_LoadsAndStoresStop :
    (st (bk [] [(1, true)])).b.poisX 1 = true ∧ (0x400001 : Nat) % 8 ≠ 0 ∧
    (xs 0x410000 0).reach .read 0x410000 = (xs 0x410000 0, .refused) ∧
    (xs 0x1000000 0).reach .read 0x1000000 = (xs 0x1000000 0, .parked ⟨1, 0, 0⟩ 3 false 0) ∧ tableWaits.reach .read 0x1000000 = (tableWaits, .busy) ∧
    (xs 0 0).runOf 0 1 = some ⟨1, 2, 1⟩ ∧ 0x40FFFF - 0x400000 < 1 * 65536 ∧ 1 * 65536 ≤ 0x410000 - 0x400000 ∧ (0x7FFFFFFF / 2 ^ 28) % 4 = 3 := by decide

/-- A packet that places bytes for job 1. -/
def placing : State := { st bank1 with flight := [.pkt 0 ⟨2, 4, 0, 1, 0, 1, 0, [], true, true, false, none, .write 0x400000 none 2⟩ none 0] }
theorem witness_FencesComplete :
    (∀ p ∈ (st bank1).pend, p.act ≠ (st bank1).actKey) ∧ (¬ ∀ p ∈ held.pend, p.act ≠ held.actKey) ∧ (st bank1).flight = [] ∧
    ¬ (∀ x ∈ placing.flight, match x with | .pkt _ p _ _ => p.job = placing.jid → placesBytes p.body = false | _ => True) := by
  refine ⟨by decide, by decide, rfl, fun h => ?_⟩
  have := h _ (List.mem_singleton.mpr rfl) rfl
  revert this; decide

theorem witness_PoisonedOperandsTrap :
    (st (bk [] [(1, true)])).b.poisX 1 = true ∧ (st (bk [] [(2, true)])).b.poisX 1 = false ∧ (st (bk [] [(2, true)])).b.poisX 2 = true ∧
    (st (bk [] [(3, true)])).b.poisX 3 = true ∧ (st (bk [] [(3, true)])).b.poisX 2 = false ∧ (st bank1).b.maskOn = false := by decide

theorem witness_AtomicsUpdateMemory :
    (xs 0x40FFF8 7).locate .both 0x40FFF8 8 0 3 3 = .ok (xs 0x40FFF8 7) (2 ^ 52 + 131072 + 65528) ∧ (xs 0x40FFF8 7).ownSpad (2 ^ 52 + 131072 + 65528) = true ∧
    (xs 0x40FFF8 7).locate .both 0x40FFF8 4 0 3 2 = .ok (xs 0x40FFF8 7) (2 ^ 52 + 131072 + 65528) ∧
    (xs 0x40FFF8 7).stalled (2 ^ 52 + 131072 + 65528) 8 = false ∧ (xs 0x40FFF8 7).full 8 [2 ^ 52 + 131072 + 65528] = false ∧
    (∀ q ∈ (xs 0x40FFF8 7).pend, q.act ≠ (xs 0x40FFF8 7).actKey) ∧ (xs 0x40FFF8 7).b.poisX 3 = false := by
  refine ⟨rfl, by decide, rfl, ?_⟩; decide

/-- The scratchpad of cluster 1 through the remote window; T1 through a cached leaf; a bank whose send queue entries are all taken. -/
def full : State :=
  st { bk [(1, 0x40400000), (2, 7)] [] with buf := List.replicate 28 ⟨.cnt 0 1 0 (.add 1), some 0, false⟩ }
def paged : State := { xs 0x1000000 7 with tlb := [⟨0, 1, 1, 4, false, 0x1000, 0x5000, true, true⟩] }
theorem witness_PostedAndCommutativeUpdates :
    (xs 0x40400000 7).locate .both 0x40400000 4 0 0 2 = .ok (xs 0x40400000 7) (2 ^ 52 + 2 ^ 22) ∧ (xs 0x40400000 7).ownSpad (2 ^ 52 + 2 ^ 22) = false ∧
    isSpad (2 ^ 52 + 2 ^ 22) = true ∧ (xs 0x40400000 7).sqFreeTo 0 = true ∧ full.sqFreeTo 0 = false ∧
    full.locate .both 0x40400000 4 0 0 2 = .ok full (2 ^ 52 + 2 ^ 22) ∧ full.locate .both 0x40400000 8 0 0 3 = .ok full (2 ^ 52 + 2 ^ 22) ∧
    (xs 0x400000 7).locate .both 0x400000 8 0 0 3 = .ok (xs 0x400000 7) (2 ^ 52 + 131072) ∧ (xs 0x400000 7).ownSpad (2 ^ 52 + 131072) = true ∧
    paged.locate .both 0x1000000 8 0 0 3 = .ok paged 0x5000 ∧ isSpad 0x5000 = false ∧ paged.comm = [] ∧ paged.stalled 0x5000 8 = false ∧
    paged.full 8 [0x5000] = false ∧ (xs 0x400000 7).full 8 [2 ^ 52 + 131072] = false := by
  refine ⟨rfl, by decide, by decide, by decide, by decide, rfl, rfl, rfl, by decide, rfl, ?_⟩; decide

/-- A message for the core whose banks are all taken, with most of the context region free. -/
def crowded : State :=
  let s := st bank1
  { s with banks := [(0, bank1), (1, bank1), (2, bank1), (3, bank1)],
           clusters := [(0, { Cluster.init with runs := [⟨1, 2, 1⟩], queue := [⟨1, 5, false, some 0, true, none, ⟨0, 0, [], []⟩⟩] })] }
theorem witness_MaskedWindowAndYield :
    (st bank1).b.maskOn = false ∧ (st bank1).b.preempt = none ∧ (st { bank1 with maskOn := true }).b.maskOn = true ∧
    (st { bank1 with preempt := some .lease }).b.preempt ≠ none ∧ (st bank1).givesWay (st bank1).cur = false ∧ crowded.b.maskOn = false ∧
    (st { bank1 with maskOn := true }).b.service = false ∧ (st { bank1 with maskOn := true, service := true }).b.service = true ∧ (st bank1).b.poisX 1 = false ∧
    crowded.b.service = false ∧ crowded.givesWay crowded.cur = true := by decide

/-- A waiting bank. -/
def waits (w : Wait) : State := st { bank1 with st := .waiting, wait := w }
/-- The state with a job of two shadow regions, the second withdrawn. -/
def shadows (b : Bank) : State := { st b with jobs := [(1, { job1 with regions := [⟨0x2000000, 64, 3, 4, []⟩, ⟨0, 0, 0, 0, []⟩] })] }
/-- A load is outstanding, its data there or not. -/
def outst (got : Option (Nat × Bool)) : State := st { bank1 with loads := [⟨1, .x 3 true, 8, false, false, [⟨0, got⟩]⟩] }
theorem witness_WaitsOfAHandler :
    (st bank1).b.maskOn = false ∧ (xs 63 0).b.poisX 1 = false ∧ (xs 63 0).b.poisX 2 = false ∧ 63 < ((xs 63 0).jobAt (xs 63 0).jid).img.allot ∧
    ((xs 63 0).b.getX 2).toNat ≤ ((xs 63 0).counterAt (cntKey 0 1 63)).count.toNat ∧ ((xs 63 1).counterAt (cntKey 0 1 63)).count.toNat < ((xs 63 1).b.getX 2).toNat ∧
    ((xs 64 1).jobAt (xs 64 1).jid).img.allot ≤ ((xs 64 1).b.getX 1).toNat ∧ (xs 5 1).b.deadline = none ∧ ((xs (2 ^ 32 - 1) 1).b.getX 1).toNat < 2 ^ 32 ∧
    2 ^ 32 ≤ ((xs (2 ^ 32) 1).b.getX 1).toNat ∧ ((shadows bank1).jobAt (shadows bank1).jid).regions[0]? = some ⟨0x2000000, 64, 3, 4, []⟩ ∧
    (3 + 2 ^ 48 - 3) % 2 ^ 48 < 2 ^ 47 ∧ 2 ^ 47 ≤ (3 + 2 ^ 48 - 4) % 2 ^ 48 ∧
    ((waits (.counter 3 5 0)).bankAt 0).st = .waiting ∧ ((waits (.counter 3 5 0)).bankAt 0).wait = .counter 3 5 0 ∧
    ({ waits .sleep with banks := [(0, { bank1 with st := .waiting, wait := .sleep, deadline := some 0 })] } : State).reached 0 = true ∧
    genReached 3 3 = true ∧ genReached 3 4 = false ∧
    (∀ p ∈ (waits (.fence true)).pend, p.act ≠ ckOf 0 * 2 ^ 32 + ((waits (.fence true)).bankAt 0).seq) ∧ (waits (.fence true)).flight = [] ∧
    ((waits (.fence true)).bankAt 0).wait = .fence true ∧ 256 ≤ ((xs 256 0).b.getX 1).toNat ∧
    ((outst (some (7, true))).bankAt 0).loads[0]? = some ⟨1, .x 3 true, 8, false, false, [⟨0, some (7, true)⟩]⟩ ∧ ((outst none).bankAt 0).service = false ∧
    (∃ o, ((outst none).bankAt 0).loads[0]? = some o ∧ ∃ q ∈ o.parts, q.got = none) := by and_intros <;> decide

/-- A core whose deque holds ranges of two jobs, and a request and an answer on their way to it. -/
def dequed : State := { xs 2 9 with cores := [(0, { Core.init with dq := [⟨0, 1, 1⟩, ⟨2, 9, 1⟩, ⟨3, 4, 2⟩] })] }
def dequeFull : State := { xs 2 9 with cores := [(0, { Core.init with dq := List.replicate 64 ⟨0, 1, 2⟩ })] }
def asks : State := { dequed with flight := [.stealReq 5 0 1 0] }
def answered : State := { st { bank1 with st := .waiting, wait := .steal 3 0 0, slots := [0] } with flight := [.stealAns 0 0 1 0x900000005] }
theorem witness_DequesAndSteals :
    (dequed.coreAt (coreOf dequed.cur)).dq = [⟨0, 1, 1⟩] ++ ⟨2, 9, 1⟩ :: [⟨3, 4, 2⟩] ∧ (∀ x ∈ [(⟨3, 4, 2⟩ : Range)], x.job ≠ dequed.jid) ∧
    (2 < 9 ∧ (dequed.coreAt 0).dq.length < 64) ∧ 64 ≤ (dequeFull.coreAt 0).dq.length ∧ (∀ r ∈ (dequeFull.coreAt 0).dq, r.job ≠ dequeFull.jid) ∧
    ((xs 9 9).b.getX 2).toNat % 2 ^ 32 ≤ ((xs 9 9).b.getX 1).toNat % 2 ^ 32 ∧
    (xs 0x0F040002 0).b.maskOn = false ∧ fld 0x0F040002 28 36 = 0 ∧ fld 0x0F040002 0 16 = (xs 0x0F040002 0).modid.toNat ∧
    (xs 0x0F040002 0).inPlace 1 (fld 0x0F040002 16 2) (fld 0x0F040002 18 6) = true ∧ (xs 0x0F040002 0).b.freeSlot = some 0 ∧
    (xs 0x0F040002 0).sqFreeTo 0 = true ∧ (st { bank1 with slots := List.range 16 }).b.freeSlot = none ∧ full.sqFreeTo full.cur = false ∧
    asks.takeFlight 0 = some (.stealReq 5 0 1 0, { asks with flight := [] }) ∧ (asks.coreAt 0).dq = [] ++ ⟨0, 1, 1⟩ :: [⟨2, 9, 1⟩, ⟨3, 4, 2⟩] ∧
    answered.takeFlight 0 = some (.stealAns 0 0 1 0x900000005, { answered with flight := [] }) ∧ (answered.bankAt 0).st = .waiting ∧
    (answered.bankAt 0).wait = .steal 3 0 0 := by and_intros <;> decide

/-- A handle for handler 5 of job 1 on core 0 of cluster 0, with a no payload; and one that names each defect. -/
def handle : W64 := 0x0000280010000002
theorem witness_MessagesAreBuffered :
    (let s := xs handle 0x400000
     s.b.poisX 1 = false ∧ s.b.poisX 2 = false ∧ HandleOk s handle ∧ fld handle 55 1 = 0 ∧ fld handle 57 6 = 0 ∧ s.sqFreeTo s.cur = true ∧ s.b.freeSlot.isSome = true ∧
      payPlaces 2 0 0 (s.b.getX 2) s = .ok s [] ∧ s.mishap = .none ∧ s.Calm ∧ (14 : Nat) + (4 + 3) / 4 ≤ 15) ∧
    HandleOk full handle ∧ full.sqFreeTo full.cur = false ∧ fld (1#64 <<< 63) 63 1 = 1 ∧ fld (1#64 <<< 56) 56 1 = 1 ∧ 32 < fld (33#64 <<< 57) 57 6 ∧
    (xs 0 0).inPlace 1 (fld 0x0000280010080002 16 2) (fld 0x0000280010080002 18 6) = false ∧
    (((xs 0 0).jobAt (xs 0 0).jid).handler (fld 0x0000300010000002 43 12)).isNone = true ∧
    (let s := st { bank1 with msg := ⟨1, 5, false, none, false, none, ⟨handle, 0x0010000000000002, [], []⟩⟩ }
     fld s.b.msg.m.h1 52 1 = 1 ∧ s.b.reply = none) ∧ fld (st bank1).b.msg.m.h1 52 1 = 0 := by
  refine ⟨?_, by unfold HandleOk; decide, ?_⟩
  · refine ⟨by decide, by decide, by unfold HandleOk; decide, by decide, by decide, by decide, by decide, rfl, rfl, st_calm, by decide⟩
  · decide

/-- The highest counter of the allotment, on the own cluster and on cluster 1; one past it; a cluster outside the placement. -/
theorem witness_CounterInstructions :
    fld 0x10003F 21 43 = 0 ∧ fld 0x10003F 0 12 < ((xs 0x10003F 1).jobAt (xs 0x10003F 1).jid).img.allot ∧ fld 0x10003F 20 1 = 1 ∧
    fld 0x103F 20 1 = 0 ∧ (xs 0x103F 1).inPlace (xs 0x103F 1).jid (fld 0x103F 18 2) (fld 0x103F 12 6) = true ∧
    (xs 0x203F 1).inPlace (xs 0x203F 1).jid (fld 0x203F 18 2) (fld 0x203F 12 6) = false ∧ ((xs 64 1).jobAt (xs 64 1).jid).img.allot ≤ fld 64 0 12 ∧
    (xs 63 1).sqFreeTo 0 = true ∧ full.sqFreeTo 0 = false ∧ fld 0x103F 13 51 = 0 ∧ (xs 63 1).b.poisX 1 = false ∧ (xs 63 1).b.poisX 2 = false := by and_intros <;> decide

/-- An activation that owes a reply to its own module, one that has buffered it, one with PSN set; an abort under the retry limit, and past it. -/
def owing (r : Option Msg) (h1 : W64) : State :=
  st { bank1 with reply := r, msg := ⟨1, 5, false, none, false, none, ⟨handle, h1, [], []⟩⟩ }
theorem witness_EndAndAbort :
    (st bank1).b.service = false ∧ (st bank1).b.chki &&& 3 = 0 ∧ (st { bank1 with chki := 1 }).b.chki &&& 3 ≠ 0 ∧
    (∀ e ∈ (st bank1).b.buf, ∀ m sl, e.eff = .send m sl → (st bank1).isLocal m = true) ∧ (owing none 0x0010000000000002).b.reply = none ∧
    fld (owing none 0x0010000000000002).b.msg.m.h1 52 1 = 1 ∧ fld (owing none 0x0010000000000002).b.msg.m.h1 0 16 = (owing none 0).modid.toNat ∧
    (owing (some ⟨0x0100000000000002, 0, [], []⟩) 0x0010000000000002).isLocal ⟨0x0100000000000002, 0, [], []⟩ = true ∧
    (st bank1).b.loads = [] ∧ (outst none).b.loads ≠ [] ∧ (st bank1).assisted 8 = false ∧ (st bank1).b.wait = .none ∧ fld ((xs 1 0).b.getX 1) 0 1 = 1 ∧ fld (owing none 0).b.msg.m.h1 32 3 < ((owing none 0).jobAt 1).retry ∧
    ¬ (fld (owing none 0x100000000).b.msg.m.h1 32 3 < ((owing none 0).jobAt 1).retry) ∧ fld ((xs 0 0).b.getX 1) 0 1 = 0 ∧
    ((owing none 0).jobAt (owing none 0).b.msg.job).errh = 0xFFF ∧ fld (owing none 0).b.msg.m.h1 52 1 = 0 := by
  refine ⟨by decide, by decide, by decide, fun e he => by simp [st, bank1, State.b, State.bankAt, FMap.get, State.reset, Bank.init] at he, ?_⟩; and_intros <;> decide

/-- A bank with VCFG given: INT32, UINT8 saturating, FP32, FP16, BF16, four groups. -/
def vc (c : W64) : State := st (bv [(1, 0x3F800000)] c)
theorem witness_VectorArithmetic :
    (vc 2).mishap = .none ∧ (vc 2).b.ety.isInt = true ∧ (vc 0x24).b.ety = .uint ∧ (vc 0x24).b.satm = true ∧ (vc 0x0A).b.ety = .flt .fp32 ∧ (vc 0x09).b.ety = .flt .fp16 ∧
    (vc 0x0D).b.ety = .flt .bf16 ∧ fld (vc 0x82).b.vcfg 6 2 ≠ 3 ∧
    (let b := { bank1 with vcfg := 0x82, lgact := 1, lglen := 1 }
     (b.lgact.getLsbD 0 = true ∧ 0 % b.perGroup < b.lglen.toNat / 2 ^ (16 * 0) % 2 ^ 16) ∧ b.live 0 = true ∧ b.live 1 = false ∧ b.live 2 = false) := by and_intros <;> decide
theorem witness_VectorCompareAndMoves : (vc 2).mishap = .none ∧ (vc 0x0A).b.ety = .flt .fp32 ∧ (vc 0x06).b.ety = .uint := by and_intros <;> decide
theorem witness_VectorReductions : (vc 2).mishap = .none ∧ (vc 2).b.ety = .sint ∧ (vc 2).b.satm = false ∧ (vc 6).b.ety = .uint ∧ (vc 0x0A).b.ety = .flt .fp32 := by and_intros <;> decide
theorem witness_VectorConversions :
    (vc 2).mishap = .none ∧ (FF.bf16.value 0).isFin = true ∧
    (quantise 4 (fun _ => .rne) ((List.range 16).map fun _ => FF.bf16.value 0)).2 &&& 0x08 = 0 := by and_intros <;> decide
theorem witness_SpecialFunctions : (vc 0x0A).mishap = .none ∧ (vc 0x0A).b.ety = .flt .fp32 ∧ (vc 2).b.ety.isInt = true ∧
    (FF.fp32.round .rne false (.rat 1 3)).2.getLsbD 3 = true ∧ (FF.fp32.round .rne false (.rat 1 2)).2.getLsbD 3 = false := by and_intros <;> decide

/-- A gate control of width 8 (the merge, and both finishes), one with K = 0, one that is poisoned; deques for the refill. -/
def gate (ctl : V256) (vp : FMap (BitVec 8)) : State := st { bank1 with v := [(2, ctl)], vp := vp }
def refill (dq : List Range) (len : W64) (vp : FMap (BitVec 8)) : State :=
  { st { bank1 with vcfg := 0x82, v := [(1, 1)], vp := vp, lgact := 1, lglen := len } with cores := [(0, { Core.init with dq := dq })] }
theorem witness_TopKGateAndRefill :
    (let ctl := dwOf (((gate 0x800 []).b.readV 1).1.readV 2).2.1 0
     fld ctl 8 4 = 8 ∧ fld ctl 12 2 = 0 ∧ fld ctl 14 50 = 0 ∧ ¬ 248 < fld ctl 0 8) ∧ fld (dwOf (((gate 0x2800 []).b.readV 1).1.readV 2).2.1 0) 12 2 = 2 ∧
    fld (dwOf (((gate 0x900 []).b.readV 1).1.readV 2).2.1 0) 8 4 = 9 ∧ (((gate 0 [(2, 1)]).b.readV 1).1.readV 2).2.2.getLsbD 0 = true ∧
    (let s := refill [⟨0, 9, 2⟩, ⟨2, 70000, 1⟩] 1 []
     let r := s.b.readV 1
     fld s.b.vcfg 6 2 = 2 ∧ s.b.lgact.getLsbD 0 = true ∧ s.b.lglen.toNat / 2 ^ 0 % 2 ^ 16 ≤ r.2.1.toNat / 2 ^ 0 % 2 ^ 64 % 2 ^ 16 ∧ r.2.2.getLsbD 0 = false ∧
      (s.coreAt 0).dq = [⟨0, 9, 2⟩] ++ ⟨2, 70000, 1⟩ :: []) ∧
    ¬ (refill [] 2 []).b.lglen.toNat / 2 ^ 0 % 2 ^ 16 ≤ ((refill [] 2 []).b.readV 1).2.1.toNat % 2 ^ 16 ∧
    (∀ x ∈ ((refill [⟨0, 9, 2⟩] 1 []).coreAt 0).dq, x.job ≠ (refill [⟨0, 9, 2⟩] 1 []).jid) ∧ (∀ f ∈ (refill [⟨0, 9, 2⟩] 1 []).flight, (refill [⟨0, 9, 2⟩] 1 []).stealHere f = false) ∧ ((refill [] 1 [(1, 1)]).b.readV 1).2.2.getLsbD (8 / 4 * 0) = true := by and_intros <;> decide

/-- A row at the base of the window; elements a word apart; no element written. -/
theorem witness_VectorMemory :
    (let s := st { bank1 with x := [(1, 0x400000)], vstr := 4 }
     s.mishap = .none ∧ s.b.poisX 1 = false ∧ s.comm = [] ∧ (0x400000 % 32 = 0 ∧ s.reach .read 0x400000 = (s, .at (2 ^ 52 + 131072)) ∧
      regionAt (s.jobAt s.jid).regions 0x400000 = none) ∧ (List.range (256 / s.b.ew)).filter (s.b.writes 0) = List.range 8 ∧
      (∀ j ∈ List.range 8, s.reach .write (0x400000 + 4 * j) = (s, .at (2 ^ 52 + 131072 + 4 * j)))) ∧
    (List.range (256 / bank1.ew)).filter (bank1.writes 1) = [] ∧ (∀ b, (st b).Calm) :=
  ⟨by decide, by decide, fun _ => st_calm⟩

/-- A bank that names the last entry of the context region of its cluster, and that entry in memory with VALID set. -/
def atEntry (b : Bank) (off : Nat) (mem : List Host.Cell) : State := { st { b with x := [(1, w64 (ctxBase 0 + off))], service := true } with mem := mem }
def validImage : List Host.Cell := [(2 ^ 59 + 1024 * 255 + 7, 0x80)]
def suspended : State :=
  { st Bank.init with clusters := [(0, { Cluster.init with runs := [⟨1, 2, 1⟩], saved := [⟨255, false, true, false, bank1⟩] })], mem := validImage }
theorem numAt_zero {s : State} {loc n : Nat} (hu : s.units = []) (h : ∀ e ∈ s.mem, e.1 < loc ∨ loc + n ≤ e.1) : s.numAt loc n = 0 := by
  have none_ : ∀ a, s.erased a = false := fun a => by
    have hb : ∀ c b, s.bankOut c b = false := fun c b => by simp [State.bankOut, State.unitAt, hu, FMap.get, UnitRec.init, UnitRec.withdrawn]
    simp [State.erased, State.erasures, hb]
  have get : ∀ (m : List Host.Cell) i, (∀ e ∈ m, e.1 ≠ i) → FMap.get 0 m i = (0 : Byte) := fun m i hm => by
    induction m with
    | nil => rfl
    | cons e t ih => simp only [FMap.get, hm e (by simp), ↓reduceIte]; exact ih fun e he => hm e (by simp [he])
  induction n generalizing loc with
  | zero => rfl
  | succ n ih =>
    have h0 : s.byteAt loc = 0 := by rw [State.byteAt, none_]; exact get _ _ fun e he => by have := h e he; omega
    have h1 := ih (loc := loc + 1) fun e he => by have := h e he; omega
    simp only [State.numAt] at h1
    simp [State.numAt, State.bytesAt, leNat, h0, h1]
theorem ctx_toNat (off : Nat) (h : off < 2 ^ 18) : (w64 (ctxBase 0 + off)).toNat = ctxBase 0 + off := by
  have := (Config.ctxSlot 0).isLt
  simp only [w64, BitVec.toNat_ofNat, ctxBase] at *
  exact Nat.mod_eq_of_lt (by omega)
theorem witness_ContextsAreSavedAndLoaded :
    (∀ mem, (atEntry bank1 261120 mem).b.service = true ∧ (atEntry bank1 261120 mem).b.poisX 1 = false ∧
      ((atEntry bank1 261120 mem).b.getX 1).toNat = ctxBase (atEntry bank1 261120 mem).ck + 1024 * 255 ∧ (atEntry bank1 261120 mem).b.hid < 2 ^ 12 ∧
      (atEntry bank1 261120 mem).b.job < 2 ^ 15) ∧
    (let s : State := atEntry bank1 261120 validImage
     fld (s.dwAt (ctxLoc 0 (1024 * 255))) 63 1 = 1 ∧ s.numAt (ctxLoc 0 (1024 * 255 + 0x304)) 4 = 0 ∧ s.numAt (ctxLoc 0 (1024 * 255 + 0x398)) 104 = 0 ∧
      (s.savedBank 0 255).loads = [] ∧ s.b.loads = []) ∧
    ({ atEntry bank1 261120 validImage with clusters := [(0, { Cluster.init with saved := [⟨255, false, true, true, (outst none).b⟩] })] }.savedBank 0 255).loads ≠ [] ∧
    (outst none).b.loads ≠ [] ∧
    fld ((atEntry bank1 261120 []).dwAt (ctxLoc 0 (1024 * 255))) 63 1 = 0 ∧ ((st { bk [(1, 1)] [] with service := true }).b.getX 1).toNat % 1024 ≠ 0 ∧
    (suspended.choice 0).map Prod.snd = some (.saved 255 0) ∧ ckOf 0 = 0 ∧ (suspended.choice 0).map (fun c => (c.1.saved.find? (fun y => y.idx == 255)).isSome) = some true ∧
    (st bank1).b.chki &&& 3 = 0 ∧ (st { bk [(1, 1)] [] with chki := 1 }).b.chki &&& 3 ≠ 0 ∧ fld ((st { bk [(1, 1)] [] with chki := 1 }).b.getX 1) 0 1 = 1 := by
  have h : ∀ mem, (atEntry bank1 261120 mem).b.getX 1 = w64 (ctxBase 0 + 261120) := fun _ => rfl
  refine ⟨fun mem => ⟨rfl, rfl, by rw [h, ctx_toNat _ (by decide), show (atEntry bank1 261120 mem).ck = 0 from by show ckOf 0 = 0; decide], by show (5 : Nat) < _; decide, by show (1 : Nat) < _; decide⟩, ⟨?_, ?_, ?_, ?_⟩, ?_⟩
  · decide
  · exact numAt_zero rfl (by decide)
  · exact numAt_zero rfl (by decide)
  · decide
  · and_intros <;> decide

/-- The fields of a layout record at the base of the window (R134, R135): bits 64 of NR, 192 reserved, 206 of the element size, 205 RAG. -/
def layout (bytes : List (Nat × Byte)) : State := { xs 0x400000 0 with mem := bytes.map fun e => (2 ^ 52 + 131072 + e.1, e.2) }
def layoutNum (bytes : List (Nat × Byte)) : Nat := (layout bytes).numAt (2 ^ 52 + 131072) 32
/-- A record in v1 with indices in x2. -/
def record (v : V256) (x : W64) : State := st { bk [(2, x)] [] with v := [(1, v)] }
theorem witness_LayoutRecords :
    (let s := layout []
     s.mishap = .none ∧ s.b.poisX 1 = false ∧ s.comm = [] ∧ (s.b.getX 1).toNat % 32 = 0 ∧ s.reach .read (s.b.getX 1).toNat = (s, .at (2 ^ 52 + 131072)) ∧
      regionAt (s.jobAt s.jid).regions (s.b.getX 1).toNat = none ∧ s.poisAt (2 ^ 52 + 131072) 32 = false) ∧ (layout []).Calm ∧
    layoutNum [(24, 1)] / 2 ^ 192 % 2 ^ 11 ≠ 0 ∧ layoutNum [] / 2 ^ 64 % 2 ^ 32 = 0 ∧
    (let m := layoutNum [(0, 1), (8, 1), (25, 0x40)]
     m / 2 ^ 192 % 2 ^ 11 = 0 ∧ m / 2 ^ 208 % 2 ^ 15 = 0 ∧ m / 2 ^ 205 % 2 = 0 ∧ m / 2 ^ 128 % 2 ^ 64 = 0 ∧ m / 2 ^ 64 % 2 ^ 32 ≠ 0 ∧ m % 2 ^ 64 % 2 ^ (m / 2 ^ 206 % 2 ^ 2) ≠ 0) ∧
    (let m := layoutNum [(8, 1), (16, 1), (25, 0x20)]
     m / 2 ^ 205 % 2 = 1 ∧ m / 2 ^ 96 % 2 ^ 32 = 0 ∧ m / 2 ^ 224 % 2 ^ 32 = 0 ∧ m / 2 ^ 128 % 2 ^ 64 % 4 ≠ 0) ∧
    (let m := layoutNum [(8, 1), (16, 0xF8), (17, 0xFF), (18, 0xFF), (19, 0xFF), (20, 0xFF), (21, 0xFF), (22, 0xFF), (25, 0x20)]
     m / 2 ^ 128 % 2 ^ 64 % 4 = 0 ∧ m / 2 ^ 128 % 2 ^ 64 + 4 * (m / 2 ^ 64 % 2 ^ 32 + 1) = 2 ^ 56) ∧
    (let m := layoutNum [(8, 1), (16, 0xF4), (17, 0xFF), (18, 0xFF), (19, 0xFF), (20, 0xFF), (21, 0xFF), (22, 0xFF), (25, 0x20)]
     ¬ 2 ^ 56 ≤ m / 2 ^ 128 % 2 ^ 64 + 4 * (m / 2 ^ 64 % 2 ^ 32 + 1)) ∧
    (let m := layoutNum [(8, 1)]
     m / 2 ^ 64 % 2 ^ 32 = 1 ∧ m / 2 ^ 223 % 2 = 0) ∧
    (record 0 0).b.poisV 1 = 0 ∧ (record 0 0).b.poisX 2 = false ∧
    (let v := (2 ^ 223 + 2 ^ 204 + 2 ^ 96 + 2 ^ 64 + 0x400000 : Nat)
     v / 2 ^ 223 % 2 = 1 ∧ v / 2 ^ 205 % 2 = 0 ∧ (0 : Nat) < v / 2 ^ 64 % 2 ^ 32 ∧ ¬ (1 : Nat) < v / 2 ^ 64 % 2 ^ 32 ∧ (0 : Nat) < v / 2 ^ 96 % 2 ^ 32 ∧
      v / 2 ^ 96 % 2 ^ 32 ≤ 1 ∧ (v % 2 ^ 64 + (0 * (v / 2 ^ 224 % 2 ^ 32) + 0)) = 0x400000 ∧ v / 2 ^ 204 % 2 = 1) ∧
    (let v := (2 ^ 223 + 2 ^ 205 + 2 ^ 64 + 0x400000 * 2 ^ 128 : Nat)
     v / 2 ^ 205 % 2 = 1 ∧ v / 2 ^ 128 % 2 ^ 64 + 4 * 0 = 0x400000 ∧ v / 2 ^ 204 % 2 = 0 ∧ (layout [(4, 1)]).numAt (2 ^ 52 + 131072) 4 = 0 ∧
      (layout [(4, 1)]).numAt (2 ^ 52 + 131076) 4 = 1) := by
  refine ⟨?_, calm ⟨rfl, rfl, rfl, rfl⟩ ?_, ?_⟩
  rotate_left
  · exact (by decide : ∀ e ∈ (layout []).clusters, (∀ w ∈ e.2.wm, w.2.armed = false) ∧ e.2.inret = [])
  all_goals (and_intros <;> decide)

/-- A region about to turn; one whose hidden side a command writes; a scratchpad bank that has been idle for its time, on its way. -/
def idle (entering : NSet) : State :=
  { st bank1 with cycles := 1600, clusters := [(0, { Cluster.init with runs := [⟨1, 2, 1⟩], retEn := true, retIdle := 1, entering := entering })] }
theorem witness_RegionsAndRetention :
    ((shadows (bk [(2, 4)] [])).jobAt 1).regions[0]? = some ⟨0x2000000, 64, 3, 4, []⟩ ∧ (4 : Nat) = ((shadows (bk [(2, 4)] [])).b.getX 2).toNat % 2 ^ 48 ∧
    ((shadows bank1).jobAt 1).regions[2]? = none ∧ (¬ ∃ l ∈ ([] : List (Nat × Nat × Bool)), l.2.2 = true ∧ l.2.1 = (3 + 1) % 2) ∧
    (∃ l ∈ [((7 : Nat), (0 : Nat), true)], l.2.2 = true ∧ l.2.1 = (3 + 1) % 2) ∧ (idle []).cycles = 1600 ∧ ((idle []).clusterAt 0).retEn = true ∧
    (((idle []).clusterAt 0).lastAcc.get 0 15 + 1600 * ((idle []).clusterAt 0).retIdle ≤ (idle []).cycles) ∧ ((idle []).clusterAt 0).entering.has 15 = false ∧
    ((idle [15]).clusterAt 0).entering.has 15 = true ∧ ((idle []).unitAt (unitOf 6 0 15)).st = .inService := by decide

/-- An FSTAT, an ACSTAT and an ACZERO in v1; queues that are full; a tile of another job; a record of one FSTAT. -/
def fstat : V256 := 0x62 + 0x400000 * 2 ^ 64
def pushes (v : V256) (q : List QCmd) (cls : Nat) (t : Tile) : State :=
  { st { bank1 with v := [(1, v)] } with
    clusters := [(0, { Cluster.init with runs := [⟨1, 2, 1⟩], eng := [(cls, { EngQ.init with q := q })], tiles := [(0, t)] })] }
def someCmd : QCmd := ⟨0x62, 0x400000, 0, 0, 1, none⟩
def other : Tile := { Tile.init with free := false, owner := 2 }
def fstatRecord : List W64 := [0x400, 0, 0, 0, 0, 0, 0, 0, 0x62, 0x400000, 0, 0, 0, 0, 0, 0]
def posting (t : W64) (b : Bank) : State :=
  { st { b with x := [(1, 0x400000), (2, t)] } with mem := [(2 ^ 52 + 131073, 4), (2 ^ 52 + 131136, 0x62), (2 ^ 52 + 131146, 0x40)] }
def recRead : State := match readRec 0x400000 1 (posting 0x100000 bank1) with | .ok u _ => u | _ => State.reset
theorem witness_EngineInstructions :
    (pushes fstat [] 2 Tile.init).b.poisV 1 = 0 ∧ (pushes fstat [] 2 Tile.init).tcwCheck 0 1 0x62 0x400000 0 0 = none ∧
    (pushes fstat [] 2 Tile.init).tcwCheck 0 1 2 0 0 0 = some 2 ∧ ((pushes fstat [] 2 Tile.init).engAt 0 2).q.length < 16 ∧
    16 ≤ ((pushes fstat (List.replicate 16 someCmd) 2 Tile.init).engAt 0 2).q.length ∧
    (pushes 0x30 [] 0 Tile.init).tcwCheck 0 1 0x30 0 0 0 = none ∧ ((pushes 0x30 [] 0 other).projected 0 0).foreign 1 = true ∧
    ((pushes 0x30 [] 0 Tile.init).projected 0 0).foreign 1 = false ∧ ((pushes 0x30 [] 0 Tile.init).projected 0 0).broken (.aczero 0 false 0) = false ∧
    tcwInstr 0x30 0 0 0 ⟨1, 1⟩ = some (.aczero 0 false 0) ∧ tcwInstr 0x70 0x400000 0 0 ⟨1, 1⟩ = some (.acstat 0 0x400000) := by and_intros <;> decide
theorem witness_TaskRecords :
    (let t : W64 := 0x100000
     fld t 21 43 = 0 ∧ fld t 0 12 = 0 ∧ fld t 20 1 = 1 ∧ (posting t bank1).b.localPosts < 4 ∧ (match readRec 0x400000 1 (posting t bank1) with | .ok _ r => r == (fstatRecord, false) | _ => false) = true) ∧
    recRead.recFault 0 1 fstatRecord = none ∧ recRead.cur = 0 ∧ recRead.b = (posting 0x100000 bank1).b ∧
    (let t : W64 := 0x1000
     fld t 20 1 = 0 ∧ (posting t bank1).inPlace 1 (fld t 18 2) (fld t 12 6) = true ∧ fld t 18 2 * 64 + fld t 12 6 ≠ (posting t bank1).ck) ∧
    fld (1 : W64) 0 12 ≠ 0 ∧ (0x400001 : Nat) % 128 ≠ 0 := by
  and_intros <;> decide +kernel
def pooled : State := { st bank1 with clusters := [(0, { Cluster.init with runs := [⟨1, 2, 1⟩], tts := [⟨0, 1, fstatRecord, .pooled⟩], ttsNext := 1 })] }
def arriving : State := { st bank1 with flight := [.record 0 0 0 1 fstatRecord] }
def spilled : State := { st bank1 with jobs := [(1, { job1 with carafe := [⟨0, 2, default, fstatRecord, 0x10000⟩] })] }
theorem witness_EngineInstructionsAndTaskPool :
    (fld ((xs 0x104 0).b.getX 1) 9 55 = 0 ∧ 5 < fld ((xs 6 0).b.getX 1) 0 4 ∧ fld ((xs 0x100 0).b.getX 1) 8 1 = 1) ∧
    arriving.takeFlight 0 = some (.record 0 0 0 1 fstatRecord, { arriving with flight := [] }) ∧ (arriving.jobAt 1).gone = false ∧
    (arriving.jobAt 1).placed.has 0 = true ∧ (arriving.clusterAt 0).tts.length < 64 ∧ (arriving.jobAt 1).section 0 2 = [] ∧
    (pooled.clusterAt 0).tts = ⟨0, 1, fstatRecord, .pooled⟩ :: [] ∧ fld (fstatRecord.getD 0 0) 10 2 ≠ 0 ∧ fld (fstatRecord.getD 8 0) 0 4 = 2 ∧
    pooled.engGone 0 2 = false ∧ (pooled.engAt 0 2).q = [] ∧
    spilled.jobs.length = 1 ∧ (spilled.jobAt 1).section 0 2 = [⟨0, 2, default, fstatRecord, 0x10000⟩] ∧ (∀ q ∈ (pooled.clusterAt 0).tts, 0 ≤ q.id) ∧
    pooled.tcwCheck 0 1 0x62 0x400000 0 0 = none := by and_intros <;> decide

/-- A group of job 1 on cluster 0, and the state of its router. -/
def group1 : Group := ⟨0, 2, 1, 3, 0, [0]⟩
def grouped (g : GrpSt) (fl : List Flight) (x : W64) (buf : List Buffered) : State :=
  { st { bk [(1, x)] [] with buf := buf } with jobs := [(1, { job1 with groups := [group1] })], groups := [(grpKey 0 1 0, g)], flight := fl }
def contribs (n : Nat) : List Buffered := (List.range n).map fun k => ⟨.contrib (k + 1) [] [], none, false⟩
def root : GrpSt := { GrpSt.init with entry := some ⟨none, [], 1⟩ }
def inner (parent : Option Nat) (children : List Nat) : GrpSt := { GrpSt.init with entry := some ⟨parent, children, 0⟩ }
def value : GrpVal := ⟨[1, 2], [false, false], 0⟩
theorem witness_GroupInstructions :
    (let s := grouped root [] 0 []
     (s.jobAt s.jid).groups[0]? = some group1 ∧ group1.members.has s.ck = true ∧ (s.grpAt (grpKey 0 1 0)).dis = false ∧ s.b.contributes 0 = false ∧ s.contribsHeld < 4) ∧
    (grouped root [] 0 [⟨.contrib 0 [] [], none, false⟩]).b.contributes 0 = true ∧ (grouped root [] 0 (contribs 4)).b.contributes 0 = false ∧
    4 ≤ (grouped root [] 0 (contribs 4)).contribsHeld ∧ (grouped root [] 0 (contribs 3)).contribsHeld < 4 ∧ 256 ≤ ((grouped root [] 256 []).b.getX 1).toNat ∧
    ((grouped root [] 256 []).b.getX 1).toNat < 512 ∧
    (let s := grouped root [.contrib 0 0 ⟨1, 0, 0, [1, 2], [false, false]⟩] 0 []
     s.takeFlight 0 = some (.contrib 0 0 ⟨1, 0, 0, [1, 2], [false, false]⟩, { s with flight := [] }) ∧ (s.grpAt (grpKey 0 1 0)).entry = some ⟨none, [], 1⟩ ∧
      (s.counterAt (cntKey 0 1 3)).armed = false) ∧
    (let s := grouped (inner (some 1) [2]) [.part 0 1 0 2 value] 0 []
     s.takeFlight 0 = some (.part 0 1 0 2 value, { s with flight := [] }) ∧ (s.grpAt (grpKey 0 1 0)).entry = some ⟨some 1, [2], 0⟩) ∧
    (let s := grouped (inner (some 2) [1]) [.result 0 1 0 value] 0 []
     s.takeFlight 0 = some (.result 0 1 0 value, { s with flight := [] }) ∧ (s.grpAt (grpKey 0 1 0)).entry = some ⟨some 2, [1], 0⟩) := by
  and_intros <;> decide +kernel

/-- A message for handler 5 of job 1 on its way, with the job as given and messages queued. -/
def msg5 : Msg := ⟨0x000028001F000002, 0, [], []⟩
def q5 : QMsg := ⟨1, 5, false, none, true, none, msg5⟩
def mail (j : Job) (queue : List QMsg) (f : Flight) : State :=
  { st bank1 with jobs := [(1, j)], clusters := [(0, { Cluster.init with runs := [⟨1, 2, 1⟩], queue := queue })], flight := [f] }
theorem witness_ArrivalsAtTheQueues :
    (let s := mail job1 (List.replicate 3 q5) (.msg 1 0 0 msg5)
     s.takeFlight 0 = some (.msg 1 0 0 msg5, { s with flight := [] }) ∧ fld msg5.h1 52 1 = 0 ∧ (s.jobAt (fld msg5.h0 28 15)).jstate = 2 ∧
      (s.unitAt (unitId 9 0 0 0)).st ≠ .retired ∧ (s.jobAt 1).placed.has 0 = true ∧ (s.jobAt 1).carafe = [] ∧ s.spaceUsed 0 1 false < (s.jobAt 1).depth) ∧
    (let s := mail { job1 with carPages := 1 } (List.replicate 4 q5) (.msg 1 0 0 msg5)
     ¬ s.spaceUsed 0 1 false < (s.jobAt 1).depth ∧ (∃ loc, s.carSlot (s.jobAt 1) = some loc ∧ loc + 512 ≤ 2 ^ 52) ∧ s.comm = [] ∧ msg5.pay.length ≤ 32) ∧
    (let s := mail job1 (List.replicate 4 q5) (.msg 1 0 0 msg5)
     s.carSlot (s.jobAt 1) = none) ∧
    ((mail { job1 with jstate := 3 } [] (.msg 1 0 0 msg5)).jobAt 1).jstate = 3 ∧ ((mail Job.init [] (.msg 1 0 0 msg5)).jobAt 1).once = false ∧
    (let m : Msg := ⟨0x0100280010000002, 0, [], []⟩
     let s := { mail job1 [] (.reply 1 0 m) with banks := [(0, { bank1 with slots := [0], slotJob := [(0, 1)] })] }
     s.takeFlight 0 = some (.reply 1 0 m, { s with flight := [] }) ∧ fld m.h0 43 12 ≠ 0xFFF ∧ ((s.jobAt 1).handler (fld m.h0 43 12)).isSome = true ∧
      ((s.bankAt ((fld m.h0 16 2 * 64 + fld m.h0 18 6) * 16 * 5)).slotJob.find? fun x => x.1 == 0) = some (0, 1) ∧ fld m.h1 0 16 ≠ s.modid.toNat ∧
      (s.jobAt 1).gone = false ∧ (s.bankAt 5).slotJob = []) ∧ ({ job1 with jstate := 3 } : Job).gone = true ∧
    fld (0x017FF80010000002 : W64) 43 12 = 0xFFF ∧
    (let s := mail { job1 with carafe := [⟨0, 0, q5, [], 0x10000⟩] } [q5, q5] (.marker 0 1)
     (s.jobAt 1).placed.has 0 = true ∧ (s.jobAt 1).carafe.filter (fun e => e.ck == 0 && e.sec == 0) = [⟨0, 0, q5, [], 0x10000⟩] ∧ s.spaceUsed 0 1 false ≤ (s.jobAt 1).depth / 2 ∧
      s.refillDue 0 1 true = false) := by
  and_intros <;> decide +kernel

/-- A counter about to fire, and units on their way to it, to memory and to a line in commutative state. -/
def counted (c : Counter) (op : CntOp) : State := { st bank1 with counters := [(cntKey 0 1 63, c)], flight := [.cnt 1 0 80 1 63 op] }
def add1 (va : Nat) : Posted := ⟨80, true, 1, va, .add, 8, 1, 0⟩
def posted (va : Nat) : State := { st bank1 with flight := [.atomic 1 0 (add1 va) none] }
def line (cls dies : FMap (List W64)) : State := { st bank1 with comm := [⟨0x5000, true, dies, cls, false⟩] }
theorem witness_UpdatesInFlight :
    (let s := counted { Counter.init with count := 1, thresh := 3, armed := true } (.add 1)
     s.takeFlight 0 = some (.cnt 1 0 80 1 63 (.add 1), { s with flight := [] }) ∧ (s.jobAt 1).marked.has 0 = true ∧ (s.jobAt 1).placed.has 0 = true ∧ 63 < (s.jobAt 1).img.allot ∧
      ((s.counterAt (cntKey 0 1 63)).count + 1).toNat < (s.counterAt (cntKey 0 1 63)).thresh.toNat) ∧
    (let s := counted { Counter.init with count := 2, thresh := 3, armed := true, act := 1 } (.add 1)
     (s.counterAt (cntKey 0 1 63)).thresh.toNat ≤ ((s.counterAt (cntKey 0 1 63)).count + 1).toNat ∧ (s.counterAt (cntKey 0 1 63)).act = 1 ∧ (s.jobAt 1).carafe = [] ∧
      s.spaceUsed 0 1 false < (s.jobAt 1).depth) ∧
    ((st bank1).jobAt 1).img.allot ≤ 64 ∧
    (let s := posted 0x40FFF8
     s.takeFlight 0 = some (.atomic 1 0 (add1 0x40FFF8) none, { s with flight := [] }) ∧
      (∀ q ∈ s.pend, q.act ≠ 80) ∧ { s with flight := [] }.place 0 0 1 .both 0x40FFF8 = ({ s with flight := [] }, .at (2 ^ 52 + 131072 + 65528)) ∧ s.stalled (2 ^ 52 + 131072 + 65528) 8 = false ∧ s.comm = [] ∧
      s.poisAt (2 ^ 52 + 131072 + 65528) 8 = false ∧ atomNew .add 8 0 1 0 = some 1) ∧
    (let s := { asleep with flight := [.atomic 1 0 (add1 0x400000) none] }
     s.place 0 0 1 .both 0x400000 = (s, .at (2 ^ 52 + 131072)) ∧ s.stalled (2 ^ 52 + 131072) 8 = true) ∧
    (tableWaits.place 0 0 1 .both 0x1000000).2 = .busy ∧ (posted 0x410000).place 0 0 1 .both 0x410000 = (posted 0x410000, .refused) ∧
    (line [(0, List.replicate 8 1)] []).comm = [⟨0x5000, true, [], [(0, List.replicate 8 1)], false⟩] ∧ (List.replicate 8 (1 : W64)).length = 8 ∧
    (line [] [(0, List.replicate 8 1)]).comm = [⟨0x5000, true, [(0, List.replicate 8 1)], [], false⟩] := by and_intros <;> decide +kernel

/-- Four waiting banks and a message; a core under lease; a gang with a reservation; a masked window that is too long. -/
def queued : State := { st Bank.init with clusters := [(0, { Cluster.init with runs := [⟨1, 2, 1⟩], queue := [q5] })] }
def waited : State := { crowded with cycles := 3200, banks := [(0, { bank1 with st := .waiting, wait := .sleep }), (1, bank1), (2, bank1), (3, bank1)] }
def leased (w : Wait) (b : BankSt) : State :=
  { st { bank1 with st := b, wait := w } with units := [(coreUnit 0, { UnitRec.init with st := .leased })] }
def ganged : State := { st bank1 with jobs := [(1, { job1 with reloc := true }), (2, { job1 with gang := true, place := [0], placed := [], reserving := true, reserved := [0] })] }
theorem witness_DispatchAndPreemption :
    (queued.choice 0).map Prod.snd = some (.msg q5 0) ∧ ((queued.jobAt 1).handler 5).isSome = true ∧
    (bankNo 0 ≠ 4 ∧ (waited.bankAt 0).st = .waiting ∧ (waited.bankAt 0).wait = .sleep ∧ (waited.bankAt 0).service = false ∧ (waited.bankAt 0).maskOn = false ∧
      (waited.bankAt 0).since + 3200 ≤ waited.cycles ∧ waited.givesWay 0 = true) ∧
    ((leased (.fence true) .waiting).leaseAsks 0 = true ∧ ((leased (.fence true) .waiting).bankAt 0).st = .waiting ∧ ((leased .none .running).bankAt 0).st = .running) ∧
    ganged.gangAsks 0 = true ∧ (ganged.bankAt 0).st = .running ∧
    ((leased (.steal 3 0 0) .waiting).bankAt 0).wait = .steal 3 0 0 ∧
    (let s := { st { bank1 with maskOn := true } with cycles := 1024 }
     (s.bankAt 0).maskOn = true ∧ (s.bankAt 0).maskStart + 1024 ≤ s.cycles ∧ (s.bankAt 0).service = false ∧ (s.bankAt 0).st = .running) ∧
    ({ st { bank1 with maskOn := true, service := true } with cycles := 1024 }.bankAt 0).service = true ∧ ((st bank1).bankAt 0).maskOn = false := by
  and_intros <;> decide +kernel

/-- Core 15 of cluster 63 of die 2, the last core; one past it; capacity notifications; a retirement record. -/
def lastCore : W64 := w64 (unitId 1 2 63 15)
def note : CapNote := ⟨w32 (unitId 1 0 0 0), false, 7, 16, 15, 1, 0⟩
def notes (j : Job) (x : W64) : State := { xs x 0 with jobs := [(1, j)] }
def retired (a : W64) : State := { xs 0 a with karmos := { Karmos.init with recs := [⟨List.replicate 8 1, true, false⟩] } }
theorem witness_ServiceInstructions :
    (unitValid lastCore.toNat = true ∧ unitValid (unitId 1 2 63 16) = false ∧ 0 < lastCore.toNat / 2 ^ 28 ∧ lastCore.toNat / 2 ^ 28 ≠ 9 ∧
      unitId 9 0 0 0 / 2 ^ 28 = 9 ∧ unitValid (unitId 9 0 0 0) = true ∧ (xs lastCore 1024).b.poisX 1 = false ∧ (xs lastCore 1024).b.poisX 2 = false) ∧
    ((xs lastCore 1024).b.getX 2).toNat ≤ 1024 ∧ ¬ ((xs lastCore 1025).b.getX 2).toNat ≤ 1024 ∧ (xs lastCore 1).b.service = false ∧
    (st { bank1 with service := true }).b.service = true ∧ 2 ^ 31 ≤ (0 + 2 ^ 32 - 1) % 2 ^ 32 ∧ (1 + 2 ^ 32 - 1) % 2 ^ 32 < 2 ^ 31 ∧
    (let s := notes { job1 with capLast := 1, unacked := [note], held := [note] } 1
     (s.jobAt 1).held = [note] ∧ ((s.jobAt 1).unacked.filter fun n => !decide ((1 + 2 ^ 32 - n.seq) % 2 ^ 32 < 2 ^ 31)).length < 4) ∧
    ((notes { job1 with capLast := 1, unacked := [note] } 1).jobAt 1).held = [] ∧
    4 ≤ ((List.replicate 4 { note with seq := 2 }).filter fun n => !decide ((1 + 2 ^ 32 - n.seq) % 2 ^ 32 < 2 ^ 31)).length ∧
    (retired 0x400000).karmos.recs.length ≤ 1 ∧ (retired 0x400000).karmos.recs[0]? = some ⟨List.replicate 8 1, true, false⟩ ∧
    ((retired 0x400008).b.getX 2).toNat % 32 ≠ 0 ∧ (retired 0x40FFC0).Calm ∧ (retired 0x40FFC0).Window 0 1 0x40FFC0 64 (2 ^ 52 + 0 * 2 ^ 22 + 2 * 65536 + (0x40FFC0 - 0x400000)) := by
  refine ⟨by decide, by decide, by decide, by decide, by decide, by decide, by decide, by decide, by decide, by decide, by decide, by decide, by decide,
    calm ⟨rfl, rfl, rfl, rfl⟩ (by decide), window ⟨1, 2, 1⟩ (by decide) (by decide)⟩

/-- An OPA of cluster 0 due, running and halted, held; another unit of the cluster withdrawn. -/
def opa : W32 := w32 (unitId 2 0 0 0)
def lease (start : Nat) : Lease := ⟨false, false, 0, start, 0, 0, 1, true, true⟩
def leases (x : UnitRec) (cycles : Nat) : State := { State.reset with units := [(opa.toNat, x)], cycles := cycles }
theorem witness_LeasesAndScores :
    (State.reset.jobs = [] ∧ unitValid opa.toNat = true ∧ opa.toNat / 2 ^ 28 = 2 ∧ (State.reset.karmos.period.get 0 2) = 600) ∧
    (let s := leases UnitRec.init 960000000000
     (s.unitAt opa.toNat).due = none ∧ (s.unitAt opa.toNat).run = none ∧ (s.unitAt opa.toNat).st ≠ .retired ∧ (s.unitAt opa.toNat).ended + 600 * 1000000000 ≤ s.time) ∧
    (leases UnitRec.init 959999999998).time < 0 + 600 * 1000000000 ∧
    (let s := leases { UnitRec.init with due := some (lease 0) } 0
     (s.unitAt opa.toNat).due = some (lease 0) ∧ s.assisted 0 = false ∧ s.leaseOk opa.toNat = true ∧ (∀ e ∈ s.units, e.1 ≠ opa.toNat → e.2.due = none)) ∧
    (∃ e ∈ [(unitId 1 0 0 0, { UnitRec.init with st := .leased })], e.1 ≠ opa.toNat ∧ e.2.st = .leased ∧ unitCk e.1 = unitCk opa.toNat ∧ e.1 / 2 ^ 28 ∈ [1, 2, 3, 4, 6]) ∧
    (let s := leases { UnitRec.init with st := .leased, run := some (lease 0), score := 1023 } 960000
     (s.unitAt opa.toNat).run = some (lease 0) ∧ (lease 0).start + 600000 ≤ s.time ∧ s.karmos.newPeriod.get none 2 = none ∧ (s.unitAt opa.toNat).score < 1024 ∧
      (s.unitAt opa.toNat).askRetire = false ∧ (lease 0).halted = true) ∧ UnitRec.init.leaving = none ∧
    { State.reset with dsplit := 2 }.assisted 1 = true ∧ { State.reset with dsplit := 0 }.assisted 1 = false ∧
    (leases { UnitRec.init with st := .held } 16000000000).time = 10000000000 ∧ (leases { UnitRec.init with st := .held } 15999999998).time < 10000000000 ∧
    ((leases UnitRec.init 0).units.map Prod.fst).Nodup ∧ (({ State.reset with cycles := 138240000000000 } : State).dieAt 2).halved < ({ State.reset with cycles := 138240000000000 } : State).time / 86400000000000 := by
  and_intros <;> decide

/-- An engine of cluster 0 that runs a command of job 1, with bytes at the base of the window. -/
def run1 (prog : Nat) (aux : List Nat) : RunCmd := ⟨0, ⟨0, 0, 0, 0, 1, none⟩, prog, aux, none, [], none⟩
def engine (cls : Nat) (r : RunCmd) (c : Cluster) (bytes : List (Nat × Byte)) : State :=
  { st bank1 with cmd := ⟨0, cls, 0, 0⟩, mem := bytes.map fun e => (2 ^ 52 + 131072 + e.1, e.2),
                  clusters := [(0, { c with runs := [⟨1, 2, 1⟩], eng := [(cls, { EngQ.init with runs := [r] })] })] }
/-- Where the window of job 1 on cluster 0 lies. -/
theorem at_ (cls : Nat) (r : RunCmd) (c : Cluster) (bytes : List (Nat × Byte)) {va n : Nat} (h : 0x400000 ≤ va) (hn : va - 0x400000 + n ≤ 65536) :
    (engine cls r c bytes).Window 0 1 va n (2 ^ 52 + 0 * 2 ^ 22 + 2 * 65536 + (va - 0x400000)) :=
  window ⟨1, 2, 1⟩ ⟨rfl, by decide, by decide, h, by omega⟩ rfl
theorem engine_calm (cls : Nat) (r : RunCmd) (c : Cluster) (bytes : List (Nat × Byte)) (h : (∀ w ∈ c.wm, w.2.armed = false) ∧ c.inret = []) :
    (engine cls r c bytes).Calm := calm ⟨rfl, rfl, rfl, rfl⟩ (by simpa [engine] using h)

/-- No counter of such a state is armed, so that the end of a command posts no message. -/
theorem engine_quiet (r : RunCmd) (cls : Nat) (r' : RunCmd) (c : Cluster) (bytes : List (Nat × Byte)) : r.Quiet (engine cls r' c bytes) := fun _ => .inl rfl

def opaWith (t : Tile) (prog : Nat) (bytes : List (Nat × Byte)) : State := engine 0 (run1 prog []) { Cluster.init with tiles := [(0, t)] } bytes
def recTile : Tile := { small with isRec := true }
theorem witness_TileCommands :
    (∀ t prog bytes, (opaWith t prog bytes).run? = some (run1 prog []) ∧ (opaWith t prog bytes).mishap = .none ∧ (opaWith t prog bytes).Calm) ∧
    (run1 0 []).parked = none ∧ ((opaWith other 0 []).tileAt 0 0).foreign 1 = true ∧ ((opaWith small 0 []).tileAt 0 0).foreign 1 = false ∧
    ((opaWith small 0 []).tileAt 0 0).isRec = false ∧ ((opaWith small 0 []).tileAt 0 0).colm1 < 128 ∧ ((opaWith small 0 []).tileAt 0 0).rowm1 + 1 = 1 ∧
    ((opaWith recTile 0 []).tileAt 0 0).isRec = true ∧ opPacked.fmt = .packed ∧ opFmtStore opA.fmt = some .bf16 ∧
    (∀ i, i < 1 → (opaWith small 0 []).Window 0 1 (opPacked.base + i * opPacked.str + 0 * sxBytes (sxK .sx4)) (sxBytes (sxK .sx4)) (2 ^ 52 + 131072 + i * 32)) ∧
    (∀ i k, i < 1 → k < 16 → (opaWith recTile 0 []).Window 0 1 (opA.base + i * opA.str + (16 * 0 + k) * opFmtSize opA.fmt) (opFmtSize opA.fmt)
      (2 ^ 52 + 131072 + k * 2)) ∧
    ((opaWith { small with live := true } 0 []).tileAt 0 0).live = true ∧ ((opaWith small 0 []).tileAt 0 0).config = (0, 0, false, 0) ∧
    (opaWith small 0 []).Window 0 1 (0x400100 + 0 * 8) (1 * 8) (2 ^ 52 + 0 * 2 ^ 22 + 2 * 65536 + (0x400100 + 0 * 8 - 0x400000)) ∧
    (opaWith small 1 []).Window 0 1 (0x400100 + 1 * 8) 8 (2 ^ 52 + 0 * 2 ^ 22 + 2 * 65536 + (0x400100 + 1 * 8 - 0x400000)) ∧
    (let s := (opaWith small 0 [(0x109 + 3, 0)]).dwAt (2 ^ 52 + 131072 + 0x108)
     fld s 36 7 = small.rowm1 ∧ fld s 43 7 = small.colm1 ∧ fld s 50 2 = small.isRec.toNat) ∧
    fld ((opaWith small 0 [(0x10D, 1)]).dwAt (2 ^ 52 + 131072 + 0x108)) 36 7 ≠ small.rowm1 ∧
    (opaWith small 0 []).Window 0 1 0x40FFF0 16 (2 ^ 52 + 0 * 2 ^ 22 + 2 * 65536 + (0x40FFF0 - 0x400000)) := by
  refine ⟨fun t prog bytes => ⟨rfl, rfl, engine_calm _ _ _ _ ⟨fun _ hw => absurd hw List.not_mem_nil, rfl⟩⟩, rfl, by decide, by decide, by decide, by decide, by decide, by decide, rfl, rfl, ?_, ?_,
    by decide, by decide, at_ _ _ _ _ (by decide) (by decide), at_ _ _ _ _ (by decide) (by decide), by decide, by decide, at_ _ _ _ _ (by decide) (by decide)⟩
  · intro i hi; obtain rfl : i = 0 := by omega
    exact at_ _ _ _ _ (by decide) (by decide)
  · intro i k hi hk; obtain rfl : i = 0 := by omega
    have hs : opFmtSize opA.fmt = 2 := rfl
    have e : opA.base + 0 * opA.str + (16 * 0 + k) * opFmtSize opA.fmt = 0x400000 + k * 2 := by rw [hs]; show 0x400000 + 0 * 32 + _ = _; omega
    have := at_ 0 (run1 0 []) { Cluster.init with tiles := [(0, recTile)] } [] (va := 0x400000 + k * 2) (n := 2) (by omega) (by omega)
    rw [e, hs]; simpa [opaWith] using this

/-- The first step of a command, and the later ones: a status word that the tile took when it was free or its own, and one that has been read. -/
def opaStep (t : Tile) (prog : Nat) (aux : List Nat) : State := engine 0 (run1 prog aux) { Cluster.init with tiles := [(0, t)] } []
theorem witness_TileCommands_steps :
    (∀ t prog aux, (opaStep t prog aux).run? = some (run1 prog aux) ∧ (opaStep t prog aux).mishap = .none ∧ (run1 prog aux).parked = none ∧
      (run1 prog aux).Quiet (opaStep t prog aux) ∧ (opaStep t prog aux).Calm) ∧
    (run1 0 []).aux = [] ∧ (run1 0 [1]).aux ≠ [] ∧ (run1 0 [1]).aux.length = 1 ∧ (run1 0 [1]).aux = [1] ∧ 1 < (run1 0 [0, 0, 0]).aux.length ∧
    (run1 0 [0, 0, 0]).prog < ((opaStep small 0 [0, 0, 0]).tileAt 0 0).rowm1 + 1 ∧ ((opaStep small 1 [0, 0, 0]).tileAt 0 0).rowm1 + 1 ≤ (run1 1 [0, 0, 0]).prog :=
  ⟨fun _ _ _ => ⟨rfl, rfl, rfl, engine_quiet _ _ _ _ _, engine_calm _ _ _ _ ⟨fun _ hw => absurd hw List.not_mem_nil, rfl⟩⟩, by decide⟩

/-- An RTA: free, of another job, of job 1 with group 0 on set 0. -/
def tri (nc : Nat) (owner : Nat) (ms : Int) : Tri := { Tri.init with nc := nc, rows := (List.range nc).map fun i => ⟨List.replicate (nc - i) ms, 0, 0, false⟩, free := owner == 0, owner := owner }
def array (owner left : Nat) (t : Tri) : Cluster :=
  { Cluster.init with rta := ⟨owner == 0, owner, 0, [(0, { RtaGroup.init with act := true, nc := 2, left := left })], [(0, t)]⟩ }
def rta (prog : Nat) (aux : List Nat) (c : Cluster) (bytes : List (Nat × Byte)) : State := engine 1 (run1 prog aux) c bytes
theorem witness_TriangleSets :
    (∀ prog aux o l t bytes, (rta prog aux (array o l t) bytes).run? = some (run1 prog aux) ∧ (rta prog aux (array o l t) bytes).mishap = .none ∧
      (rta prog aux (array o l t) bytes).Calm) ∧
    (let a := (rta 0 [] (array 2 0 (tri 2 1 0)) []).rtaAt 0
     a.free = false ∧ a.owner ≠ 1) ∧
    (let a := (rta 0 [] (array 1 0 (tri 2 1 7)) []).rtaAt 0
     a.owner = 1 ∧ (∀ e ∈ cfgGroups 1 0 [3, 0, 0, 0], (a.set e.2.1).foreign 1 = false) ∧
      (∃ e ∈ cfgGroups 1 0 [3, 0, 0, 0], (a.set e.2.1).empty = false ∧ (a.set e.2.1).nc ≠ e.2.2) ∧ ((cfgGroups 3 4 [2, 2, 0, 0]).map fun e => e.2.1).Nodup ∧
      (∀ e ∈ cfgGroups 1 0 [2, 0, 0, 0], (a.set e.2.1).empty = true ∨ (a.set e.2.1).nc = e.2.2)) ∧
    (((rta 0 [] (array 1 0 (tri 2 2 0)) []).rtaAt 0).set 0).foreign 1 = true ∧ (((rta 0 [] (array 1 0 (tri 2 1 0)) []).rtaAt 0).set 0).foreign 1 = false ∧
    fld ((rta 0 [] (array 1 0 (tri 2 1 0)) [(0, 0x20)]).dwAt (2 ^ 52 + 131072)) 5 2 ≠ 0 ∧
    fld ((rta 0 [] (array 1 0 (tri 2 1 0)) []).dwAt (2 ^ 52 + 131072)) 37 11 = 0 ∧
    ((((rta 0 [] (array 1 0 (tri 2 1 0)) []).rtaAt 0).set 0).ent 0 0 = 0) ∧ (0 < (((rta 0 [] (array 1 0 (tri 2 1 0)) []).rtaAt 0).set 0).nc) ∧
    (((rta 0 [] (array 1 0 (tri 2 1 0)) []).rtaAt 0).set 0).rows[0]? = some ⟨[0, 0], 0, 0, false⟩ ∧
    (∀ prog n, n ≤ 96 → (rta prog [] (array 1 0 (tri 2 1 0)) []).Window 0 1 0x400000 n (2 ^ 52 + 0 * 2 ^ 22 + 2 * 65536 + (0x400000 - 0x400000))) := by
  refine ⟨fun prog aux o l t bytes => ⟨rfl, rfl, engine_calm _ _ _ _ ⟨fun _ hw => absurd hw List.not_mem_nil, rfl⟩⟩, by decide, ?_, by decide, by decide, by decide, by decide, by decide, by decide, by decide,
    fun prog n hn => at_ _ _ _ _ (by decide) (by omega)⟩
  and_intros <;> decide

theorem rta_quiet (prog : Nat) (aux : List Nat) (c : Cluster) (bytes : List (Nat × Byte)) : (run1 prog aux).Quiet (rta prog aux c bytes) := engine_quiet _ _ _ _ _

/-- The deque that AUTO pops, and a header of two elements and one rotation. -/
def auto (dq : List Range) : State := { rta 1 (List.replicate 24 0) (array 1 0 (tri 2 1 0)) [] with cores := [(3, { Core.init with dq := dq })] }
def hdrBytes : List (Nat × Byte) := [(0, 0x40), (2, 0x40), (10, 1), (12, 2), (13, 1), (16, 8), (24, 8), (70, 1)]
theorem witness_RowsAndVectors :
    ((rta 0 [] Cluster.init []).rtaAt 0).free = true ∧ ((rta 0 [] (array 2 0 (tri 2 2 0)) []).rtaAt 0).owner ≠ 1 ∧
    (let s := rta 0 [] (array 1 0 (tri 2 1 0)) [(0, 0x80), (8, 8), (12, 1)]
     (s.rtaAt 0).enabled = [0] ∧ ((s.rtaAt 0).set 0).foreign 1 = false ∧ rowDesc 2 (s.pbytesAt (2 ^ 52 + 131072) 16) = some ⟨0, 0x80, 1, 8⟩ ∧
      ((s.rtaAt 0).set 0).empty = true) ∧
    (let s := rta 0 [] (array 1 0 (tri 3 1 7)) []
     ((s.rtaAt 0).set 0).empty = false ∧ ((s.rtaAt 0).set 0).nc ≠ ((s.rtaAt 0).group 0).nc) ∧
    (((rta 1 [] (array 1 0 (tri 2 1 0)) []).rtaAt 0).enabled.filter fun p => (((rta 1 [] (array 1 0 (tri 2 1 0)) []).rtaAt 0).group p).left != 0) = [] ∧
    (((rta 1 [] (array 1 1 (tri 2 1 0)) []).rtaAt 0).enabled.filter fun p => (((rta 1 [] (array 1 1 (tri 2 1 0)) []).rtaAt 0).group p).left != 0) = [0] ∧
    savedDesc [0, 0x400000, 1, 8] 0 = ⟨0, 0x400000, 1, 8⟩ ∧ (FF.fp32.value 0x7F800000).isFin = false ∧ (FF.fp32.value 0).isZero = true ∧
    (anyOf (auto []) (autoReady (run1 1 (List.replicate 24 0)) ((auto []).rtaAt 0)) = some 0 ∧ autoPhase (List.replicate 24 0) 0 ≤ 1 ∧
      popTop 1 ((auto []).autoDq 3) = none ∧ (auto [⟨5, 9, 2⟩, ⟨7, 8, 1⟩]).autoDq 3 = [⟨5, 9, 2⟩] ++ [⟨7, 8, 1⟩]) ∧
    applyHdr 4 4 ((rta 0 [] (array 1 0 (tri 2 1 0)) []).pbytesAt (2 ^ 52 + 131072) 32) = none ∧
    applyHdr 4 4 ((rta 0 [] (array 1 0 (tri 2 1 0)) hdrBytes).pbytesAt (2 ^ 52 + 131072) 32) = some ⟨0x400040, 1, 2, 1, 8, 8⟩ ∧
    (seqEnt 2 ((rta 0 [] (array 1 0 (tri 2 1 0)) hdrBytes).pbytesAt (2 ^ 52 + 131072 + 64 + 8 * 0) 8)).isSome = true := by
  and_intros <;> decide +kernel

theorem witness_RowsAndVectors_apply : (run1 0 []).aux = [] ∧ (run1 0 [0x400040, 1, 2, 1, 8, 8]).aux ≠ [] ∧
    savedHdr [0x400040, 1, 2, 1, 8, 8] = ⟨0x400040, 1, 2, 1, 8, 8⟩ ∧ (∀ e ∈ (run1 1 (List.replicate 24 0)).held, e.1 ≠ 0) := by decide

/-- A streamer at work: a copy of one row, a permit, a channel. -/
def chan (owner : Option Nat) : Wm := ⟨owner, false, false, 0, 0x1000, []⟩
def str (prog : Nat) (aux : List Nat) (w : FMap Wm) (bytes : List (Nat × Byte)) : State := engine 3 (run1 prog aux) { Cluster.init with wm := w } bytes
def strShadow (tgt : Nat) : State :=
  { str 1 [] [] [] with jobs := [(1, { job1 with regions := [⟨0x2000000, 4096, 3, tgt, []⟩] })], tlb := [⟨0, 0, 1, 4, false, 0x2000, 0x5000, true, true⟩] }
def mcBytes : List (Nat × Byte) := [(0, 0), (1, 1), (2, 0x40), (7, 0), (8, 8), (12, 1), (14, 0)]
theorem witness_Copying :
    (∀ prog aux bytes, (str prog aux [] bytes).run? = some (run1 prog aux) ∧ (str prog aux [] bytes).Calm) ∧ (str 0 [] [(2, chan (some 1))] []).Calm ∧
    (∀ va n, 0x400000 ≤ va → va - 0x400000 + n ≤ 65536 → (str 1 [] [] []).Window 0 1 va n (2 ^ 52 + 0 * 2 ^ 22 + 2 * 65536 + (va - 0x400000))) ∧
    rangesMeet 1 0x400000 0 64 1 0x40003F 0 64 = true ∧ rangesMeet 1 0x400000 0 64 1 0x400040 0 64 = false ∧
    (str 0 [] [(2, chan none)] []).fillOk 0 1 2 1 0x400000 64 0 = false ∧ (str 0 [] [(2, ⟨some 1, true, false, 0, 0x1000, []⟩)] []).fillOk 0 1 2 1 0x400000 64 0 = true ∧
    ((str 0 [] [] []).jobAt 1).img.allot ≤ tcwCtr 0x40000 ∧ tcwCtr 0x3F000 < ((str 0 [] [] []).jobAt 1).img.allot ∧
    (anyOf (str 1 [] [] []) (leftOf (copyPieces 1 0x400000 0x400040 64 0 0) [])).isSome = true ∧ (leftOf (copyPieces 1 0x400000 0x400040 64 0 0) []).length = 1 ∧
    (leftOf (copyPieces 2 0x400000 0x400080 64 64 64) []).length = 2 ∧
    mcOk 64 8 ((str 0 [] [] []).pbytesAt (2 ^ 52 + 131072) 64) = false ∧
    ((str 1 (List.replicate 24 0) [] []).permits (run1 1 (List.replicate 24 0)) 0 = true) ∧
    (str 1 [] [] []).permits (run1 1 ([1, 0x400000, 1, 0, 8, 0] ++ List.replicate 18 0)) 1 = false ∧
    pieces (0x400000 + 0 * 8) 8 = [(0x400000 + 0 * 8, 8)] ∧
    ((strShadow 3).jobAt 1).regions[0]? = some ⟨0x2000000, 4096, 3, 3, []⟩ ∧ ((strShadow 3).jobAt 1).regions[1]? = none ∧
    translated 0x2000000 = true ∧ (strShadow 3).tlbFind 0 0 1 0x2000000 = some ⟨0, 0, 1, 4, false, 0x2000, 0x5000, true, true⟩ ∧
    regionAt ((strShadow 3).jobAt 1).regions 0x2000000 = some (0, ⟨0x2000000, 4096, 3, 3, []⟩) ∧ (Region.writeSide ⟨0x2000000, 4096, 3, 3, []⟩ 7).isSome = true ∧
    (((str 0 [] [(2, chan (some 2))] []).clusterAt 0).wmAt 2).owner = some 2 ∧ (((str 0 [] [(2, chan (some 1))] []).clusterAt 0).wmAt 2).owner = some 1 ∧
    (((str 0 [] [] []).clusterAt 0).wmAt 2).owner = none ∧ (str 0 [] [] []).runOf 0 1 = some ⟨1, 2, 1⟩ ∧ 0x40F000 - 0x400000 + 0x1000 ≤ 1 * 65536 := by
  refine ⟨fun prog aux bytes => ⟨rfl, engine_calm _ _ _ _ ⟨fun _ hw => absurd hw List.not_mem_nil, rfl⟩⟩, engine_calm _ _ _ _ (by decide), fun va n h hn => at_ _ _ _ _ h hn, ?_⟩
  and_intros
  all_goals decide +kernel

/-- A multicast of two tiles of 8 bytes to one branch, tile 0 on its way in, there, and behind the first write; a branch whose first slot is not free. -/
def mcAux (m : McTiles) : List Nat := m.kept ([1, 0x400000, 2, 8, 8, 0] ++ List.replicate 18 0)
def mcRun (m : McTiles) : RunCmd := run1 1 (mcAux m)
theorem witness_Copying_multicast :
    (∀ prog aux bytes, (run1 prog aux).Quiet (str prog aux [] bytes)) ∧
    (∀ m ∈ [(⟨[], [], []⟩ : McTiles), ⟨[1, 2], [], []⟩, ⟨List.replicate 8 1, [], []⟩], 24 ≤ (mcRun m).aux.length ∧ mcTiles (mcRun m).aux = m) ∧
    (str 1 (mcAux ⟨[], [], []⟩) [] []).permits (mcRun ⟨[], [], []⟩) 0 = true ∧
    (pieces (0x400100 + 0 * 8 + 0) (8 - 0)).head? = some (0x400100, 8) ∧ (pieces (0x400100 + 0 * 8 + 2) (8 - 2)).head? = some (0x400102, 6) ∧
    (let m : McTiles := ⟨List.replicate 8 1, [], []⟩
     let s := str 1 (mcAux m) [] []
     (leftOf (mcPieces (mcRun m) 0 8) m.done).length = 1 ∧ (leftOf (mcPieces (mcRun m) 0 8) [0]).length = 0 ∧
      (mcFetch s (mcRun m) 1 0x400100 8 8 []).length = 1 ∧ mcFetch s (mcRun m) 1 0x400100 8 8 (List.replicate 8 0) = []) := by
  refine ⟨fun _ _ _ => engine_quiet _ _ _ _ _, ?_⟩
  decide +kernel

/-! Descriptors of gathers, folio images and packets are given by their fields: offset and value. -/

/-- The bytes of n bytes with fields at offsets. -/
def blob (n : Nat) (fs : List (Nat × Nat)) : List Byte := leBytes n ((fs.map fun e => e.2 * 256 ^ e.1).sum)
/-- The bytes of a blob that memory lists. -/
def cells (im : List Byte) : List (Nat × Byte) := (im.zipIdx.filter fun e => e.1 != 0).map fun e => (e.2, e.1)

/-- A gather: two positions of a table of `nrows` rows, `rlen` bytes a row, rows of the table and of the output 64 bytes apart, in a kernel slot or none. -/
def gfields (nrows rlen kern : Nat) : List (Nat × Nat) :=
  [(0, 0x400000), (8, 0x401000), (16, 0x402000), (24, 2 * 2 ^ 32 + nrows), (32, 64 * 2 ^ 32 + 64), (40, kern * 2 ^ 24 + rlen)]
def gblob (nrows rlen kern : Nat) : List (Nat × Byte) := cells (blob 64 (gfields nrows rlen kern))
def gcmd (w0 : W64) (nrows rlen : Nat) (g : Option Gather) : RunCmd :=
  ⟨0, ⟨w0, 0x400000, 0, 0, 1, none⟩, 1, (gfields nrows rlen 0).map Prod.snd, none, [], g⟩
def pfu (r : RunCmd) (c : Cluster) (bytes : List (Nat × Byte)) : State := engine 4 r c bytes
/-- The cluster's kernel slot 3 as given. -/
def kerned (k : Option (Nat × List W32)) : Cluster := { Cluster.init with kern := [(3, k)] }
theorem pfu_calm (r : RunCmd) (k : Option (Nat × List W32)) (bytes : List (Nat × Byte)) : (pfu r (kerned k) bytes).Calm :=
  engine_calm _ _ _ _ ⟨fun _ hw => absurd hw List.not_mem_nil, rfl⟩
theorem pfu_at (r : RunCmd) (k : Option (Nat × List W32)) (bytes : List (Nat × Byte)) {va n : Nat} (h : 0x400000 ≤ va) (hn : va - 0x400000 + n ≤ 65536) :
    (pfu r (kerned k) bytes).Window 0 1 va n (2 ^ 52 + 0 * 2 ^ 22 + 2 * 65536 + (va - 0x400000)) := at_ _ _ _ _ h hn
/-- The kernel that emits g0. -/
def kern1 : List W32 := [0xC0000000]
theorem witness_Gathering :
    (∀ r k bytes, (pfu r (kerned k) bytes).Calm) ∧ (∀ k bytes, (pfu (run1 0 []) (kerned k) bytes).run? = some (run1 0 [])) ∧
    (∀ w0 n l g k bytes, (pfu (gcmd w0 n l g) (kerned k) bytes).run? = some (gcmd w0 n l g)) ∧
    (∀ r k bytes va n, 0x400000 ≤ va → va - 0x400000 + n ≤ 65536 → (pfu r (kerned k) bytes).Window 0 1 va n (2 ^ 52 + 0 * 2 ^ 22 + 2 * 65536 + (va - 0x400000))) ∧
    (let s := pfu (run1 0 []) (kerned none) [(1, 0), (2, 0x40), (3, 0xC0)]
     (s.clusterAt 0).kernAt 3 = none ∧ (∀ y ∈ (s.engAt 0 4).runs, y.gather = none) ∧ s.poisAt (2 ^ 52 + 131072) 4 = false ∧
      kernelOk ((List.range 1).map fun j => w32 (s.numAt (2 ^ 52 + 131072 + 4 * j) 4)) = true) ∧
    kernelOk [0xC0000000] = true ∧ kernelOk [0xC0000001] = false ∧
    ((pfu (run1 0 []) (kerned (some (2, kern1))) []).clusterAt 0).kernAt 3 = some (2, kern1) ∧
    gdescOk (.rows false false) ((pfu (run1 0 []) (kerned none) []).pbytesAt (2 ^ 52 + 131072) 64) = false ∧
    (let bs := (pfu (run1 0 []) (kerned none) (gblob 4 8 0)).pbytesAt (2 ^ 52 + 131072) 64
     gdescOk (.rows false true) bs = true ∧ gdescOk (.emb true true false) bs = true ∧ gdescOk (.scat 1) bs = true ∧ (gdesc (pdw bs)).kern = none) ∧
    (let s := pfu (run1 0 []) (kerned (some (1, kern1))) (gblob 4 8 11)
     gdescOk (.scat 0) (s.pbytesAt (2 ^ 52 + 131072) 64) = true ∧ (gdesc (pdw (s.pbytesAt (2 ^ 52 + 131072) 64))).kern = some 3 ∧
      (s.clusterAt 0).kernAt 3 = some (1, kern1)) ∧
    (gcmd 0x14 4 8 (some { Gather.init with next := 2 })).gd.n = 2 ∧ (gcmd 0x14 4 8 none).gd.bag = 0 ∧ (gcmd 0x14 4 8 none).gd.nrows = 4 ∧
    (gcmd 0x14 4 8 none).gd.kern = none ∧ (gcmd 0x14 4 8 none).held = [] ∧ (pfu (run1 0 []) Cluster.init []).clusterGone 0 = false ∧
    gkindOf (tcwInstr 0x14 0x400000 0 0 ⟨0, 0⟩) = some (.rows false false) ∧ gkindOf (tcwInstr 0x24 0x400000 0 0 ⟨0, 0⟩) = some (.emb false false false) ∧
    gkindOf (tcwInstr 0x34 0x400000 0 0 ⟨0, 0⟩) = some (.scat 0) ∧ gkindOf (tcwInstr 0x10000034 0x400000 0 0 ⟨0, 0⟩) = some (.scat 1) ∧
    gkindOf (tcwInstr 0x20000034 0x400000 0 0 ⟨0, 0⟩) = some (.scat 2) ∧ imageSize false 8 = 12 ∧
    (let e : FEnt := ⟨0x401000, 0, pbytes 8 7 false, 1⟩
     e.part.any Prod.snd = false ∧ (pfu (run1 0 []) (kerned none) []).poisAt (2 ^ 52 + 131072 + 0x1000) e.part.length = false ∧ e.part.length = 8 * 1) := by
  refine ⟨pfu_calm, fun _ _ => rfl, fun _ _ _ _ _ _ => rfl, fun r k bytes va n h hn => pfu_at r k bytes h hn, ?_⟩
  and_intros <;> decide +kernel

/-- A filter of 64 targets, with a later target that is not among them. -/
def filter64 : List FEnt := (List.range 64).map fun k => ⟨0x401000 + 64 * k, k, [], 1⟩
def pfu64 : RunCmd := gcmd 0x34 4 8 (some { Gather.init with next := 1, filter := filter64, ahead := [(1, 0, 0x400F00)] })
theorem witness_Gathering_filter :
    (∀ (r : RunCmd) k bytes, r.Quiet (pfu r (kerned k) bytes)) ∧ 64 ≤ filter64.length ∧ (1, 0, 0x400F00) ∈ [((1 : Nat), (0 : Nat), (0x400F00 : Nat))] ∧
    (∀ f ∈ filter64, f.target ≠ 0x400F00) ∧ pfu64.gd.n = 2 ∧ ¬ pfu64.gd.n ≤ 1 ∧ (∀ e ∈ ([] : List (Nat × Nat × Nat)), e.1 ≠ 1) ∧ filter64.head?.isSome = true :=
  ⟨fun _ _ _ => engine_quiet _ _ _ _ _, by decide, by decide, by decide, by decide, by decide, by decide, by decide⟩

/-- A fabric region of cluster 0: images in its slots, their owner; the engine of the fabric runs a command. -/
def fab (prog : Nat) (f : Fr) (bytes : List (Nat × Byte)) : State := engine 2 (run1 prog []) { Cluster.init with fr := f } bytes
def owned (slots : FMap (List Byte)) (x : Option FRun) : Fr := { Fr.init with free := false, owner := 1, slots := slots, run := x }
/-- An image of PE 5 whose slot 0 passes the constant K = 3 from output 0, and one of it with a reserved bit in that slot. -/
def im1 : List Byte := blob 960 [(0, 2 ^ 5), (640, 3 * 2 ^ 92 + 2 ^ 91 + 2 ^ 58 + 4 * 2 ^ 55 + 6 * 2 ^ 52 + 6 * 2 ^ 49 + 2 ^ 41)]
def im2 : List Byte := blob 960 [(0, 2 ^ 5), (640, 1)]
theorem witness_FabricCommands :
    (∀ prog f bytes, (fab prog f bytes).run? = some (run1 prog []) ∧ (fab prog f bytes).Calm) ∧
    (∀ prog f bytes va n, 0x400000 ≤ va → va - 0x400000 + n ≤ 65536 → (fab prog f bytes).Window 0 1 va n (2 ^ 52 + 0 * 2 ^ 22 + 2 * 65536 + (va - 0x400000))) ∧
    ({ owned [] none with owner := 2 } : Fr).free = false ∧ (fab 0 { owned [] none with owner := 2 } []).cmd.ck = 0 ∧
    ((fab 0 { owned [] none with owner := 2 } []).frAt 0).owner ≠ 1 ∧ ((fab 0 Fr.init []).frAt 0).free = true ∧ ((fab 1 (owned [] none) []).frAt 0).owner = 1 ∧
    (let s := fab 1 (owned [] none) (cells im1)
     let hd := (s.pbytesAt (2 ^ 52 + 131072) 640).map Prod.fst
     let m := 320 * (imPes hd).length + 8 * imNpre hd
     s.poisAt (2 ^ 52 + 131072) 640 = false ∧ m = 320 ∧ s.poisAt (2 ^ 52 + 131072 + 640) m = false ∧ imNpre hd ≤ 4096 ∧
      folioOk (s.jobAt 1).img.allot (hd ++ (s.pbytesAt (2 ^ 52 + 131072 + 640) m).map Prod.fst) = true) ∧
    folioOk 64 im2 = false ∧ (owned [] none).image 2 = [] ∧ (owned [(2, im1)] none).image 2 ≠ [] ∧ (owned [(2, im1)] none).image 2 = im1 ∧
    applyFarg im1 (2 ^ 63) = none ∧ (applyFarg im1 (5 * 2 ^ 48 + 7)).isSome = true ∧ peOff im1 5 + 16 * 0 + 16 ≤ im1.length ∧
    (fab 0 (owned [(2, im1)] none) [(0, 7), (6, 5)]).numAt (2 ^ 52 + 131072 + 8 * 0) 8 = 5 * 2 ^ 48 + 7 := by
  refine ⟨fun prog f bytes => ⟨rfl, engine_calm _ _ _ _ ⟨fun _ hw => absurd hw List.not_mem_nil, rfl⟩⟩, fun prog f bytes va n h hn => at_ _ _ _ _ h hn, ?_⟩
  and_intros <;> decide +kernel

theorem fab_quiet (prog : Nat) (f : Fr) (bytes : List (Nat × Byte)) : (run1 prog []).Quiet (fab prog f bytes) := engine_quiet _ _ _ _ _

/-- A running folio: PE 5 with K, with its state, and the run of an image. -/
def folio (im : List Byte) (x : FRun) : State := fab 1 (owned [(0, im)] (some x)) []
def run0 : FRun := { FRun.start (owned [(0, im1)] none) 0 8 0 with gens := [] }
/-- The slot word of an operation on channels 0 and 1 of PE 5, and one with its head tokens of 2.0 and 1.0. -/
def opWord (op aux : Nat) : Nat := 2 ^ 91 + op * 2 ^ 86 + 3 * 2 ^ 74 + 2 ^ 58 + 2 ^ 52 + 6 * 2 ^ 49 + 3 * 2 ^ 45 + 2 ^ 41 + aux * 2 ^ 25
def two : W36 := 0x401000000
def one36 : W36 := 0x3FF000000
def nan36 : W36 := w36NaN
theorem witness_PeFirings :
    (∀ e : Instr × Nat, e = (.pePass 0 5, 0) → IsPeOp 0 5 e) ∧
    (folio im1 run0).frRun 0 = some (1, im1, run0) ∧ (folio im1 run0).mishap = .none ∧ run0.fires im1 5 = some (imSlot im1 5 0) ∧ run0.fires im1 4 = none ∧
    pf (imSlot im1 5 0) 86 5 = 0 ∧ pf (imSlot im1 5 0) 86 5 ≠ 0x17 ∧ run0.spent = false ∧ { run0 with spent := true }.spent = true ∧
    pf (opWord 6 0) 86 5 = 6 ∧ (w36Value two).isNan = false ∧ (w36Value two).cmp (w36Value one36) ≠ 0 ∧ (w36Value nan36).isNan = true ∧
    pf (opWord 0x0C 0) 86 5 = 0x0C ∧ pf (opWord 0x0C 0) 25 6 = 0 ∧ pf (opWord 0x15 0) 86 5 ∈ [0x08, 0x09, 0x0A, 0x0B, 0x10, 0x11, 0x12, 0x13, 0x14, 0x15] ∧
    pf (opWord 0x0F 0) 41 4 = 1 ∧ (steerTo (opWord 0x0F 0) w36NaN).isNone = true ∧ (steerTo (opWord 0x0F 0) (w36Zero false)) = some 0 := by
  refine ⟨fun e h => by subst h; exact List.mem_append_left _ (List.mem_cons_self ..), ?_⟩
  and_intros <;> decide +kernel

/-- An image with a generator, loads without and with control tokens, a store and a send; one with a receive; one that triggers after two moves of AGU 0
into slot 1 and counts counter 63. -/
def im3 : List Byte := blob 960 [(0, 2 ^ 5), (64, 1 + 8 * 16), (72, 0x400000), (80, 2 + 2 ^ 32), (88, 8), (96, 0x8150), (128, 1 + 8 * 16 + 2 ^ 13 + 2 * 2 ^ 16),
  (136, 0x400100), (144, 4 + 2 ^ 32), (152, 8), (160, 0x8160), (192, 2), (200, 0x402000), (208, 2 + 2 ^ 32), (216, 4), (256, 3), (264, 4), (272, 2 + 2 ^ 32),
  (576, 0x8140)]
def im4 : List Byte := blob 960 [(0, 2 ^ 5), (64, 4), (72, 16), (96, 0x8150)]
def im5 : List Byte := blob 960 [(0, 2 ^ 5), (16, 2 + 1 * 2 ^ 36 + 2 ^ 38 + 63 * 2 ^ 40), (64, 1 + 8 * 16), (72, 0x400000), (80, 4 + 2 ^ 32), (88, 8), (96, 0x8150)]
/-- The run of a folio with one AGU in the state given. -/
def runAgu (a : Nat) (y : Agu) : FRun := { run0 with agus := [(a, y)] }
/-- Cluster 0 runs an image, and cluster 1 the receiver, of job o. -/
def pair (im : List Byte) (x : FRun) (slot1 : List Byte) (o : Nat) (fl : List Flight) : State :=
  { st bank1 with flight := fl, cycles := 64, mem := [],
                  clusters := [(0, { Cluster.init with runs := [⟨1, 2, 1⟩], fr := owned [(0, im), (1, slot1)] (some x), eng := [(2, { EngQ.init with runs := [run1 1 []] })] }),
                               (1, { Cluster.init with fr := { owned [(0, im4)] (some run0) with owner := o } })] }
def tok0 : Token := ⟨w36Zero false, 0, false⟩
def tok1 : Token := ⟨one36, 0, false⟩
theorem witness_FolioEvents :
    (pair im3 run0 [] 1 []).Calm ∧ (∀ va n, 0x400000 ≤ va → va - 0x400000 + n ≤ 65536 →
      (pair im3 run0 [] 1 []).Window 0 1 va n (2 ^ 52 + 0 * 2 ^ 22 + 2 * 65536 + (va - 0x400000))) ∧
    (let s := pair im3 run0 [] 1 []
     s.frRun 0 = some (1, im3, run0) ∧ genRoute im3 0 = [⟨0, 5, 0⟩] ∧ run0.stopping im3 = false ∧ run0.room [⟨0, 5, 0⟩] = true ∧ run0.gens.get [] 0 = [] ∧ s.mishap = .none) ∧
    ((imAgu im3 1).mode = 1 ∧ (imAgu im3 1).ctl = true ∧ routeOf (imAgu im3 1).route = [⟨0, 5, 2⟩] ∧ (runAgu 1 { Agu.init with cport := [tok0] }).stopping im3 = false ∧
      (Agu.init).moved < (imAgu im3 1).total ∧ (runAgu 1 { Agu.init with cport := [tok0] }).room [⟨0, 5, 2⟩] = true ∧
      ((runAgu 1 { Agu.init with cport := [tok0] }).agu 1) = { Agu.init with cport := [tok0] } ∧ (w36Value tok0.data).isZero = true ∧
      (w36Value tok1.data).isZero = false) ∧
    ((imAgu im3 0).mode = 1 ∧ (imAgu im3 0).ctl = false ∧ routeOf (imAgu im3 0).route = [⟨0, 5, 1⟩] ∧ (imAgu im3 0).total = 2 ∧ run0.room [⟨0, 5, 1⟩] = true ∧
      (run0.agu 0).parked = none ∧ aguSize (imAgu im3 0).fmt = 8) ∧
    ((imAgu im3 2).mode = 2 ∧ (imAgu im3 2).rm ≠ 5 ∧ (runAgu 2 { Agu.init with dport := [tok1] }).atCount im3 2 = false ∧ (imAgu im3 2).total = 2 ∧
      ((runAgu 2 { Agu.init with dport := [tok1] }).agu 2).dport = [tok1]) ∧
    ((imAgu im3 3).mode = 3 ∧ pf (imAgu im3 3).w1 0 2 * 64 + pf (imAgu im3 3).w1 2 6 = 1 ∧ (pair im3 run0 [] 1 []).inPlace 1 (1 / 64) (1 % 64) = true ∧
      ((pair im3 run0 [] 1 []).frAt 1).owner = 1 ∧ (pair im3 run0 [] 1 []).canConnect 1 (pf (imAgu im3 3).w1 8 3) 1 = true ∧ (run0.agu 3).conn = false ∧
      ((pair im3 run0 [] 2 []).frAt 1).free = false ∧ ((pair im3 run0 [] 2 []).frAt 1).owner ≠ 1) ∧
    (let y : Agu := { Agu.init with conn := true, dport := [tok1] }
     ((runAgu 3 y).agu 3) = y ∧ (runAgu 3 y).atCount im3 3 = false ∧ ((pair im3 (runAgu 3 y) [] 1 []).frAt 1).run = some run0 ∧
      y.out < (imAgu (((pair im3 (runAgu 3 y) [] 1 []).frAt 1).image run0.slot) 0).w1) ∧
    (let s := pair im4 run0 [] 1 [.token 1 3 0 0 tok1 true]
     s.takeFlight 0 = some (.token 1 3 0 0 tok1 true, { s with flight := [] })) ∧
    ((pair im4 run0 [] 1 [.credit 0 3]).flight[0]? = some (.credit 0 3)) ∧
    (let s := pair im4 run0 [] 1 [.token 1 3 0 0 tok1 false]
     s.takeFlight 0 = some (.token 1 3 0 0 tok1 false, { s with flight := [] })) ∧
    (run0.quiet = none ∧ run0.reached im1 = true ∧ trCount im1 = 0 ∧ trCount im5 = 2 ∧ (runAgu 0 { Agu.init with moved := 2 }).reached im5 = true) ∧
    ((pair im1 { run0 with quiet := some 0 } [] 1 []).cycles = 64 ∧ { run0 with quiet := some 0 }.spent = false) ∧
    (run0.chans = [] ∧ run0.outs = [] ∧ run0.storing im1 = false ∧ run0.storing im5 = false ∧ run0.sw < run0.maxsw ∧
      { run0 with maxsw := 0 }.maxsw ≤ { run0 with maxsw := 0 }.sw ∧ ((pair im5 run0 [] 1 []).frAt 0).image (trNext im5) = [] ∧
      ((pair im5 run0 im1 1 []).frAt 0).image (trNext im5) ≠ [] ∧ trCv im5 = true ∧ ((pair im5 run0 im1 1 []).counterAt (cntKey 0 1 (trCtr im5))).armed = false) ∧
    (((pair im1 run0 [] 1 []).engAt 0 2).runOf 0).isSome = true := by
  refine ⟨calm ⟨rfl, rfl, rfl, rfl⟩ (by decide), fun _ _ h hn => window ⟨1, 2, 1⟩ ⟨rfl, by decide, by decide, h, by omega⟩ rfl, ?_⟩
  and_intros <;> decide +kernel

/-- No counter is armed in such a state. -/
theorem pair_quiet (im : List Byte) (x : FRun) (slot1 : List Byte) (o : Nat) (fl : List Flight) :
    ∀ k, ((pair im x slot1 o fl).counterAt k).armed = false ∨ ((pair im x slot1 o fl).counterAt k).act &&& 1 = 0 := fun _ => .inl rfl
theorem witness_FolioEvents_count : (Agu.init).moved = 0 ∧ (runAgu 3 { Agu.init with conn := true, moved := 2 }).atCount im3 3 = false ∧
    { run0 with quiet := some 0 }.quiet.isSome = true := by decide +kernel

/-- The engine of the network on cluster 0, its die given. -/
def neSt (prog : Nat) (aux : List Nat) (d : Die) (bytes : List (Nat × Byte)) : State := { engine 5 (run1 prog aux) Cluster.init bytes with dies := [(0, d)] }
/-- A message of 2048 bytes in two packets to module 7, one of them sent. -/
def tx1 : NeTx :=
  { mid := 4, ck := 0, job := 1, dmod := 7, dck := 0, cmd := some (run1 1 []).cmd, grp := 4, body := .write 0x400000 none 2048, psize := 1024, rod := false, ackl := false,
    len := 2048, src := 0x400000, copy := none, crcs := [], sent := 0, acked := [], resends := [], timers := [], asked := [], waitRoom := false, lcmp := false, err := 0,
    started := 0, notReady := none, slot := none, parked := none, port := none }
def ne1 : NeFlags := ⟨1024, true, false⟩
theorem witness_NetworkCommands :
    (∀ p aux d bytes, (neSt p aux d bytes).run? = some (run1 p aux)) ∧ (∀ p aux d bytes, (neSt p aux d bytes).Calm) ∧
    (∀ p aux d bytes va n, 0x400000 ≤ va → va - 0x400000 + n ≤ 65536 → (neSt p aux d bytes).Window 0 1 va n (2 ^ 52 + 0 * 2 ^ 22 + 2 * 65536 + (va - 0x400000))) ∧
    (run1 0 []).prog = 0 ∧ (neSt 0 [] Die.init []).neRoute 0 7 = false ∧ (neSt 0 [] Die.init []).neRoute 0 2 = true ∧
    (neSt 0 [] Die.init []).modid.toNat = 2 ∧ ((neSt 0 [] Die.init []).dieAt 0).tx = [] ∧ 65536 < 65537 ∧ (1024 : Nat) ≤ ne1.psize ∧ ne1.ackl = true ∧
    (neSt 0 [] Die.init []).cmd.cls = 5 ∧
    ((run1 1 [4]).aux = [tx1.mid] ∧ ((neSt 1 [4] { Die.init with tx := [tx1] } []).dieAt 0).tx = [tx1] ∧ tx1.sent + 1 < tx1.total ∧ tx1.dmod ≠ 2 ∧
      tx1.src + tx1.sent * tx1.psize = 0x400000 ∧ tx1.size tx1.sent = 1024) ∧
    xsendDesc ((neSt 0 [] Die.init []).pbytesAt (2 ^ 52 + 131072) 64) 64 = none ∧
    xsendDesc ((neSt 0 [] Die.init [(0, 4), (8, 2), (32, 64), (36, 3)]).pbytesAt (2 ^ 52 + 131072) 64) 64 = some ([2], [1], 64, 3) := by
  refine ⟨fun _ _ _ _ => rfl, fun _ _ _ _ => calm ⟨rfl, rfl, rfl, rfl⟩ ?_, fun _ _ _ _ _ _ h hn => window ⟨1, 2, 1⟩ ⟨rfl, by decide, by decide, h, by omega⟩ rfl, ?_⟩
  · intro e he
    obtain rfl := List.mem_singleton.mp he
    exact ⟨fun _ hw => absurd hw List.not_mem_nil, rfl⟩
  · and_intros <;> decide +kernel

theorem neSt_quiet (prog : Nat) (aux : List Nat) (d : Die) (bytes : List (Nat × Byte)) : (run1 prog aux).Quiet (neSt prog aux d bytes) := fun _ => .inl rfl

/-- A packet on its way to die 0 from the own module; a posted receive; a message of one packet that has left, in the resend store. -/
def pkt1 (b : Body) : Packet := ⟨2, 4, 0, 1, 0, 1, 0, [(0x11, false), (0x22, false)], true, true, false, none, b⟩
def net (d : Die) (c : Cluster) (fl : List Flight) : State :=
  { st bank1 with dies := [(0, d)], flight := fl, cycles := 64000, clusters := [(0, { c with runs := [⟨1, 2, 1⟩] })] }
def recv1 : Recv := ⟨1, 9, 0x400000, 2, 0x400010, (run1 1 []).cmd⟩
def tx2 : NeTx := { tx1 with len := 2, body := .write 0x400000 none 2, sent := 1, copy := some [(0x11, false), (0x22, false)] }
def rx1 : NeRx := ⟨7, 4, 0, 1, .write 0x400000 none 2048, 2, [0], none, 0, false, false, 0⟩
theorem net_calm (d : Die) (c : Cluster) (fl : List Flight) (h : (∀ w ∈ c.wm, w.2.armed = false) ∧ c.inret = []) : (net d c fl).Calm :=
  calm ⟨rfl, rfl, rfl, rfl⟩ (by simpa [net] using h)
theorem witness_NetworkEvents :
    ((net Die.init Cluster.init [.pkt 0 (pkt1 .srcmod) none 0]).flight = [.pkt 0 (pkt1 .srcmod) none 0] ∧ (pkt1 .srcmod).src = 2 ∧ { pkt1 .srcmod with good := false }.good = false ∧
      { pkt1 .srcmod with supported := false }.supported = false) ∧
    (let p := pkt1 (.write 0x400000 (some 63) 2)
     let s := net Die.init Cluster.init [.pkt 0 p none 0]
     p.good = true ∧ p.supported = true ∧ p.num = 0 ∧ p.total = 1 ∧ p.off = 0 ∧ p.rod = false ∧ p.src = s.modid.toNat ∧ p.mid % 4 = 0 ∧ (s.jobAt p.job).jstate = 2 ∧
      (s.jobAt p.job).place.has p.ck = true ∧ (s.dieAt 0).rx = [] ∧ 63 < (s.jobAt p.job).img.allot ∧ (s.counterAt (cntKey p.ck p.job 63)).armed = false) ∧
    ((net Die.init Cluster.init []).clusterAt 0).recvs = [] ∧ ((net Die.init { Cluster.init with recvs := [recv1] } []).clusterAt 0).recvs = [recv1] ∧ recv1.job = 1 ∧
    2 ≤ recv1.len ∧ tcwCv recv1.cmd.w0 = false ∧ { st bank1 with jobs := [] }.jobs = [] ∧ (({ st bank1 with jobs := [] } : State).jobAt 1).jstate = 0 ∧
    (let s := net { Die.init with tx := [tx2] } Cluster.init []
     (s.dieAt 0).tx = [tx2] ∧ tx2.mid = 4 ∧ tx2.waitRoom = false ∧ tx2.parked = none ∧ tx2.cmd = some (run1 1 []).cmd ∧ tx2.lcmp = false ∧ tx2.slot = none ∧ tx2.err = 0 ∧
      tx2.dmod ≠ s.modid.toNat ∧ tx2.isRequest = false ∧ tx2.sent = tx2.total ∧ tx2.total = 1 ∧ tx2.notReady = none ∧ tx2.asked = [] ∧ tx2.missing = [0] ∧
      s.time = 40000 ∧ tx2.timers.get 0 0 + 40000 ≤ s.time ∧ s.assisted 7 = false ∧ { s with dsplit := 0x80 }.assisted 7 = true ∧
      8 ≤ { tx2 with resends := [(0, 8)] }.resends.get 0 0 ∧ tx2.resends.get 0 0 < 8 ∧ tx2.copy.isSome = true ∧ 0 + 1 = tx2.sent ∧
      { tx2 with notReady := some 30000 }.notReady = some 30000 ∧ 30000 + 10000 ≤ s.time ∧ s.time < { tx2 with timers := [(0, 1)] }.timers.get 0 0 + 40000) ∧
    { net Die.init Cluster.init [] with cycles := 160000000 }.time = 100000000 ∧
    (let s := { net { Die.init with rx := [rx1] } Cluster.init [] with cycles := 16000000 }
     (s.dieAt 0).rx = [rx1] ∧ rx1.done = false ∧ rx1.err = 0 ∧ rx1.last + 10000000 ≤ s.time ∧ (net Die.init Cluster.init []).time < rx1.last + 10000000) ∧
    (let t : NeTx := { tx2 with waitRoom := true, copy := none }
     let s := net { Die.init with tx := [t], route := [(0, w64 (2 ^ 63 + 2 ^ 16 + 7))] } Cluster.init []
     t.waitRoom = true ∧ t.copy = none ∧ t.grp = t.mid ∧ t.body = .write 0x400000 none t.len ∧ t.len ≤ 65536 ∧ s.neRoute 0 t.dmod = true ∧
      { s with ports := s.ports.add 0 }.neRoute 0 t.dmod = false ∧ ∀ e, e < 3 → e ≠ 0 → (s.dieAt e).tx = []) ∧
    (net Die.init Cluster.init [.readReq 0 ⟨2, 4, 0, 1, 0x400000, 2, 1024, false⟩]).flight = [.readReq 0 ⟨2, 4, 0, 1, 0x400000, 2, 1024, false⟩] ∧
    (∀ e, e < 3 → ((net Die.init Cluster.init []).dieAt e).tx = []) ∧
    (∀ d fl, (net d Cluster.init fl).Calm ∧ (net d { Cluster.init with recvs := [recv1] } fl).Calm) ∧
    (∀ d fl va n, 0x400000 ≤ va → va - 0x400000 + n ≤ 65536 → (net d Cluster.init fl).Window 0 1 va n (2 ^ 52 + 0 * 2 ^ 22 + 2 * 65536 + (va - 0x400000))) := by
  refine ⟨?_, ?_, ?_, ?_, ?_, ?_, ?_, ?_, ?_, ?_, ?_, ?_, ?_, ?_, ?_, fun d fl => ⟨net_calm _ _ _ ⟨fun _ hw => absurd hw List.not_mem_nil, rfl⟩,
    net_calm _ _ _ ⟨fun _ hw => absurd hw List.not_mem_nil, rfl⟩⟩, fun _ _ _ _ h hn => window ⟨1, 2, 1⟩ ⟨rfl, by decide, by decide, h, by omega⟩ rfl⟩
  all_goals and_intros
  all_goals decide +kernel

theorem net_quiet (d : Die) (c : Cluster) (fl : List Flight) : ∀ k, ((net d c fl).counterAt k).armed = false ∨ ((net d c fl).counterAt k).act &&& 1 = 0 :=
  fun _ => .inl rfl

/-- Tables of job 1 with two leaves of 4 KiB on one page, at 0 and at 0x1000; an entry of a fault buffer at each of their entries and at an absent one. -/
def tables : List Host.Cell :=
  [(0x1000, 1), (0x1001, 0x20), (0x2000, 1), (0x2001, 0x30), (0x3000, 1), (0x3001, 0x40), (0x4000, 1), (0x4001, 0x50), (0x5000, 0xF), (0x5001, 0x80),
   (0x5008, 0xF), (0x5009, 0x80)]
def faulty (loc lvl kind : Nat) : FaultEnt := ⟨⟨1, lvl, 2⟩, 0x2000, false, kind, false, loc, 1, 1⟩
def mapped (f : List FaultEnt) (pool : W64) (units : FMap UnitRec) : State :=
  { State.reset with mem := tables, dies := [(0, { Die.init with faults := f })], units := units, dsplit := 0, jobs := [(1, { job1 with root := 0x1000, pool1 := pool })] }
def pool1 : W64 := 0x01000001
def parkedBank : Bank := { bank1 with st := .waiting, wait := .parked ⟨1, 4, 2⟩ 0 0x2000 1 3 8 }
def wakes (fl : List Flight) (banks : FMap Bank) : State := { State.reset with flight := fl, banks := banks, jobs := [(1, job1)] }
/-- The channel that holds the first byte of the page. -/
def chanU : W32 := w32 (channelOf 0x8000)
theorem chanU_toNat : chanU.toNat = channelOf 0x8000 := by
  have h : channelOf 0x8000 = unitId 7 0 0 (Config.channelOf 512 % 128) := rfl
  have := Nat.mod_lt (Config.channelOf 512) (show 0 < 128 by decide)
  simp only [chanU, w32, BitVec.toNat_ofNat, h, unitId]
  omega
/-- A pool whose frames have their home on die 1, so that no channel of die 0 holds a byte of them (R390). -/
def farPool : W64 := 0x4000000001
def draining (pool : W64) (x : UnitRec) : State := mapped [] pool [(chanU.toNat, { x with st := .draining })]
def drained : State := draining 0 UnitRec.init
theorem draining_unit (p : W64) (x : UnitRec) : (draining p x).unitAt chanU.toNat = { x with st := .draining } := by
  simp [State.unitAt, draining, mapped, FMap.get]
theorem holds_chanU : pageHolds chanU.toNat 0x8000 4096 = true := List.any_eq_true.mpr ⟨0, by simp, by simp [chanU_toNat]⟩
theorem drained_leaf : ((drained.leaves 5 0 (drained.jobAt 1).root 0).find? (fun l => decide (l.2.2.2.1 ≤ 0 ∧ 0 < l.2.2.2.1 + leafSize l.1 false))) =
    some (4, false, 0x8000, 0, 0x5000) := by decide +kernel
theorem draining_frame (x : UnitRec) : (draining farPool x).frameFor 1 (inT2 0x8000) 4096 = some 0x4000000000 := by
  have hb : (draining farPool x).badFrame 0x4000000000 4096 = false := by
    simp only [State.badFrame, Bool.and_eq_false_iff, List.any_eq_false]
    refine .inr fun i hi hc => ?_
    obtain ⟨e, he, h2⟩ := List.mem_map.mp (List.contains_iff_mem.mp hc)
    rw [List.mem_singleton.mp ((List.mem_filter.mp he).1), chanU_toNat] at h2
    have hi' := List.mem_range.mp hi
    have h8 : channelOf 0x8000 = unitId 7 0 0 (Config.channelOf 512 % 128) := rfl
    have h1 : channelOf (0x4000000000 + 64 * i) = unitId 7 1 0 (Config.channelOf ((0x4000000000 + 64 * i) / 64) % 128) := by
      have e1 : homeDie (0x4000000000 + 64 * i) = 1 := by simp only [homeDie]; rw [if_neg (by omega), if_pos (by omega)]
      have e2 : inT1 (0x4000000000 + 64 * i) = true := by simp only [inT1, decide_eq_true_eq]; omega
      simp [channelOf, e1, e2]
    have := Nat.mod_lt (Config.channelOf 512) (show 0 < 128 by decide)
    rw [h8, h1] at h2
    simp only [unitId] at h2
    omega
  have hj : (draining farPool x).jobAt 1 = { job1 with root := 0x1000, pool1 := farPool } := rfl
  have he : (draining farPool x).frameFor 1 (inT2 0x8000) 4096 = (draining farPool x).firstFree [] 4096 512 0x4000000000 := by
    simp only [State.frameFor, hj]; rfl
  simp [he, State.firstFree, hb]
/-- The first of the two leaves of the page in motion, and an access that still holds it. -/
def move1 : PageMove := ⟨1, 0, 4096, 0x8000, 0x4000000000, [(0x5000, 0xF)]⟩
def inMotion : State := draining farPool { UnitRec.init with moving := some move1 }
def late : State := { inMotion with pend := [⟨80, 0, 1, 0xFFF, 0, 0x8FFF, 1, false, .load 0⟩] }
def retried : Posted := ⟨80, false, 1, 0x2000, .add, 8, 1, 0⟩
theorem migrate_none {s : State} {u job va lvl pa lva loc : Nat} (hc : s.comm = []) (h1 : (s.unitAt u).moving = none) (h2 : (s.unitAt u).migneed = false)
    (hl : (s.leaves 5 0 (s.jobAt job).root 0).find? (fun l => decide (l.2.2.2.1 ≤ va ∧ va < l.2.2.2.1 + leafSize l.1 false)) = some (lvl, false, pa, lva, loc))
    (hp : pageHolds u pa (leafSize lvl false) = true) (hf : s.frameFor job (inT2 pa) (leafSize lvl false) = none) :
    s.migrate u job va = (s.post 0xB job (u / 2 ^ 26 % 4) (w64 u) (if inT2 pa then 2 else 1) 0).modUnit u fun x => { x with migneed := true } := by
  simp only [State.migrate, h1, State.mergeTable_none s hc, hl, hp, hf, h2]
  simp
theorem migrate_some {s : State} {u job va : Nat} {m : PageMove} (h1 : (s.unitAt u).moving = some m) (hb : s.pageBusy m.old m.n = false) :
    s.migrate u job va = s.endMove u m := by
  simp only [State.migrate, h1, hb]
  simp
theorem moved_leaf : (1, 4, false, 0x8000, 4096, 0x5008) ∈ (inMotion.endMove chanU.toNat move1).allLeaves := by decide +kernel
theorem witness_PagesResolvedAndMoved :
    (drained.MemWf ∧ drained.comm = []) ∧
    ((mapped [faulty 0x5000 4 1] pool1 []).dieAt 0).faults[0]? = some (faulty 0x5000 4 1) ∧ fld ((mapped [faulty 0x5000 4 1] pool1 []).dwAt 0x5000) 0 1 = 1 ∧
    fld ((mapped [faulty 0x5010 4 1] pool1 []).dwAt 0x5010) 0 1 = 0 ∧ (faulty 0x5010 4 1).mode = 1 ∧ (faulty 0x5010 4 2).kind = 2 ∧ (faulty 0x5010 1 1).pg.lvl < 2 ∧
    (mapped [faulty 0x5010 4 1] pool1 []).frameFor 1 false (leafSize 4 false) = some 0x1000000 ∧ 0x5010 + 8 ≤ 0x1000000 ∧
    (mapped [faulty 0x5010 4 1] 0 []).frameFor 1 false (leafSize 4 false) = none ∧ (faulty 0x5010 4 3).kind ≠ 1 ∧
    (let s := wakes [.resolved ⟨1, 4, 2⟩ true 3] [(0, parkedBank)]
     s.takeFlight 0 = some (.resolved ⟨1, 4, 2⟩ true 3, { s with flight := [] }) ∧ s.clusters = [] ∧ s.dies = [] ∧
      (s.bankAt 0).waitsFor = .parked ⟨1, 4, 2⟩ 0 0x2000 1 3 8) ∧
    (let s := wakes [.resolved ⟨1, 4, 2⟩ false 0, .atomic 0 0 retried (some ⟨1, 4, 2⟩)] []
     s.takeFlight 0 = some (.resolved ⟨1, 4, 2⟩ false 0, { s with flight := [.atomic 0 0 retried (some ⟨1, 4, 2⟩)] }) ∧ s.banks = [] ∧ 0 / 64 = 0) ∧
    ((drained.unitAt chanU.toNat).st = .draining ∧ (∀ bit, drained.assisted bit = false) ∧ pageHolds chanU.toNat 0x8000 (leafSize 4 false) = true ∧
      (drained.unitAt chanU.toNat).moving = none ∧ drained.frameFor 1 (inT2 0x8000) 4096 = none ∧ (drained.unitAt chanU.toNat).migneed = false ∧
      (drained.migrate chanU.toNat 1 0).pagesHold chanU.toNat = true) ∧
    (draining farPool UnitRec.init).frameFor 1 (inT2 0x8000) 4096 = some 0x4000000000 ∧
    ((inMotion.unitAt chanU.toNat).moving = some move1 ∧ inMotion.pageBusy 0x8000 4096 = false ∧ late.pageBusy 0x8000 4096 = true ∧
      (inMotion.migrate chanU.toNat 1 0).pagesHold chanU.toNat = true) ∧
    ({ State.reset with units := [(unitId 7 0 0 0, { UnitRec.init with st := .draining })] }.jobs = [] ∧ unitId 7 0 0 0 / 2 ^ 28 ∈ [7, 8] ∧ (w32 (unitId 7 0 0 0)).toNat = unitId 7 0 0 0) := by
  have hf : drained.frameFor 1 (inT2 0x8000) 4096 = none := by decide +kernel
  have hb : inMotion.pageBusy 0x8000 4096 = false := by simp [State.pageBusy, inMotion, draining, mapped, State.reset]
  have hu : drained.unitAt chanU.toNat = { UnitRec.init with st := .draining } := draining_unit _ _
  have hmig := migrate_none (s := drained) (u := chanU.toNat) (job := 1) (va := 0) rfl (by rw [hu]; rfl) (by rw [hu]; rfl) drained_leaf holds_chanU hf
  have hmov : inMotion.migrate chanU.toNat 1 0 = inMotion.endMove chanU.toNat move1 := migrate_some (by rw [show inMotion = draining _ _ from rfl, draining_unit]) hb
  refine ⟨⟨show FMap.wf 0#8 tables = true by decide, rfl⟩, by decide, by decide +kernel, by decide +kernel, rfl, rfl, by decide, by decide +kernel, by decide, by decide +kernel, by decide, by decide, by decide,
    ⟨by rw [hu], fun bit => by simp [State.assisted, drained, draining, mapped, fld], holds_chanU, by rw [hu]; rfl, hf, by rw [hu]; rfl, ?_⟩, draining_frame _,
    ⟨by rw [show inMotion = draining _ _ from rfl, draining_unit], hb, by decide, ?_⟩, by decide⟩
  · rw [hmig]
    simp only [State.pagesHold, Bool.or_eq_true]
    exact .inr (List.any_eq_true.mpr ⟨(1, 4, false, 0x8000, 0, 0x5000), by decide +kernel, holds_chanU⟩)
  · rw [hmov]
    simp only [State.pagesHold, Bool.or_eq_true]
    exact .inr (List.any_eq_true.mpr ⟨(1, 4, false, 0x8000, 4096, 0x5008), moved_leaf, holds_chanU⟩)

/-- A gang that waits for clusters 0 and 1, and one that needs cluster 0 alone, where job 1 lies. -/
def gang1 (since : Nat) (p : NSet) : Job := { job1 with gang := true, place := p, placed := [], marked := [], gangSince := since, img := { job1.img with allot := 64 } }
def gangs (g : Job) (free : Bool) (cycles : Nat) : State :=
  { st Bank.init with jobs := [(1, { job1 with reloc := true }), (2, g)], cycles := cycles, eqsize := 6,
                      clusters := [(0, { Cluster.init with runs := if free then [] else [⟨1, 0, 64⟩] }), (1, Cluster.init)] }
def moved1 : MovedOut := ⟨0, [(0, 7)], []⟩
def single (j : Job) (fl : List Flight) : State := { State.reset with modid := 2, eqsize := 6, jobs := [(1, j)], flight := fl }
/-- A work queue at 0x10000 with one entry for handler 5 of cluster 0 of the own module, or of a module that is not it. -/
def queuedJob : Job := { job1 with wq := 0x10000, wqtail := 1, wqm := 4 }
def wqSt (mod : Byte) : State := { single queuedJob [] with mem := [(0x10000, mod), (0x10003, 0x1F), (0x10005, 0x28)], modid := 2 }
theorem witness_PlacementOfJobs :
    (let s := gangs (gang1 0 [0]) false 160000000
     let j := s.jobAt 2
     j.gang = true ∧ (j.jstate = 1 ∨ j.jstate = 2) ∧ j.placed = [] ∧ j.marked = [] ∧ s.lacking 2 = [0] ∧ j.reserved = [] ∧ (s.jobAt 1).reloc = true ∧
      (s.jobAt 1).placed.has 0 = true ∧ s.jobStill 0 1 = true ∧ s.runOf 0 1 = some ⟨1, 0, 64⟩ ∧ j.gangSince + 2000000 ≤ s.time ∧ j.gangSince + 100000000 ≤ s.time ∧
      s.assisted 5 = false ∧ { s with dsplit := 0x20 }.assisted 5 = true ∧ j.stalled = false ∧ s.ringFull = false ∧
      (∀ c ∈ j.place, (s.unitAt (unitId 9 (c / 64) (c % 64) 0)).st ≠ .retired)) ∧
    (gangs (gang1 0 [0]) false 3198400).time < 0 + 2000000 ∧
    (let s := gangs (gang1 0 [1]) true 0
     s.lacking 2 = [] ∧ (s.jobAt 2).place = [1] ∧ s.runOf 1 2 = none ∧ (s.clusterAt 1).freeRun (s.jobAt 2).segments = some 0) ∧
    (¬ ((gangs job1 true 0).jobAt 1).gang = true) ∧ (gangs (gang1 0 [0]) false 0).canTake 0 2 = false ∧
    (let s := single { job1 with placed := [1], moved := [moved1] } []
     s.canTake 0 1 = true ∧ (s.jobAt 1).place.has 0 = true ∧ (s.jobAt 1).jstate = 2 ∧ s.runOf 0 1 = none ∧ (s.clusterAt 0).freeRun (s.jobAt 1).segments = some 0 ∧
      (s.jobAt 1).moved.find? (fun y => y.ck == 0) = some moved1 ∧ FMap.wf 0 moved1.bytes = true) ∧
    (let s := single { job1 with placed := [1], marked := [1] } []
     (s.jobAt 1).moved.find? (fun y => y.ck == 0) = none ∧ (s.jobAt 1).marked.has 0 = false) ∧
    (let s := single job1 [.marker 0 1]
     s.takeFlight 0 = some (.marker 0 1, { s with flight := [] })) ∧
    ((single job1 []).jobAt 1).wave = none ∧
    (let s := single { job1 with wave := some 1, jstate := 1 } []
     (s.jobAt 1).wave = some 1 ∧ (s.jobAt 1).marked.find? (fun c => decide (1 ≤ c)) = some 1 ∧ (s.jobAt 1).marked.find? (fun c => decide (2 ≤ c)) = none ∧ s.ringFull = false) ∧
    (let s := wqSt 2
     let j := s.jobAt 1
     let h := s.dwAt (j.wq + 512 * j.wqhead.toNat)
     j.jstate = 2 ∧ j.wqhead ≠ j.wqtail ∧ fld h 0 16 = s.modid.toNat ∧ fld h 28 15 = 1 ∧ s.inPlace 1 (fld h 16 2) (fld h 18 6) = true ∧ fld h 56 1 ≠ 1 ∧ ¬ 32 < fld h 57 6 ∧
      (j.handler (fld h 43 12)).isNone = false ∧ j.placed.has (fld h 16 2 * 64 + fld h 18 6) = true ∧ j.carafe = [] ∧ s.spaceUsed 0 1 (fld h 55 1 == 1) < j.depth ∧
      (s.unitAt (unitId 9 0 0 0)).st ≠ .retired) ∧
    fld ((wqSt 3).dwAt 0x10000) 0 16 ≠ (wqSt 3).modid.toNat ∧ (wqSt 3).ringFull = false ∧
    (let s := single { job1 with jstate := 3 } []
     (s.jobAt 1).jstate = 3 ∧ s.jobLeft 1 = false ∧ s.ringFull = false) ∧
    (single { job1 with jstate := 3 } [.marker 0 1]).jobLeft 1 = true := by
  and_intros <;> decide +kernel
theorem wq_calm : (wqSt 2).Calm := calm ⟨rfl, rfl, rfl, rfl⟩ (fun _ he => absurd he List.not_mem_nil)

/-- A gang that can never be placed; queues that hold no entry back; an entry of the work queue that stalls on a channel; a removed job. -/
theorem witness_PlacementOfJobs_waits :
    { gang1 0 [0] with hopeless := true }.hopeless = true ∧ (gang1 0 [0]).hopeless = false ∧
    (∀ c, ∀ q ∈ ((gangs (gang1 0 [0]) false 0).clusterAt c).queue, q.entry = false) ∧
    { wqSt 2 with pend := [⟨80, 0, 1, 0x1003F, 0, 0x1003F, 1, false, .store [1] false⟩] }.stalled 0x10000 64 = true := by
  refine ⟨rfl, rfl, fun c q hq => ?_, by decide⟩
  simp only [gangs, State.clusterAt, FMap.get] at hq
  split at hq
  · cases hq
  · split at hq <;> cases hq

/-- The window of the control space at an offset. -/
def ctl (off : Nat) : W64 := w64 (0xC0 * 2 ^ 56 + off)
theorem witness_HostWindows :
    (¬ (({ State.reset with ports := [0, 1] } : State).ports.has 0 = false ∨ ({ State.reset with ports := [0, 1] } : State).ports.has 1 = false)) ∧
    (State.reset.ports.has 0 = false ∧ fld (w64 0xBFFFFFFFF8) 56 8 = 0 ∧ inTier false (fld (w64 0xBFFFFFFFF8) 0 52) 8 = true ∧ State.reset.Calm) ∧
    (inTier false (fld (w64 0xBFFFFFFFF9) 0 52) 8 = false ∧ inTier true (fld (w64 0xBFFFFFFFF9) 0 52) 8 = false ∧
      inTier true (fld (w64 0x100000000000) 0 52) 1 = true) ∧
    (fld (ctl 0x108) 56 8 = 0xC0 ∧ fld (ctl 0x108) 0 3 = 0 ∧ fld (ctl 0x108) 0 32 = 0x108 ∧ fld (ctl 0x1000008) 0 32 = 0x1000000 + 0x40 * 0 + 8 ∧ fld (ctl 0) 56 8 ≠ 0 ∧
      fld (ctl 0x109) 0 3 ≠ 0 ∧ (leBytes 8 7).length = 8 ∧ ∃ t, exec (.controlRegisterWrite (fld (ctl 0x108) 0 32) (w64 (leNat (leBytes 8 7)))) State.reset = .next t) ∧
    ({ State.reset with hbusy := true }.hbusy = true ∧ State.reset.hbusy = false) ∧
    (let w := FMap.get 0 ({ State.reset with hcmd := [(0, 0x1000D)] } : State).hcmd 0
     w &&& 0xFFFFFFFF8000FF00 = 0 ∧ 1 ≤ fld w 0 8 ∧ fld w 0 8 ≤ 0xD) ∧
    (0x100 : W64) &&& 0xFFFFFFFF8000FF00 ≠ 0 ∧ 0xD < fld (0xE : W64) 0 8 ∧
    ((∀ e ∈ State.reset.jobs, e.2.jstate = 0) ∧ ∃ e ∈ (st bank1).jobs, e.2.jstate ≠ 0) ∧
    (((st bank1).jobAt 1).jstate = 2 ∧ ((st bank1).jobAt 32767).jstate ≠ 1 ∧ ((st bank1).jobAt 32767).jstate ≠ 2) := by
  refine ⟨by decide, ⟨by decide, by decide, by decide, calm ⟨rfl, rfl, rfl, rfl⟩ fun _ he => absurd he List.not_mem_nil⟩, by decide,
    ⟨by decide, by decide, by decide, by decide, by decide, by decide, by decide, ⟨_, rfl⟩⟩, by decide, by decide, by decide, by decide, by decide, by decide⟩

/-- A state in which a host command runs, with its doublewords 1 to 3. -/
def hostOn (op job : Nat) (a b c : W64) (s : State) : State :=
  { s with hbusy := true, eqsize := 6, hcmd := [(0, w64 (job * 2 ^ 16 + op)), (1, a), (2, b), (3, c)].filter fun e => e.2 != 0 }
/-- The descriptor of job 1, and its memory: one handler word, in a work queue of 16 entries. -/
def descMem : List Host.Cell :=
  [(0x8000, 1), (0x8002, 0x10), (0x8004, 4), (0x800A, 4), (0x8011, 0x10), (0x801A, 2), (0x8030, 1), (0x804A, 3), (0x8050, 1)]
def toInstall : State := hostOn 1 1 0x8000 0 0 { State.reset with modid := 2, mem := descMem }
def img1 : JobImage := ⟨[0x0000000B], [⟨5, 0, false, none⟩], [], 64, [], [], [], []⟩
def opaId : W64 := w64 (unitId 2 0 0 0)
def unitOn (op : Nat) (b : W64) (x : UnitRec) : State := hostOn op 0 opaId b 0 { State.reset with units := [(unitId 2 0 0 0, x)] }
def hold1 : AbortHold := ⟨3, 0, ⟨1, 5, false, none, true, none, ⟨0, 0, [], []⟩⟩, 0, 0⟩
def held1 (b : W64) (retry : Nat) : State := hostOn 8 0 3 b 0 { State.reset with jobs := [(1, { job1 with retry := retry, errh := 0xFFF, holds := [hold1] })] }
def asked1 (b : W64) : State := hostOn 9 0 3 b 0 { net { Die.init with tx := [{ tx2 with asked := [(3, 0)] }] } Cluster.init [] with modid := 2 }
def grpCmd (op : Nat) (a b : W64) : State := hostOn op 1 a b 0 { st bank1 with jobs := [(1, { job1 with groups := [⟨0, 1, 1, 0, 0, [0]⟩] })] }
/-- A command runs with its reserved fields zero. -/
def Clean (s : State) (op : Nat) (r1 r2 r3 : W64) : Prop := s.hbusy = true ∧ s.hop = op ∧ s.hdw 1 &&& r1 = 0 ∧ s.hdw 2 &&& r2 = 0 ∧ s.hdw 3 &&& r3 = 0
theorem witness_HostCommands :
    (State.reset.hbusy = false ∧ (hostOn 2 0 0 0 0 State.reset).hop = 2 ∧ (hostOn 2 0 1 0 0 State.reset).hdw 1 &&& BitVec.allOnes 64 ≠ 0) ∧
    (Clean (hostOn 2 7 0 0 0 (st bank1)) 2 (BitVec.allOnes 64) (BitVec.allOnes 64) (BitVec.allOnes 64) ∧ ((hostOn 2 7 0 0 0 (st bank1)).jobAt 7).jstate ≠ 2 ∧
      ((hostOn 2 1 0 0 0 (st bank1)).jobAt (hostOn 2 1 0 0 0 (st bank1)).hjob).jstate = 2) ∧
    (Clean toInstall 1 0 (BitVec.allOnes 64) (BitVec.allOnes 64) ∧ toInstall.hjob = 1 ∧ (toInstall.jobAt 1).jstate = 0 ∧ ((hostOn 1 1 0x8000 0 0 (st bank1)).jobAt 1).jstate ≠ 0 ∧
      inTier false 0xBFFFFFFFC0 128 = false ∧ toInstall.descOk 0x8000 1 = true ∧ { toInstall with modid := 0 }.modid = 0 ∧ imageOk img1 = true ∧
      (Config.parseImage [] = some img1 → toInstall.installReason 0x8000 1 = (0, some (toInstall.jobOf 0x8000 img1)))) ∧
    (Clean (hostOn 3 1 0x5000 5 0 (st bank1)) 3 0 (~~~7#64) (BitVec.allOnes 64) ∧ (hostOn 3 1 0x5000 5 0 (st bank1)).tlb = [] ∧ 6 ≤ (6 : W64).toNat) ∧
    (let s := hostOn 4 1 0x2000 1 0 { mapped [{ faulty 0x5010 4 1 with mode := 2 }] 0 [] with hbusy := true }
     Clean s 4 0 0 (~~~1#64) ∧ (s.jobAt s.hjob).jstate = 2 ∧ fld (s.hdw 2) 15 2 = 0 ∧ fld (s.hdw 2) 0 15 = s.hjob ∧
      (s.dieAt 0).faults = [{ faulty 0x5010 4 1 with mode := 2 }] ∧ (faulty 0x5010 4 1).va / 4096 % 2 ^ 44 = fld (s.hdw 1) 12 44) ∧
    (unitValid 0 = false ∧ unitValid opaId.toNat = true ∧ opaId.toNat / 2 ^ 28 ∈ [2, 3, 4]) ∧
    (let s := unitOn 5 1 { UnitRec.init with st := .held }
     Clean s 5 0xFFFFFFFF00000000 (~~~1#64) (BitVec.allOnes 64) ∧ s.jobs = [] ∧ (s.unitAt opaId.toNat).st = .held ∧ s.hdw 2 = 1) ∧
    (Clean (unitOn 6 0 UnitRec.init) 6 0xFFFFFFFF00000000 (BitVec.allOnes 64) (BitVec.allOnes 64) ∧ ((unitOn 6 0 UnitRec.init).unitAt opaId.toNat).st = .inService ∧
      Clean (unitOn 7 0 UnitRec.init) 7 0xFFFFFFFF00000000 (BitVec.allOnes 64) (BitVec.allOnes 64) ∧ (unitOn 7 0 UnitRec.init).leaseOk opaId.toNat = true ∧
      (unitOn 7 0 { UnitRec.init with st := .held }).leaseOk opaId.toNat = false ∧ (unitOn 7 0 UnitRec.init).ringFull = false) ∧
    (Clean (held1 1 1) 8 0xFFFFFFFF00000000 (~~~1#64) (BitVec.allOnes 64) ∧ hold1.eseq % 2 ^ 32 = 3 ∧ fld hold1.q.m.h1 32 3 < 1 ∧ hold1.q.job = 1 ∧
      0 ≤ fld hold1.q.m.h1 32 3) ∧
    (Clean (asked1 1) 9 0xFFFFFFFF00000000 (~~~1#64) (BitVec.allOnes 64) ∧ ((asked1 1).dieAt 0).tx = [{ tx2 with asked := [(3, 0)] }] ∧ (asked1 1).hdw 2 = 1 ∧
      (asked1 0).hdw 2 = 0 ∧ tx2.acked.has 0 = false ∧ tx2.rod = false ∧ tx2.isRequest = false ∧ ∀ i, i ≠ 0 → ((asked1 1).dieAt i).tx = []) ∧
    (Clean (hostOn 0xA 1 1 0 0 (st bank1)) 0xA (~~~1#64) (BitVec.allOnes 64) (BitVec.allOnes 64) ∧ ∀ e ∈ (st bank1).banks, e.2.waitsFor ≠ .debug) ∧
    (Clean (grpCmd 0xB 0 0) 0xB (~~~0xFF#64) (BitVec.allOnes 64) (BitVec.allOnes 64) ∧ ((grpCmd 0xB 0 0).jobAt 1).groups.length = 1 ∧ (grpCmd 0xB 1 0).hdw 1 = 1) ∧
    (Clean (grpCmd 0xC 0x20000 0) 0xC (~~~0xFF0000#64) (~~~0xFF#64) 0 ∧ fld ((grpCmd 0xC 0x20000 0).hdw 1) 16 2 = 2 ∧ fld (0x30000 : W64) 16 2 = 3 ∧
      ((grpCmd 0xC 0x20000 0).jobAt 1).groups[0]? = some ⟨0, 1, 1, 0, 0, [0]⟩) ∧
    (Clean (hostOn 0xD 1 0x10000 2 0 (st bank1)) 0xD 0 0 (BitVec.allOnes 64) ∧ inTier false 0x10000 (2 * 65536) = true ∧ inTier false 0xBFFFFF0000 (2 * 65536) = false) := by
  refine ⟨by decide, by unfold Clean; decide, ⟨by unfold Clean; decide, by decide, by decide, by decide, by decide, by decide +kernel, by decide, by decide, fun h => ?_⟩,
    by unfold Clean; decide, by unfold Clean; decide, by decide, by unfold Clean; decide, by unfold Clean; decide +kernel, by unfold Clean; decide,
    ⟨by unfold Clean; decide, by decide, by decide, by decide, by decide, by decide, by decide, fun i hi => ?_⟩,
    by unfold Clean; decide, by unfold Clean; decide, by unfold Clean; decide, by unfold Clean; decide⟩
  · have hd : toInstall.descOk 0x8000 1 = true := by decide +kernel
    have hb : toInstall.imageBytes (toInstall.descDw 0x8000 4).toNat (toInstall.descDw 0x8000 5).toNat = some [] := by decide +kernel
    have hg : (toInstall.jobOf 0x8000 img1).gang = false := by decide +kernel
    have hc : (toInstall.jobOf 0x8000 img1).carPages ≠ 0 := by decide +kernel
    have hp : toInstall.groupsOk 1 (toInstall.jobOf 0x8000 img1).place 64 [] = true := by decide +kernel
    have hm : toInstall.modid ≠ 0 := by decide
    simp only [State.installReason, hd, hb, h, Option.bind_some]
    rw [show imageOk img1 = true from by decide, show shadowOk img1.shadow = true from rfl, show toInstall.groupsOk 1 (toInstall.jobOf 0x8000 img1).place img1.allot img1.groups = true from hp]
    simp [hg, hc, show img1.allot = 64 from rfl]
    exact hm
  · have : ∀ d : Die, (({ State.reset with dies := [(0, d)] } : State).dieAt i) = Die.init := fun d => by simp [State.dieAt, FMap.get, Ne.symm hi]
    rw [show ((asked1 1).dieAt i) = _ from this _]; rfl

/-- A translation of job 1 for the page that INVAL names, and an access that still holds it; a core that leaves; a retired cluster; a job with a handler for
capacity notifications. -/
def translating (pend : List Pend) : State := { hostOn 3 1 0x1002000 0 0 (st bank1) with tlb := [⟨0, 0, 1, 4, false, 0x1002, 0x8000, true, true⟩], pend := pend }
theorem witness_HostCommands_waits :
    (Clean (translating []) 3 0 (~~~7#64) (BitVec.allOnes 64) ∧ ((translating []).jobAt 1).jstate = 2 ∧ (translating []).pageBusy 0x8000 (leafSize 4 false) = false ∧
      (translating [⟨80, 0, 1, 0x1002FFF, 0, 0x8FFF, 1, false, .load 0⟩]).pageBusy 0x8000 (leafSize 4 false) = true ∧ 0x1002 * leafSize 4 false < 0x1002000 + 4096 ∧
      0x1002000 < (0x1002 + 1) * leafSize 4 false) ∧
    { UnitRec.init with st := .held, leaving := some false }.leaving.isSome = true ∧
    (let s := { grpCmd 0xC 0 0 with units := [(unitOf 9 0 0, { UnitRec.init with st := .retired })] }
     Clean s 0xC (~~~0xFF0000#64) (~~~0xFF#64) 0 ∧ (s.unitAt (unitOf 9 0 0)).st = .retired) ∧ (∀ k, ((grpCmd 0xC 0 0).unitAt (unitOf 9 k 0)).st ≠ .retired) ∧
    { job1 with caph := 5 }.caph ≠ 0xFFF ∧ { job1 with caph := 5 }.unacked.length < 4 ∧ job1.caph = 0xFFF ∧
    tx2.resends.get 0 0 < 8 ∧ tx2.copy.isSome = true := by
  refine ⟨by unfold Clean; decide, by decide, by unfold Clean; decide, fun k => ?_, by decide, by decide, by decide, by decide, by decide⟩
  rw [show (grpCmd 0xC 0 0).unitAt (unitOf 9 k 0) = UnitRec.init from rfl]; decide

/-- Karmos with its power off, without an image in either slot of image 1, and with a record of an OPA; a record of one unit. -/
def dark : State := { State.reset with karmos := { Karmos.init with on := false, slots := [] } }
def rec1 : RetRec := ⟨[w64 (unitId 2 0 0 0 * 2 ^ 32), 0, 0, 0, 0, 0, 0, 0], true, false⟩
theorem witness_ResetAndBoot :
    (∀ i, i < 3 → let f := State.reset.karmos.slots.get ⟨0, 0, false, false⟩ (2 * i + State.reset.karmos.next.get 0 i % 2); f.rsaOk = true ∧ f.slhOk = true) ∧
    (dark.karmos.on = false ∧ ¬ (dark.karmos.slots.get ⟨0, 0, false, false⟩ 2).rsaOk = true ∧ ¬ (dark.karmos.slots.get ⟨0, 0, false, false⟩ 3).rsaOk = true) ∧
    ((∀ r ∈ [rec1], kindOf (fld (r.dws.getD 0 0) 32 32) ≠ 9) ∧ rec1.signed = true ∧ fld (rec1.dws.getD 0 0) 32 32 = unitId 2 0 0 0) ∧ State.reset.karmos.on = true ∧
    unitValid (w32 (unitId 9 2 63 0)).toNat = true ∧ unitValid (w32 (unitId 9 3 0 0)).toNat = false ∧ 191 < 192 := by decide
theorem witness_KarmosFunctions :
    (State.reset.karmos.on = true ∧ State.reset.karmos.fwOk = true) ∧ dark.karmos.on ≠ true ∧ State.reset.karmos.minVer ≤ 0 ∧
    (let k := { Karmos.init with minVer := 1, recs := [rec1], spdmStep := 3 }
     (0 : Nat) < k.minVer ∧ k.recs[0]? = some rec1 ∧ k.recs.length ≤ 1 ∧ 3 ≤ k.spdmStep) ∧
    State.reset.karmos.spdmStep < 1 := by decide

/-- The extremes of a store's offset and of a branch's; a command with every field at its greatest value. -/
theorem witness_HandlerWordsRoundTrip :
    (Instr.sd 31 31 (-2048)).wf = true ∧ encode (.sd 31 31 (-2048)) = some 0x81FFB023 ∧ (Instr.beq 31 0 2047).wf = true ∧ (encode (.beq 31 0 2047)).isSome = true := by
  decide
theorem witness_CommandWordsRoundTrip :
    (Instr.gScatIadd (2 ^ 64 - 1) (2 ^ 64 - 1)).wf = true ∧ (tcwBody (.gScatIadd (2 ^ 64 - 1) (2 ^ 64 - 1))).isSome = true ∧ 65535 < 2 ^ 16 ∧ 4095 < 2 ^ 12 := by decide
/-- Bank 0 at ADDI x1, x0, 1, in and out of a masked window; an engine with an FSTAT; an event. -/
def issuing (b : Bank) : State := { st b with agenda := [.issue 0], code := [(2 ^ 16, 0x00100093)] }
theorem witness_StepRunsTheInstruction :
    (let s := issuing bank1
     let u := { s with agenda := [], cur := 0 }
     s.karmos.diesHeld = false ∧ s.agenda = .issue 0 :: [] ∧ u.b.st = .running ∧ (s.clusterAt (0 / 80)).gated = false ∧ u.b.service = false ∧ u.b.maskDue = 0 ∧
      0x100000 ≤ u.b.pc.toNat ∧ (u.b.pc.toNat - 0x100000) / 4 < (s.jobAt u.b.job).img.code.length ∧
      s.code.get 0 ((0 / 80 * 32768 + u.b.job) * 2 ^ 16 + (u.b.pc.toNat - 0x100000) / 4) = 0x00100093 ∧
      (decode 0x00100093).getD (.reservedEncoding 0x00100093) = .addi 1 0 1 ∧ u.b.maskOn = false ∧ u.b.preempt = none ∧ ∃ t, exec (.addi 1 0 1) u = .next t) ∧
    (let s := issuing { bank1 with maskOn := true, maskLeft := 1 }
     s.b.maskOn = true ∧ s.cycles < s.b.maskStart + 1024 ∧ 0 < s.b.maskLeft) ∧
    (let s := { fab 0 Fr.init [] with agenda := [.engine 0 2 0] }
     let u := { s with agenda := [], cmd := ⟨0, 2, 0 % unitsOf 2, 0 / unitsOf 2⟩ }
     s.agenda = .engine 0 2 0 :: [] ∧ u.engGone 0 2 = false ∧ u.engHeld 0 2 = false ∧ (s.clusterAt 0).gated = false ∧ u.run? = some (run1 0 [])) ∧
    (tcwInstr 0x52 0x400000 0 0 ⟨0, 0⟩).isSome = true ∧
    (let s := { st bank1 with agenda := [.event (.doorbell 1 2)] }
     s.agenda = .event (.doorbell 1 2) :: [] ∧ isEvent (.doorbell 1 2) = true ∧ ∃ t, exec (.doorbell 1 2) { s with agenda := [] } = .next t) := by
  refine ⟨⟨rfl, rfl, rfl, rfl, rfl, rfl, by decide, by decide, by decide, by decide, rfl, rfl, ⟨_, rfl⟩⟩, by decide, by decide, by decide, rfl, rfl, ⟨_, rfl⟩⟩
/-- It is the turn of that bank; it is not while bank 4 can issue. -/
theorem witness_StepRunsTheInstruction_turn :
    (issuing bank1).turn 0 = true ∧ (issuing bank1).ready 0 = true ∧ ((issuing bank1).coreAt 0).next ≤ (issuing bank1).cycles ∧
    ({ issuing bank1 with banks := [(0, bank1), (4, bank1)] } : State).turn 0 = false ∧ ({ issuing bank1 with banks := [(4, bank1)] } : State).turn 4 = true ∧
    ({ issuing bank1 with banks := [(0, bank1), (1, { bank1 with maskOn := true })] } : State).turn 0 = false := by decide +kernel
theorem witness_MemoryStaysCanonical :
    FMap.wf 0#8 descMem = true ∧ ∃ t, step { st bank1 with mem := descMem, agenda := [.event (.doorbell 1 2)] } = .next t := ⟨by decide, ⟨_, rfl⟩⟩

/-! ## Further forms of the statements -/

/-- A mismatch that is not recovered, in the first result of a jump and in its link; a parked access that is left to reissue. -/
theorem witness_JumpsAndBranches_links :
    { xs 0x100000 5 with mishap := .bad 0 }.mishap = .bad (2 * 0) ∧ { xs 0x100000 5 with mishap := .bad 1 }.mishap = .bad (2 * 0 + 1) ∧
    (xs 0x100000 5).inCode ((xs 0x100000 5).b.pc + .ofInt 64 (2 * 2)) = true ∧ (((xs 0x100000 5).b.getX 1 + .ofInt 64 4) &&& ~~~1#64).toNat % 4 = 0 ∧
    (xs 0x100000 5).inCode (((xs 0x100000 5).b.getX 1 + .ofInt 64 4) &&& ~~~1#64) = true ∧ (xs 0x100000 5).b.poisX 1 = false ∧
    { st { bank1 with pc := 0x100008 } with agenda := [.issue 0] }.b.redo = none := by decide

/-- A load of handler mode, its data there, while the bank is in service mode. -/
theorem witness_WaitsOfAHandler_modes :
    (let s : State := st { bank1 with service := true, loads := [⟨1, .x 3 true, 8, false, false, [⟨0, some (7, true)⟩]⟩] }
     (s.bankAt 0).loads[0]? = some ⟨1, .x 3 true, 8, false, false, [⟨0, some (7, true)⟩]⟩ ∧ (s.bankAt 0).service ≠ false ∧ 3 < 8) ∧ 7 < 2 ^ (8 * 8) := by decide

/-- Job 1 with an error handler, whose queue has room; an abort that is not to be redelivered; one of the error handler itself. -/
def withErr (hid : Nat) : State :=
  { st { bank1 with x := [(1, 0)], hid := hid, msg := ⟨1, hid, false, none, true, none, ⟨handle, 0, [], []⟩⟩ } with jobs := [(1, { job1 with errh := 6 })] }
theorem witness_EndAndAbort_errorHandler :
    (let s := withErr 5
     s.b.loads = [] ∧ s.assisted 8 = false ∧ s.b.buf = [] ∧ s.b.wait = .none ∧ ¬ ((s.b.poisX 1 = true ∨ fld (s.b.getX 1) 0 1 = 1) ∧ fld s.b.msg.m.h1 32 3 < (s.jobAt s.b.job).retry) ∧
      (s.jobAt s.b.msg.job).errh ≠ 0xFFF ∧ s.b.msg.hid ≠ (s.jobAt s.b.msg.job).errh ∧ (s.jobAt s.b.msg.job).errh < 4096 ∧ s.b.msg.job < 32768 ∧ s.b.hid < 4096 ∧
      (s.jobAt s.b.msg.job).gone = false ∧ (s.jobAt s.b.msg.job).jstate ≠ 0 ∧ (s.unitAt (unitOf 9 s.ck 0)).st ≠ .retired ∧ (s.jobAt s.b.msg.job).placedOn s.ck = true ∧
      (s.jobAt s.b.msg.job).section s.ck s.b.msg.urg.toNat = [] ∧ s.spaceUsed s.ck s.b.msg.job s.b.msg.urg < spaceDepth (s.jobAt s.b.msg.job) s.b.msg.urg) ∧
    (withErr 6).b.msg.hid = ((withErr 6).jobAt (withErr 6).b.msg.job).errh := by and_intros <;> decide +kernel

theorem witness_VectorReductions_saturating : (vc 0x24).b.satm = true ∧ (vc 0x24).b.ety = .uint ∧ (vc 0x20).b.satm = true ∧ (vc 0x20).b.ety = .sint := by decide

/-- An access that a pre-empted bank is owed, a vector load's; loads of handler mode, and of service mode. -/
theorem witness_ContextsAreSavedAndLoaded_owed :
    (let b := (atEntry { bank1 with owed := .parked ⟨1, 4, 2⟩ 0 0x2000 2 3 8 } 261120 []).b
     b.redo = none ∧ b.owed = .parked ⟨1, 4, 2⟩ 0 0x2000 2 3 8 ∧ b.loads = [] ∧ bank1.owed = .none) ∧
    (∀ o ∈ (outst none).b.loads, o.svc = false) ∧ ¬ ∀ o ∈ (st { bank1 with loads := [⟨1, .x 3 false, 8, false, true, [⟨0, none⟩]⟩] }).b.loads, o.svc = false := by decide

/-- A poisoned record; a ragged one in v1 whose table words 0 and 1 lie at the base of the window, with the indices row 0 and column 1 in x2. -/
def ragged (v : V256) : State := { record v 1 with mem := [(2 ^ 52 + 131072 + 4, 1)] }
theorem witness_LayoutRecords_ragged :
    ({ layout [(8, 1)] with pois := [granule (2 ^ 52 + 131072)] }.poisAt (2 ^ 52 + 131072) 32 = true) ∧
    (let v := ((ragged (2 ^ 223 + 2 ^ 205 + 2 ^ 204 + 2 ^ 64 + 0x400000 * 2 ^ 128 + 0x400100)).b.getV 1).toNat
     let s := ragged (2 ^ 223 + 2 ^ 205 + 2 ^ 204 + 2 ^ 64 + 0x400000 * 2 ^ 128 + 0x400100)
     let table := (v / 2 ^ 128 % 2 ^ 64 + 4 * 0) % 2 ^ 64
     s.b.poisV 1 = 0 ∧ s.b.poisX 2 = false ∧ v / 2 ^ 223 % 2 = 1 ∧ v / 2 ^ 205 % 2 ≠ 0 ∧ v / 2 ^ 204 % 2 = 1 ∧ 0 < v / 2 ^ 64 % 2 ^ 32 ∧ (s.b.getX 2).toNat = 1 ∧
      table % 4 = 0 ∧ s.reach .read table = (s, .at (2 ^ 52 + 131072)) ∧ regionAt (s.jobAt s.jid).regions table = none ∧
      s.reach .read (table + 4) = (s, .at (2 ^ 52 + 131076)) ∧ s.poisAt (2 ^ 52 + 131072) 4 = false ∧ s.poisAt (2 ^ 52 + 131076) 4 = false ∧
      s.numAt (2 ^ 52 + 131072) 4 = 0 ∧ s.numAt (2 ^ 52 + 131076) 4 - 0 ≤ 1) := by
  and_intros <;> decide +kernel

/-- A router with a child and a member core; the root with its contributions there; a member below a parent; results that the activation may still read. -/
def joint : GrpSt := { GrpSt.init with entry := some ⟨some 1, [2], 1⟩ }
def contrib0 : Contrib := ⟨1, 0, 0, [1, 2], [false, true]⟩
theorem witness_GroupInstructions_rounds :
    (let s := grouped joint [.contrib 0 0 contrib0] 0 []
     s.takeFlight 0 = some (.contrib 0 0 contrib0, { s with flight := [] }) ∧ joint.conts.length < 1 ∧ ¬ (∃ z ∈ joint.conts, coreOf z.bk = coreOf contrib0.bk) ∧
      joint.sent = false ∧ joint.next = [] ∧ ¬ ∀ d ∈ [2], (joint.parts.get none d).isSome) ∧
    (let y := { joint with conts := [contrib0] }
     let s := grouped y [.part 0 1 0 2 value] 0 []
     s.takeFlight 0 = some (.part 0 1 0 2 value, { s with flight := [] }) ∧ y.sent = false ∧ y.next = [] ∧
      (∀ d ∈ [2], ((y.parts.set none 2 (some value)).get none d).isSome) ∧
      ([2].filterMap ((y.parts.set none 2 (some value)).get none) ++ (inCoreOrder [contrib0]).map fun c => ⟨c.vals, c.pois, if c.pois.any id then 8 else 0⟩) =
        value :: [⟨[1, 2], [false, true], 8⟩]) ∧
    (let y := { joint with conts := [contrib0], sent := true }
     ¬ (y.conts.length < 1) ∧ (∀ z ∈ y.next, coreOf z.bk ≠ coreOf contrib0.bk) ∧ (∃ z ∈ { y with next := [contrib0] }.next, coreOf z.bk = coreOf contrib0.bk)) ∧
    (let s := grouped { joint with sent := true } [.result 0 1 0 value] 0 []
     s.takeFlight 0 = some (.result 0 1 0 value, { s with flight := [] }) ∧ (s.grpAt (grpKey 0 1 0)).next = [] ∧ (s.counterAt (cntKey 0 1 3)).armed = false) ∧
    (let s := grouped { root with old := [⟨value, 0, [], []⟩] } [] 0 []
     (∃ r ∈ (s.grpAt (grpKey 0 1 0)).old, r.seen.has s.actKey = false) ∧ ∀ r ∈ [(⟨value, 0, [s.actKey], []⟩ : GrpOld)], r.seen.has s.actKey = true) ∧
    (0xB ≤ 0xB ∧ value.vals.length = 2 ∧ value.pois.length = 2 ∧ 2 % 2 = 0) := by
  and_intros <;> decide +kernel

/-- A gather that looks its rows up in kernel 3, one that pools two rows to a bag, one with a hit in its filter. -/
def gcmdIn (w0 : W64) (kern bag : Nat) (g : Gather) : RunCmd :=
  { gcmd w0 4 8 (some g) with aux := ((gfields 4 8 kern).map Prod.snd).set 5 (bag * 2 ^ 32 + kern * 2 ^ 24 + 8) }
def hit0 : FEnt := ⟨0x401040, 0, pbytes 8 7 false, 1⟩
theorem witness_Gathering_kernel (s : State) (w : Who) : (runKernel w kern1 64 0 ([w64 1, w64 0, w64 0x401000, w64 4] ++ List.replicate 12 0)).run s = (.ok (.row 1), s) ∧
    (runKernel w [0xD0000000] 64 0 ([w64 1, w64 0, w64 0x401000, w64 4] ++ List.replicate 12 0)).run s = (.ok .invalid, s) := ⟨rfl, rfl⟩
theorem witness_Gathering_positions :
    (gcmdIn 0x14 11 0 Gather.init).gd.kern = some 3 ∧ ((pfu (gcmdIn 0x14 11 0 Gather.init) (kerned (some (1, kern1))) []).clusterAt 0).kernAt 3 = some (1, kern1) ∧
    (gcmdIn 0x24 0 2 Gather.init).gd.bag = 2 ∧ (gcmdIn 0x24 0 2 Gather.init).gd.kern = none ∧ (0 + 1) % 2 ≠ 0 ∧ (1 + 1) % 2 = 0 ∧ (gcmdIn 0x24 0 2 Gather.init).gd.rlen = 8 ∧
    gkindOf (tcwInstr 0x10000014 0x400000 0 0 ⟨0, 0⟩) = some (.rows false true) ∧ gkindOf (tcwInstr 0x20000014 0x400000 0 0 ⟨0, 0⟩) = some (.rows true false) ∧
    ([hit0].find? fun f => f.target == 0x401000 + 1 * 64) = some hit0 ∧ (∀ f ∈ [hit0], f.target ≠ 0x401000 + 0 * 64) ∧ hit0.part.length = 8 * 1 ∧
    ({ hit0 with target := 0x401041 } : FEnt).target % 4 ≠ 0 ∧ hit0.target % 8 = 0 ∧ hit0.target % 4 = 0 ∧ hit0.part.length = 4 * 2 ∧ [hit0].length ≤ 64 := by
  and_intros <;> decide +kernel

/-- A duplicate of a message that has ended. -/
def rxDone : NeRx := { rx1 with src := 2, body := .write 0x400000 (some 63) 2, total := 1, got := [0], done := true }
theorem witness_NetworkEvents_duplicate :
    (let p := pkt1 (.write 0x400000 (some 63) 2)
     let s := net { Die.init with rx := [rxDone] } Cluster.init [.pkt 0 p none 0]
     s.flight = [.pkt 0 p none 0] ∧ p.src = s.modid.toNat ∧ p.good = true ∧ p.supported = true ∧ p.num = 0 ∧ p.total = 1 ∧ p.off = 0 ∧ p.rod = false ∧ p.mid % 4 = 0 ∧
      (s.dieAt 0).rx = [rxDone] ∧ rxDone.src = s.modid.toNat ∧ rxDone.mid = p.mid ∧ rxDone.ck = p.ck ∧ rxDone.job = p.job ∧ rxDone.body = p.body) ∧
    (0 < 0x11 ∧ tx2.sent = tx2.total ∧ tx2.total ≤ 1) := by decide

/-- An access that a pre-empted bank is owed. -/
theorem witness_PagesResolvedAndMoved_owed :
    parkedBank.owed = .none ∧ parkedBank.redo = none ∧
    (let b := { bank1 with owed := .parked ⟨1, 4, 2⟩ 0 0x2000 1 3 8 }
     b.waitsFor = .none ∧ b.owed = .parked ⟨1, 4, 2⟩ 0 0x2000 1 3 8) ∧ bank1.waitsFor = .none ∧
    0x4000000000 + 4096 ≤ 2 ^ 52 ∧ move1.ents = [(0x5000, 0xF)] ∧ 0x5000 + 8 ≤ 2 ^ 58 := by decide

/-- A gang that reserves; a cluster with a bank in retention; a work queue of a job that is being configured. -/
theorem witness_PlacementOfJobs_retention :
    ({ gang1 0 [0] with reserving := true }.reserving = true ∧ (gang1 0 [0]).reserving = false) ∧ { Cluster.init with inret := [0] }.inret ≠ [] ∧
    (∀ c ∈ (gang1 0 [1]).place, ((gangs (gang1 0 [1]) true 0).clusterAt c).inret = []) ∧ ((single job1 []).clusterAt 0).inret = [] ∧
    { queuedJob with jstate := 1 }.jstate = 1 ∧ { queuedJob with jstate := 1 }.wqhead ≠ { queuedJob with jstate := 1 }.wqtail ∧
    (gang1 0 [1]).place ≠ [] ∧ (∀ e ∈ moved1.bytes, FMap.get 0 moved1.bytes e.1 = e.2) := by decide

/-- Offsets that nothing names; banks in retention. -/
theorem witness_HostWindows_unnamed :
    (0x28 < 0x10000 ∧ 0x28 ∉ [0, 8, 0x10, 0x18, 0x20, 0x40, 0x48, 0x50, 0x58, 0x60, 0x100, 0x108]) ∧ 0x1200000 ≤ 0x1200000 ∧
    (let c := { Cluster.init with inret := [0, 15] }
     c.retIdle < 65536 ∧ c.inret.Nodup ∧ ∀ b ∈ c.inret, b < 16) := by decide

/-- An access to the page that INVAL names is held; a removed job with a request from another module in its queue; an error handler that a held message goes to. -/
def asker : QMsg := ⟨1, 5, false, none, true, none, ⟨handle, 0x0010000000000007, [], []⟩⟩
def removing : State := { hostOn 2 1 0 0 0 (st { Bank.init with st := .free }) with clusters := [(0, { Cluster.init with queue := [asker] })] }
theorem witness_HostCommands_messages :
    (∃ p ∈ (translating [⟨80, 0, 1, 0x1002FFF, 0, 0x8FFF, 1, false, .load 0⟩]).pend,
      p.job = 1 ∧ translated p.va = true ∧ p.va < 0x1002000 / 4096 * 4096 + 4096 ∧ 0x1002000 / 4096 * 4096 < p.va + p.n) ∧ (¬ ∃ p ∈ (translating []).pend, p.job = 1) ∧
    (Clean removing 2 (BitVec.allOnes 64) (BitVec.allOnes 64) (BitVec.allOnes 64) ∧ (removing.jobAt 1).jstate = 2 ∧ (∀ e ∈ removing.banks, e.2.job ≠ 1 ∨ e.2.st = .free) ∧
      (∀ e ∈ removing.clusters, e.2.saved = []) ∧ (removing.jobAt 1).carafe = [] ∧ (removing.jobAt 1).holds = [] ∧ (∀ e, e < 3 → (removing.dieAt e).tx = []) ∧
      fld asker.m.h1 52 1 = 1 ∧ fld asker.m.h1 0 16 ≠ removing.modid.toNat ∧ asker ∈ ((removing.clusterAt 0).queue.filter fun y => y.job == 1)) ∧
    (let l := { job1 with errh := 6, holds := [hold1] }
     let s := hostOn 8 0 3 0 0 { State.reset with jobs := [(1, l)] }
     Clean s 8 0xFFFFFFFF00000000 (~~~1#64) (BitVec.allOnes 64) ∧ s.jobs = [(1, l)] ∧ l.holds = [hold1] ∧ hold1.eseq % 2 ^ 32 = 3 ∧ hold1.q.job = 1 ∧ l.errh ≠ 0xFFF ∧
      hold1.q.hid ≠ l.errh ∧ l.errh < 4096 ∧ l.jstate = 2 ∧ (s.unitAt (unitOf 9 hold1.ck 0)).st ≠ .retired ∧ l.placedOn hold1.ck = true ∧
      l.section hold1.ck hold1.q.urg.toNat = [] ∧ (s.putJob 1 { l with holds := [] }).spaceUsed hold1.ck 1 hold1.q.urg < spaceDepth l hold1.q.urg) := by
  unfold Clean; and_intros <;> decide +kernel

/-- A lease asks for a core whose bank waits for a page. -/
theorem witness_DispatchAndPreemption_parked :
    ((leased (.parked ⟨1, 4, 2⟩ 3 0x2000 1 3 8) .waiting).leaseAsks 0 = true ∧ ((leased (.parked ⟨1, 4, 2⟩ 3 0x2000 1 3 8) .waiting).bankAt 0).redo = none ∧
      ((leased (.parked ⟨1, 4, 2⟩ 3 0x2000 1 3 8) .waiting).bankAt 0).service = false ∧ ((leased (.parked ⟨1, 4, 2⟩ 3 0x2000 1 3 8) .waiting).bankAt 0).maskOn = false) ∧
    (let s := { st { bank1 with maskOn := true, st := .waiting, wait := .fence true } with cycles := 1024 }
     (s.bankAt 0).maskOn = true ∧ (s.bankAt 0).maskStart + 1024 ≤ s.cycles ∧ (s.bankAt 0).service = false ∧ (s.bankAt 0).st = .waiting) := by decide +kernel

/-- A bank with an access left to reissue, a load of x3 from the scratchpad. -/
theorem witness_StepRunsTheInstruction_reissue :
    (let s := issuing { bank1 with redo := some ⟨0x400000, 1, 3, 3⟩ }
     let u := { s with agenda := [], cur := 0 }
     s.agenda = .issue 0 :: [] ∧ s.karmos.diesHeld = false ∧ u.b.st = .running ∧ (s.clusterAt (0 / 80)).gated = false ∧ u.b.service = false ∧ u.b.maskDue = 0 ∧
      u.b.maskOn = false ∧ u.b.preempt = none ∧ u.turn 0 = true ∧ u.b.redo = some ⟨0x400000, 1, 3, 3⟩ ∧ ∃ t, u.reissue ⟨0x400000, 1, 3, 3⟩ = .next t) ∧
    (issuing bank1).b.redo = none := by
  refine ⟨⟨rfl, rfl, rfl, rfl, rfl, rfl, rfl, rfl, by decide +kernel, rfl, ⟨_, rfl⟩⟩, rfl⟩

end Sys2Proof.Tests
end

/-! PROOFS. Products, quotients and remainders as integers (R82, R84): first of words of any width, then of the W forms, then of the instructions. -/

namespace Sys2Proof.Machine

/-! ## Words of any width -/

theorem ofInt_mul_toInt {n : Nat} (a b : BitVec n) : a * b = BitVec.ofInt n (a.toInt * b.toInt) := by
  rw [BitVec.ofInt_mul, BitVec.ofInt_toInt, BitVec.ofInt_toInt]

theorem ofInt_toNat {n : Nat} (a : BitVec n) : BitVec.ofInt n a.toNat = a := by
  rw [BitVec.ofInt_natCast, BitVec.ofNat_toNat, BitVec.setWidth_eq]

theorem setWidth_eq_ofInt {n : Nat} (m : Nat) (a : BitVec n) : a.setWidth m = BitVec.ofInt m a.toNat := by
  rw [BitVec.ofInt_natCast, ← BitVec.ofNat_toNat]

theorem ofInt_bmod (n : Nat) (z : Int) : BitVec.ofInt n (z.bmod (2 ^ n)) = BitVec.ofInt n z :=
  BitVec.eq_of_toInt_eq (by rw [BitVec.toInt_ofInt, BitVec.toInt_ofInt, Int.bmod_bmod])

theorem toInt_eq_zero_iff {n : Nat} (a : BitVec n) : a.toInt = 0 ↔ a = 0 := by
  rw [← BitVec.toInt_inj]; exact Iff.of_eq (congrArg _ BitVec.toInt_zero.symm)

theorem toNat_eq_zero_iff {n : Nat} (a : BitVec n) : a.toNat = 0 ↔ a = 0 := by
  rw [← BitVec.toNat_inj]; exact Iff.rfl

/-- The upper half of a product of 128-bit operands given as integers. -/
theorem hi64_ofInt (p q : Int) : hi64 (BitVec.ofInt 128 p) (BitVec.ofInt 128 q) = BitVec.ofInt 64 (p * q / 2 ^ 64) := by
  rw [hi64, ← BitVec.ofInt_mul]
  refine BitVec.eq_of_toNat_eq ?_
  rw [BitVec.extractLsb'_toNat, BitVec.toNat_ofInt, BitVec.toNat_ofInt, Nat.shiftRight_eq_div_pow]
  omega

theorem mulh_eq_ofInt (a b : W64) : hi64 (a.signExtend 128) (b.signExtend 128) = .ofInt 64 (a.toInt * b.toInt / 2 ^ 64) := hi64_ofInt _ _

theorem mulhsu_eq_ofInt (a b : W64) : hi64 (a.signExtend 128) (b.setWidth 128) = .ofInt 64 (a.toInt * b.toNat / 2 ^ 64) := by
  rw [setWidth_eq_ofInt]; exact hi64_ofInt _ _

theorem mulhu_eq_ofInt (a b : W64) : hi64 (a.setWidth 128) (b.setWidth 128) = .ofInt 64 (a.toNat * b.toNat / 2 ^ 64) := by
  rw [setWidth_eq_ofInt, setWidth_eq_ofInt]; exact hi64_ofInt _ _

/-- R84: the signed quotient is rounded toward zero, and is −1 for a zero divisor. -/
theorem divS_toInt {n : Nat} (hn : 0 < n) (a b : BitVec n) :
    (divS a b).toInt = if b.toInt = 0 then -1 else (a.toInt.tdiv b.toInt).bmod (2 ^ n) := by
  by_cases h : b = 0
  · simp [divS, h, BitVec.toInt_allOnes, hn]
  · rw [divS, if_neg h, if_neg (mt (toInt_eq_zero_iff b).mp h), BitVec.toInt_sdiv]

/-- R84: the remainder takes the sign of the dividend, and is the dividend for a zero divisor. -/
theorem remS_toInt {n : Nat} (a b : BitVec n) : (remS a b).toInt = if b.toInt = 0 then a.toInt else a.toInt.tmod b.toInt := by
  by_cases h : b = 0
  · simp [remS, h]
  · rw [remS, if_neg h, if_neg (mt (toInt_eq_zero_iff b).mp h), BitVec.toInt_srem]

/-- R84: the unsigned quotient is all ones for a zero divisor. -/
theorem divU_toNat {n : Nat} (a b : BitVec n) : (divU a b).toNat = if b.toNat = 0 then 2 ^ n - 1 else a.toNat / b.toNat := by
  by_cases h : b = 0
  · simp [divU, h]
  · rw [divU, if_neg h, if_neg (mt (toNat_eq_zero_iff b).mp h), BitVec.toNat_udiv]

theorem remU_toNat {n : Nat} (a b : BitVec n) : (remU a b).toNat = if b.toNat = 0 then a.toNat else a.toNat % b.toNat := by
  by_cases h : b = 0
  · simp [remU, h]
  · rw [remU, if_neg h, if_neg (mt (toNat_eq_zero_iff b).mp h), BitVec.toNat_umod]

/-! ## Quotients and remainders of whole registers -/

theorem divS_eq_ofInt (a b : W64) : divS a b = .ofInt 64 (if b.toInt = 0 then -1 else a.toInt.tdiv b.toInt) := by
  rw [← BitVec.ofInt_toInt (x := divS a b), divS_toInt (by decide)]
  split
  · rfl
  · exact ofInt_bmod 64 _

theorem remS_eq_ofInt (a b : W64) : remS a b = .ofInt 64 (if b.toInt = 0 then a.toInt else a.toInt.tmod b.toInt) := by
  rw [← remS_toInt, BitVec.ofInt_toInt]

theorem divU_eq_ofInt (a b : W64) : divU a b = .ofInt 64 (if b.toNat = 0 then 2 ^ 64 - 1 else (a.toNat : Int) / b.toNat) := by
  rw [← ofInt_toNat (divU a b), divU_toNat]
  split <;> rfl

theorem remU_eq_ofInt (a b : W64) : remU a b = .ofInt 64 (if b.toNat = 0 then (a.toNat : Int) else (a.toNat : Int) % b.toNat) := by
  rw [← ofInt_toNat (remU a b), remU_toNat]
  split <;> rfl

/-! ## W forms (R82) -/

theorem toInt_lo32 (a : W64) : (lo32 a).toInt = a.toInt.bmod (2 ^ 32) := by
  rw [lo32, BitVec.toInt_setWidth, BitVec.toInt_eq_toNat_bmod]
  exact (Int.bmod_bmod_of_dvd (by decide)).symm

theorem toNat_lo32 (a : W64) : (lo32 a).toNat = a.toNat % 2 ^ 32 := BitVec.toNat_setWidth _ _

/-- A W form gives the signed value of its 32-bit result. -/
theorem wform_eq_ofInt (f : W32 → W32 → W32) (a b : W64) {v : Int} (h : (f (lo32 a) (lo32 b)).toInt = v) : wform f a b = .ofInt 64 v := h ▸ rfl

theorem mulw_toInt (a b : W64) : (lo32 a * lo32 b).toInt = (a.toInt * b.toInt).bmod (2 ^ 32) := by
  rw [BitVec.toInt_mul, toInt_lo32, toInt_lo32, Int.bmod_mul_bmod, Int.mul_bmod_bmod]

theorem divw_toInt (a b : W64) :
    (divS (lo32 a) (lo32 b)).toInt =
      if b.toInt.bmod (2 ^ 32) = 0 then -1 else ((a.toInt.bmod (2 ^ 32)).tdiv (b.toInt.bmod (2 ^ 32))).bmod (2 ^ 32) := by
  rw [divS_toInt (by decide), toInt_lo32, toInt_lo32]

theorem remw_toInt (a b : W64) :
    (remS (lo32 a) (lo32 b)).toInt =
      if b.toInt.bmod (2 ^ 32) = 0 then a.toInt.bmod (2 ^ 32) else (a.toInt.bmod (2 ^ 32)).tmod (b.toInt.bmod (2 ^ 32)) := by
  rw [remS_toInt, toInt_lo32, toInt_lo32]

theorem divuw_toInt (a b : W64) :
    (divU (lo32 a) (lo32 b)).toInt =
      if b.toNat % 2 ^ 32 = 0 then -1 else ((a.toNat % 2 ^ 32 : Nat) / (b.toNat % 2 ^ 32 : Nat) : Int).bmod (2 ^ 32) := by
  rw [BitVec.toInt_eq_toNat_bmod, divU_toNat, toNat_lo32, toNat_lo32]
  split <;> rfl

theorem remuw_toInt (a b : W64) :
    (remU (lo32 a) (lo32 b)).toInt =
      if b.toNat % 2 ^ 32 = 0 then a.toInt.bmod (2 ^ 32) else ((a.toNat % 2 ^ 32 : Nat) % (b.toNat % 2 ^ 32 : Nat) : Int).bmod (2 ^ 32) := by
  rw [← toInt_lo32, BitVec.toInt_eq_toNat_bmod, BitVec.toInt_eq_toNat_bmod, remU_toNat, toNat_lo32, toNat_lo32]
  split <;> rfl

/-! ## The instructions -/

/-- An instruction whose result on two registers is an integer writes it, poisoned where a source is (R81, R82). -/
theorem ends_alu_pair {s : State} {i : Instr} {rd rs1 rs2 : Reg} {w : W64} {v : Int} (h : s.mishap = .none) (hv : w = .ofInt 64 v)
    (hi : exec i s = alu rd [rs1, rs2] w s) : Ends i s (WritesX rd (.ofInt 64 v) (s.b.poisX rs1 || s.b.poisX rs2) (s.b.pc + 4) s) := by
  have hp : [rs1, rs2].any s.b.poisX = (s.b.poisX rs1 || s.b.poisX rs2) := by simp
  rw [← hp, ← hv, Ends, hi]
  exact alu_writes h rd [rs1, rs2] w

/-- Settles O3: each instruction is one operation on two registers, whose value as an integer the lemmas above give. -/
theorem multiplyDivideResults : Obligations.MultiplyDivideResults := by
  intro s rd rs1 rs2 h
  exact ⟨ends_alu_pair h (ofInt_mul_toInt _ _) rfl,
    ends_alu_pair h (mulh_eq_ofInt _ _) rfl,
    ends_alu_pair h (mulhsu_eq_ofInt _ _) rfl,
    ends_alu_pair h (mulhu_eq_ofInt _ _) rfl,
    ends_alu_pair h (divS_eq_ofInt _ _) rfl,
    ends_alu_pair h (divU_eq_ofInt _ _) rfl,
    ends_alu_pair h (remS_eq_ofInt _ _) rfl,
    ends_alu_pair h (remU_eq_ofInt _ _) rfl,
    ends_alu_pair h (wform_eq_ofInt _ _ _ (mulw_toInt _ _)) rfl,
    ends_alu_pair h (wform_eq_ofInt _ _ _ (divw_toInt _ _)) rfl,
    ends_alu_pair h (wform_eq_ofInt _ _ _ (divuw_toInt _ _)) rfl,
    ends_alu_pair h (wform_eq_ofInt _ _ _ (remw_toInt _ _)) rfl,
    ends_alu_pair h (wform_eq_ofInt _ _ _ (remuw_toInt _ _)) rfl⟩

end Sys2Proof.Machine

/-! PROOFS. Jumps and branches (R82, R85): what the parts of a jump do, then a jump with its link, then a branch, then a fetch past the code (R79). -/

namespace Sys2Proof.Machine

/-! ## Offsets (R26) -/

theorem append_zero_signExtend {n : Nat} (hn : 0 < n) (i : BitVec n) : (i ++ 0#1).signExtend 64 = BitVec.ofInt 64 (2 * i.toInt) := by
  have h0 : (n == 0) = false := beq_eq_false_iff_ne.mpr (Nat.ne_of_gt hn)
  rw [BitVec.signExtend, BitVec.toInt_append, h0]
  simp

theorem offB_eq_ofInt (i : BitVec 12) : offB i = BitVec.ofInt 64 (2 * i.toInt) := append_zero_signExtend (by decide) i
theorem offJ_eq_ofInt (i : BitVec 20) : offJ i = BitVec.ofInt 64 (2 * i.toInt) := append_zero_signExtend (by decide) i

/-! ## Changes of the executing bank -/

theorem State.modB_congr (s : State) {f g : Bank → Bank} (h : f s.b = g s.b) : s.modB f = s.modB g := congrArg s.putB h

theorem writesPc_modB (s : State) (pc : W64) : WritesPc pc s (s.modB fun b => { b with pc := pc }) :=
  ⟨onlyBank_modB s _, sameMem_modB s _, by rw [State.b_modB], by rw [State.b_modB]⟩

theorem State.advance_eq (s : State) : s.modB Bank.advance = s.modB fun b => { b with pc := s.b.pc + 4 } := s.modB_congr rfl

/-! ## A mismatch that is taken (R22, R360) -/

@[simp] theorem State.b_takeMishap (s : State) : s.takeMishap.b = s.b := by
  unfold State.takeMishap; cases s.mishap <;> rfl
/-- Memory reads alike where its storage and its check banks are the same and each unit is as far in or out of service (R125, R354). -/
theorem State.byteAt_of_units {s t : State} (hm : t.mem = s.mem) (hc : t.check = s.check) (hu : ∀ u, (t.unitAt u).st = (s.unitAt u).st) (loc : Nat) :
    t.byteAt loc = s.byteAt loc := by
  have hout : t.bankOut = s.bankOut := by funext ck b; simp only [State.bankOut, UnitRec.withdrawn, hu]
  have her : t.erasures = s.erasures := by funext ck; unfold State.erasures State.banksOut; rw [hout]
  have hraw : t.rawAt = s.rawAt := by funext a; simp only [State.rawAt, hm]
  simp only [State.byteAt, State.erased, State.rebuilt, State.leftP, State.leftQ, hraw, her, hc]
  rfl

/-- Points to a unit leave it in or out of service as it was (R360). -/
theorem State.unitAt_charge_st (s : State) (u n v : Nat) : ((s.charge u n).unitAt v).st = (s.unitAt v).st := by
  simp only [State.charge, State.modUnit, State.putUnit, State.unitAt, FMap.get_set]
  split
  case isTrue h => rw [h]; rfl
  case isFalse => rfl

theorem State.byteAt_charge (s : State) (u n loc : Nat) : (s.charge u n).byteAt loc = s.byteAt loc :=
  State.byteAt_of_units (s := s) (t := s.charge u n) rfl rfl (s.unitAt_charge_st u n) loc

theorem State.byteAt_takeMishap (s : State) (loc : Nat) : s.takeMishap.byteAt loc = s.byteAt loc := by
  unfold State.takeMishap
  cases s.mishap with
  | none => rfl
  | fixed l => exact State.byteAt_charge { s with mishap := .none } _ _ loc
  | bad l => exact State.byteAt_charge { s with mishap := .none } _ _ loc

/-- A target or a condition with an unrecovered mismatch raises POISON with TVAL 64, and memory is as it was (R80). -/
def MismatchTrap (s t : State) : Prop :=
  t.b.service = true ∧ t.b.tcause = 0xE ∧ t.b.tval = 64 ∧ t.b.tepc = s.b.pc &&& ~~~3#64 ∧ SameMem s t

theorem mismatchTrap_takeMishap (s : State) : MismatchTrap s (s.takeMishap.trap 0x0E 64) := by
  obtain ⟨_, hmem, _, hsvc, hcause, htval, htepc, _⟩ := takesTrap_trap s.takeMishap 0x0E 64
  exact ⟨hsvc, hcause, htval, htepc.trans (by rw [State.b_takeMishap]), fun loc => (hmem loc).trans (s.byteAt_takeMishap loc)⟩

/-! ## The checks -/

theorem checked_none {s : State} (h : s.mishap = .none) : checked s = .ok s () := by
  rw [checked, State.takeMishap_none h, State.badMishap_none h]; rfl
theorem checked_bad {s : State} (h : s.badMishap = true) : checked s = .trap s.takeMishap 0x0E 64 := by
  rw [checked, h]; rfl
theorem State.badMishap_of_bad {s : State} {l : Nat} (h : s.mishap = .bad l) : s.badMishap = true := by
  rw [State.badMishap, h]

theorem clean_cons {s : State} {r : Reg} (h : s.b.poisX r = false) (rs : List Reg) : clean s (r :: rs) = clean s rs := by
  rw [clean, h]; rfl
theorem clean_cons_poisoned {s : State} {r : Reg} (h : s.b.poisX r = true) (rs : List Reg) : clean s (r :: rs) = .trap s 0x0E (w64 r) := by
  rw [clean, h]; rfl
theorem clean_one {s : State} {r : Reg} (h : s.b.poisX r = false) : clean s [r] = .ok s () := clean_cons h []
theorem clean_pair {s : State} {r q : Reg} (hr : s.b.poisX r = false) (hq : s.b.poisX q = false) : clean s [r, q] = .ok s () :=
  (clean_cons hr [q]).trans (clean_one hq)

theorem jump_lands {s : State} {t : W64} (link : State → State) (h4 : t.toNat % 4 = 0) (hin : s.inCode t = true) :
    jump s t link = .ok ((link s).modB fun b => { b with pc := t }) () := by
  rw [jump, beq_iff_eq.mpr h4, check, if_pos rfl, Res.bind, hin]; rfl
theorem jump_misaligned {s : State} {t : W64} (link : State → State) (h4 : t.toNat % 4 ≠ 0) : jump s t link = .trap s 2 t := by
  rw [jump, beq_eq_false_iff_ne.mpr h4]; rfl
theorem jump_outside {s : State} {t : W64} (link : State → State) (h4 : t.toNat % 4 = 0) (hin : s.inCode t = false) : jump s t link = .trap s 4 t := by
  rw [jump, beq_iff_eq.mpr h4, check, if_pos rfl, Res.bind, hin]; rfl

/-! ## Ends of instructions that set the pc -/

theorem ends_of_ok {i : Instr} {s t : State} {P : State → Prop} (h : exec i s = finishAt (.ok t ())) (hP : P t) : Ends i s P := ⟨t, h, hP⟩
theorem ends_of_trap {i : Instr} {s u : State} {c : Nat} {v : W64} (h : exec i s = finishAt (.trap u c v)) : Ends i s (TakesTrap c v u) :=
  ⟨_, h, takesTrap_trap u c v⟩
theorem ends_of_mismatch {i : Instr} {s : State} (h : exec i s = finishAt (.trap s.takeMishap 0x0E 64)) : Ends i s (MismatchTrap s) :=
  ⟨_, h, mismatchTrap_takeMishap s⟩

/-- The traps of a jump to a target (R85). -/
def JumpTraps (i : Instr) (t : W64) (s : State) : Prop :=
  (t.toNat % 4 ≠ 0 → Ends i s (TakesTrap 2 t s)) ∧ (t.toNat % 4 = 0 → s.inCode t = false → Ends i s (TakesTrap 4 t s))

theorem jumpTraps_of_jump {i : Instr} {s : State} {t : W64} {link : State → State} (hi : exec i s = finishAt (jump s t link)) : JumpTraps i t s :=
  ⟨fun h4 => ends_of_trap (hi.trans (by rw [jump_misaligned link h4])), fun h4 hin => ends_of_trap (hi.trans (by rw [jump_outside link h4 hin]))⟩

/-! ## Jumps with a link (R80, R85) -/

theorem jumpLink_none {s : State} (h : s.mishap = .none) (rd : Reg) (t : W64) :
    jumpLink rd t s = jump s t fun s => s.modB fun b => b.setX rd (b.pc + 4) false := by
  have hl : s.onLink = false := by rw [State.onLink, h]
  rw [jumpLink, hl, checked_none h]; rfl

/-- The first of the two results is the target. -/
theorem jumpLink_badTarget {s : State} {l : Nat} (h : s.mishap = .bad (2 * l)) (rd : Reg) (t : W64) : jumpLink rd t s = .trap s.takeMishap 0x0E 64 := by
  have hl : s.onLink = false := by rw [State.onLink, h]; exact beq_eq_false_iff_ne.mpr (by omega)
  rw [jumpLink, hl, checked_bad (State.badMishap_of_bad h)]; rfl

/-- The second is the link. -/
theorem jumpLink_badLink {s : State} {l : Nat} (h : s.mishap = .bad (2 * l + 1)) (rd : Reg) (t : W64) :
    jumpLink rd t s = jump s t fun s => s.writeX rd (s.b.pc + 4) false := by
  have hl : s.onLink = true := by rw [State.onLink, h]; exact beq_iff_eq.mpr (by omega)
  rw [jumpLink, hl]; rfl

/-- A result with an unrecovered mismatch, then the pc (R80). -/
theorem writeX_bad_setPc {s : State} (h : s.badMishap = true) (rd : Reg) (v t : W64) (p : Bool) :
    ((s.writeX rd v p).modB fun b => { b with pc := t }) = s.takeMishap.modB fun b => { (b.setX rd v true).markChk 1 with pc := t } := by
  rw [State.writeX, h]; exact State.modB_modB _ _ _

/-- The link of a jump is poisoned and the jump made: what an unrecovered mismatch of the link leaves (R80, R92). -/
def PoisonedLink (rd : Reg) (dst : W64) (s t : State) : Prop :=
  t.b.poisX rd = (rd != 0) ∧ (∀ r, r ≠ rd → t.b.getX r = s.b.getX r ∧ t.b.poisX r = s.b.poisX r) ∧ t.b.pc = dst ∧ t.b.service = s.b.service ∧
    t.b.aflags = s.b.aflags ||| 0x80 ∧ t.b.chki = (if s.b.chki &&& 3 = 0 then 0x102 else s.b.chki ||| 2) ∧ SameMem s t

theorem poisonedLink_setPc {s : State} (h : s.badMishap = true) (rd : Reg) (v dst : W64) :
    PoisonedLink rd dst s ((s.writeX rd v false).modB fun b => { b with pc := dst }) := by
  have hb : (s.takeMishap.modB fun b => { (b.setX rd v true).markChk 1 with pc := dst }).b = { (s.b.setX rd v true).markChk 1 with pc := dst } := by
    rw [State.b_modB, State.b_takeMishap]
  obtain ⟨_, hother⟩ := onlyX_setX s.b rd v true dst
  obtain ⟨_, hpois⟩ := holdsX_setX s.b rd v true
  rw [writeX_bad_setPc h, PoisonedLink, hb]
  refine ⟨hpois.trans (Bool.and_true _), hother, rfl, ?_, ?_, ?_, s.byteAt_takeMishap⟩
  · exact Bank.setX_service _ _ _ _
  · simp
  · simp [chkiSet]; rfl

/-- JAL and JALR (R82, R85), where the target and the base register are no obstacle. -/
theorem ends_jumpLink {i : Instr} {s : State} {rd : Reg} {t : W64} (hm : s.mishap = .none) (hi : exec i s = finishAt (jumpLink rd t s))
    (h : t.toNat % 4 = 0 ∧ s.inCode t = true) : Ends i s (WritesX rd (s.b.pc + 4) false t s) := by
  obtain ⟨h4, hin⟩ := h
  rw [jumpLink_none hm, jump_lands _ h4 hin, State.modB_modB, State.modB_congr s (g := fun b => { b.setX rd (s.b.pc + 4) false with pc := t }) rfl] at hi
  exact ends_of_ok hi (writesX_modB s rd _ false t)

theorem jumpTraps_jumpLink {i : Instr} {s : State} {rd : Reg} {t : W64} (hi : exec i s = finishAt (jumpLink rd t s)) (hm : s.mishap = .none) :
    JumpTraps i t s := by
  rw [jumpLink_none hm] at hi
  exact jumpTraps_of_jump hi

/-- JAL and JALR with an unrecovered mismatch: of the target, and of the link. -/
theorem shaken_jumpLink {i : Instr} {s : State} {rd : Reg} {t : W64} (hi : exec i s = finishAt (jumpLink rd t s)) :
    (∀ l, s.mishap = .bad (2 * l) → Ends i s (MismatchTrap s)) ∧
    ∀ l, s.mishap = .bad (2 * l + 1) → t.toNat % 4 = 0 → s.inCode t = true → Ends i s (PoisonedLink rd t s) := by
  refine ⟨fun l h => ?_, fun l h h4 hin => ?_⟩
  · exact ends_of_mismatch (hi.trans (by rw [jumpLink_badTarget h]))
  · rw [jumpLink_badLink h, jump_lands _ h4 hin] at hi
    exact ends_of_ok hi (poisonedLink_setPc (State.badMishap_of_bad h) rd _ t)

theorem exec_jal (rd : Reg) (far : BitVec 20) (s : State) :
    exec (.jal rd far) s = finishAt (jumpLink rd (s.b.pc + .ofInt 64 (2 * far.toInt)) s) := by
  rw [← offJ_eq_ofInt]; rfl

theorem exec_jalr {s : State} {rs1 : Reg} (h : s.b.poisX rs1 = false) (rd : Reg) (imm : BitVec 12) :
    exec (.jalr rd rs1 imm) s = finishAt (jumpLink rd ((s.b.getX rs1 + .ofInt 64 imm.toInt) &&& ~~~1#64) s) := by
  show finishAt ((clean s [rs1]).bind _) = _
  rw [clean_one h]; rfl

theorem exec_jalr_poisoned {s : State} {rs1 : Reg} (h : s.b.poisX rs1 = true) (rd : Reg) (imm : BitVec 12) :
    exec (.jalr rd rs1 imm) s = finishAt (.trap s 0x0E (w64 rs1)) := by
  show finishAt ((clean s [rs1]).bind _) = _
  rw [clean_cons_poisoned h]; rfl

/-! ## Branches (R82, R85, R391) -/

section Branch
variable {i : Instr} {s : State} {cond : W64 → W64 → Bool} {rs1 rs2 : Reg} {off : BitVec 12}

theorem branch_clean (h1 : s.b.poisX rs1 = false) (h2 : s.b.poisX rs2 = false) :
    branch cond rs1 rs2 off s = finishAt ((checked s).bind fun s _ =>
      if cond (s.b.getX rs1) (s.b.getX rs2) then jump s (s.b.pc + offB off) id else .ok (s.modB Bank.advance) ()) := by
  rw [branch, clean_pair h1 h2]; rfl

theorem branch_taken (hm : s.mishap = .none) (h1 : s.b.poisX rs1 = false) (h2 : s.b.poisX rs2 = false)
    (hc : cond (s.b.getX rs1) (s.b.getX rs2) = true) :
    branch cond rs1 rs2 off s = finishAt (jump s (s.b.pc + .ofInt 64 (2 * off.toInt)) id) := by
  rw [branch_clean h1 h2, checked_none hm, Res.bind, if_pos hc, offB_eq_ofInt]

theorem branch_untaken (hm : s.mishap = .none) (h1 : s.b.poisX rs1 = false) (h2 : s.b.poisX rs2 = false)
    (hc : ¬ cond (s.b.getX rs1) (s.b.getX rs2) = true) :
    branch cond rs1 rs2 off s = finishAt (.ok (s.modB fun b => { b with pc := s.b.pc + 4 }) ()) := by
  rw [branch_clean h1 h2, checked_none hm, Res.bind, if_neg hc, State.advance_eq]

variable {c : Prop} (hi : exec i s = branch cond rs1 rs2 off s) (hc : cond (s.b.getX rs1) (s.b.getX rs2) = true ↔ c)
include hi hc

/-- A branch on two clean registers with no mismatch. -/
theorem ends_branch (hm : s.mishap = .none) (h1 : s.b.poisX rs1 = false) (h2 : s.b.poisX rs2 = false) :
    let tb := s.b.pc + .ofInt 64 (2 * off.toInt)
    (c → tb.toNat % 4 = 0 ∧ s.inCode tb = true → Ends i s (WritesPc tb s)) ∧ (¬ c → Ends i s (WritesPc (s.b.pc + 4) s)) := by
  refine ⟨fun h ⟨h4, hin⟩ => ?_, fun h => ?_⟩
  · rw [branch_taken hm h1 h2 (hc.mpr h), jump_lands id h4 hin] at hi
    exact ends_of_ok hi (writesPc_modB s _)
  · rw [branch_untaken hm h1 h2 (mt hc.mp h)] at hi
    exact ends_of_ok hi (writesPc_modB s _)

/-- The traps of a branch: of its target, of a poisoned register, of an unrecovered mismatch of its condition. -/
theorem branch_traps :
    (s.b.poisX rs1 = false ∧ s.b.poisX rs2 = false → c → s.mishap = .none → JumpTraps i (s.b.pc + .ofInt 64 (2 * off.toInt)) s) ∧
    (s.b.poisX rs1 = true → Ends i s (TakesTrap 0xE (w64 rs1) s)) ∧
    (s.b.poisX rs1 = false → s.b.poisX rs2 = true → Ends i s (TakesTrap 0xE (w64 rs2) s)) ∧
    (s.b.poisX rs1 = false ∧ s.b.poisX rs2 = false → s.badMishap = true → Ends i s (MismatchTrap s)) := by
  refine ⟨fun ⟨h1, h2⟩ h hm => ?_, fun h1 => ?_, fun h1 h2 => ?_, fun ⟨h1, h2⟩ hb => ?_⟩
  · exact jumpTraps_of_jump (hi.trans (branch_taken hm h1 h2 (hc.mpr h)))
  · exact ends_of_trap (hi.trans (by rw [branch, clean_cons_poisoned h1]; rfl))
  · exact ends_of_trap (hi.trans (by rw [branch, clean_cons h1, clean_cons_poisoned h2]; rfl))
  · exact ends_of_mismatch (hi.trans (by rw [branch_clean h1 h2, checked_bad hb]; rfl))

end Branch

theorem not_slt_iff (a b : W64) : (!a.slt b) = true ↔ b.toInt ≤ a.toInt := by
  rw [Bool.not_eq_true', ← Bool.not_eq_true, BitVec.slt_iff_toInt_lt, Int.not_lt]
theorem not_ult_iff (a b : W64) : (!a.ult b) = true ↔ b.toNat ≤ a.toNat := by
  rw [Bool.not_eq_true', ← Bool.not_eq_true, BitVec.ult_iff_toNat_lt, Nat.not_lt]

/-! ## A fetch past the end of the code (R79, R85) -/

theorem State.fetch_outside {s : State} (hs : s.b.service = false) (h : s.inCode s.b.pc = false) : s.fetch = none := by
  have hc : ¬ (0x100000 ≤ s.b.pc.toNat ∧ (s.b.pc.toNat - 0x100000) / 4 < (s.jobAt s.jid).img.code.length) := by
    rw [State.inCode, hs, Bool.false_or, decide_eq_false_iff_not] at h
    omega
  rw [State.fetch, hs, State.codeIndex, if_neg hc]; rfl

theorem State.redo_none {s : State} (h : s.b.redo = none) : s.redo = none := by
  rw [State.redo, h, ite_self]

theorem State.issueWord_outside {s : State} (hs : s.b.service = false) (hr : s.b.redo = none) (h : s.inCode s.b.pc = false) :
    s.issueWord = .next (s.trap 4 s.b.pc) := by
  rw [State.issueWord, State.redo_none hr, State.fetch_outside hs h]
  simp [hs]

/-- A trap of handler mode is no instruction that has not issued: the bank enters service mode. -/
theorem State.stays_trap {s : State} (hs : s.b.service = false) (cause : Nat) (v : W64) (i : Instr) : s.stays (s.trap cause v) i = false := by
  obtain ⟨_, _, _, hsvc, _⟩ := takesTrap_trap s cause v
  have hne : (s.trap cause v).b ≠ s.b := fun h => by rw [h, hs] at hsvc; cases hsvc
  have hbeq : ((s.trap cause v).bankAt s.cur == s.b) = false := beq_eq_false_iff_ne.mpr hne
  rw [State.stays, hbeq, Bool.false_and]

theorem State.shutWindow_closed {s : State} (h : s.b.maskOn = false) : s.shutWindow = s := by
  rw [State.shutWindow, State.windowDue, h]; rfl

theorem State.boundary_clear {s : State} (hd : s.b.maskDue = 0) (hp : s.b.preempt = none) (hm : s.b.maskOn = false) : s.boundary = none := by
  simp [State.boundary, State.windowDue, hd, hp, hm]

/-- The issue of a bank of handler mode in its turn, where nothing stands before its next word and there is none. -/
theorem State.issue_outside {s : State} {bk : Nat} (hg : (s.clusterAt (bk / 80)).gated = false) :
    let u := { s with cur := bk }
    u.b.st = .running → u.b.service = false → u.b.maskDue = 0 → u.b.preempt = none → u.b.maskOn = false → u.b.redo = none → u.inCode u.b.pc = false →
      u.turn bk = true → s.issue bk = .next ((u.trap 4 u.b.pc).issued bk) := by
  intro u hst hs hd hp hm hr hin ht
  have hgo : ¬ (u.b.st ≠ .running ∨ (u.clusterAt u.ck).gated = true) := by
    rintro (h | h)
    · exact h hst
    · exact absurd (h.symm.trans hg) (by decide)
  show (if u.b.st ≠ .running ∨ (u.clusterAt u.ck).gated = true then _ else _) = _
  rw [if_neg hgo, State.shutWindow_closed hm, State.boundary_clear hd hp hm]
  simp only [ht, State.issueWord_outside hs hr hin, State.stays_trap hs]
  rfl

/-- The step that issues a bank (log entry 3). -/
theorem step_issue {s t : State} {bk : Nat} {rest : List Move} (ha : s.agenda = .issue bk :: rest) (hk : s.karmos.diesHeld = false) (hbk : bk < 15360)
    (h : ({ s with agenda := rest } : State).issue bk = .next t) : step s = .next t.settle := by
  have hgo : ¬ (s.karmos.diesHeld = true ∨ 15360 ≤ bk) := by simp [hk, hbk]
  have hraw : ({ s with agenda := rest } : State).moveRaw (.issue bk) = .next t := by
    show (if s.karmos.diesHeld = true ∨ 15360 ≤ bk then _ else _) = _
    rw [if_neg hgo, h]
  rw [step, State.takeMove, ha]
  show State.move { s with agenda := rest } (.issue bk) = _
  rw [State.move, hraw]

/-! ## The statement -/

/-- Settles O5: jumps and branches by the lemmas of a jump with a link and of a branch, on each condition as the model compares; the fetch by the issue of
a bank that finds no word. -/
theorem jumpsAndBranches : Obligations.JumpsAndBranches := by
  refine ⟨?lands, ?traps, ?fetch⟩
  case lands =>
    intro s rd rs1 rs2 imm off far hm
    exact ⟨ends_jumpLink hm (exec_jal rd far s), fun h1 => ends_jumpLink hm (exec_jalr h1 rd imm),
      ends_branch rfl beq_iff_eq hm, ends_branch rfl bne_iff_ne hm,
      ends_branch rfl BitVec.slt_iff_toInt_lt hm, ends_branch (cond := fun a b => !a.slt b) rfl (not_slt_iff _ _) hm,
      ends_branch rfl BitVec.ult_iff_toNat_lt hm, ends_branch (cond := fun a b => !a.ult b) rfl (not_ult_iff _ _) hm⟩
  case traps =>
    intro s rd rs1 rs2 imm off far
    exact ⟨jumpTraps_jumpLink (exec_jal rd far s), shaken_jumpLink (exec_jal rd far s),
      fun h1 => ⟨jumpTraps_jumpLink (exec_jalr h1 rd imm), shaken_jumpLink (exec_jalr h1 rd imm)⟩,
      fun h1 => ends_of_trap (exec_jalr_poisoned h1 rd imm),
      branch_traps rfl beq_iff_eq, branch_traps rfl bne_iff_ne,
      branch_traps rfl BitVec.slt_iff_toInt_lt, branch_traps (cond := fun a b => !a.slt b) rfl (not_slt_iff _ _),
      branch_traps rfl BitVec.ult_iff_toNat_lt, branch_traps (cond := fun a b => !a.ult b) rfl (not_ult_iff _ _)⟩
  case fetch =>
    intro s bk rest ha hk hbk hg u hst hs hd hp hm hr hin ht
    exact ⟨u.trap 4 u.b.pc, takesTrap_trap u 4 u.b.pc,
      step_issue ha hk hbk (State.issue_outside (s := { s with agenda := rest }) hg hst hs hd hp hm hr hin ht)⟩

end Sys2Proof.Machine
